-- ==== Sys2Proof/Word.lean ====
section
/-! DEFINITION. The words of the part: bytes on its links and service times. -/

namespace Sys2Proof

/-- One byte on the Console Link or the Keyline (R165, R163). -/
abbrev Byte := BitVec 8

/-- A service time: an unsigned 32-bit count of units of 0.1 ms that wraps (R1). -/
abbrev Time := BitVec 32

end Sys2Proof
end

