-- ==== Sys2Proof/Config.lean ====
section
/-! DEFINITION. What the part fixes: capacities, identity figures and constants of the rules. -/

namespace Sys2Proof.Config

/-- Slots of the tune directory (R4). -/
def slotCount : Nat := 32
/-- Entries of the step pool (R6). -/
def poolEntries : Nat := 12288
/-- Records of the Registration Table (R31). -/
def registrationCount : Nat := 16
/-- Places of the Lookahead Window (R96). -/
def windowPlaces : Nat := 16
/-- Places of the Key Schedule (R116). -/
def schedulePlaces : Nat := 256
/-- Places of the Onset Queue (R54). -/
def onsetPlaces : Nat := 32
/-- Places of the Notice Queue (R176). -/
def noticePlaces : Nat := 16
/-- Requests the request queue holds, and replies the BUSY list holds (R168). -/
def requestPlaces : Nat := 2
/-- Notices one FETCH_NOTICES returns at most (R177). -/
def fetchCount : Nat := 4
/-- Length of a clearing in units (R22). -/
def clearingUnits : Nat := 250
/-- Units after which an incomplete frame is discarded (R167). -/
def frameGapUnits : Nat := 200
/-- Units of one hop under the hop timer (R40). -/
def hopUnits : Nat := 80
/-- Units by which an onset's time precedes its declaration (R48). -/
def onsetDelay : Nat := 120
/-- D, the units from a window's close to its decision (R66). -/
def decisionDelay : Nat := 160
/-- Distance below which two follow points are too near (R65). -/
def nearFollow : Nat := 400
/-- Bound of "later" for Leak Mask deadlines (R49, R142). -/
def leakReach : Nat := 70000
/-- Units added to the acoustic delay for the fresh deadline (R140). -/
def freshUnits : Nat := 500
/-- Slots of a Keyline frame, and the change or sweep slots among them (R152, R160). -/
def frameSlots : Nat := 16
def changeSlots : Nat := 15
/-- Longest kind, tag and body of a frame of the Console Link (R166). -/
def maxFrameLength : Nat := 1024
/-- Longest body of a frame: kind and tag taken off. -/
def maxBody : Nat := 1022
/-- Product number and interface revision (R171). -/
def productNumber : Nat := 620
def interfaceRevision : Nat := 1
/-- Section number of the Amen (R2). -/
def amenSection : Nat := 13
/-- The highest verse number (R2). -/
def lastVerse : Nat := 12

/-- DESIGN CHOICE (log 7): the number that stands for the energy of a full-scale sine in the
energies a hop's analysis gives; R41 and R43 compare with levels below it. -/
def fullScaleEnergy : Nat := 1000000000000

/-- Samples of the pacing channel in a hop (R40). -/
def hopSamples : Nat := 128

/-- FREE VALUE (log 7): the energy of a band (0 to 5) that the analysis numbered `analysis` finds in a
channel's samples (0 for A, 1 for B). The band filters are not specified (R41). -/
opaque bandEnergy (analysis channel : Nat) (samples : List Int) (band : Nat) : Nat

/-- FREE VALUE (log 7): the energy of a pitch class (0 to 11), at its pitches from 36 to 95, that the
analysis numbered `analysis` finds in a channel's samples. The analysis is not specified (R41, R43). -/
opaque classEnergy (analysis channel : Nat) (samples : List Int) (pitchClass : Nat) : Nat

/-- DESIGN CHOICE (log 10): the number sent for SKIPPED in the period step of a decision record,
the first value beyond the step's range of 150 000 either way (R86, R170). -/
def skippedCode : Nat := 150001

/-- DESIGN CHOICE (log 21): bound on the entries, decisions and departures of one event. -/
def cascadeBound : Nat := 4096
/-- DESIGN CHOICE (log 21): bound on the Player's own transitions of one event. -/
def atOnceBound : Nat := 256

end Sys2Proof.Config
end

