-- ==== Sys2Proof/Syntax.lean ====
section
/-! DEFINITION. The commands of the part: one constructor of Instr per row of the table, and the
fields of the requests as they are sent on the Console Link (R170). -/

namespace Sys2Proof

/-- An optional field as it is sent: a presence byte 0, a presence byte 1 and the field, or a
presence byte outside its values, which the owner refuses BAD_FIELD (R170). -/
inductive Wire (α : Type) where
  | absent
  | present (a : α)
  | invalid (presence : Nat)
  deriving DecidableEq, Repr

/-- The audio channels (R38). -/
inductive Channel where
  | A | B
  deriving DecidableEq, Repr

/-- One value per voice, in the order S, A, T, B, PED, DESC (chapter 2). -/
structure PerVoice (α : Type) where
  s : α
  a : α
  t : α
  b : α
  ped : α
  desc : α
  deriving DecidableEq, Repr

/-- One value per division, 1 to 5. -/
structure PerDivision (α : Type) where
  d1 : α
  d2 : α
  d3 : α
  d4 : α
  d5 : α
  deriving DecidableEq, Repr

/-- A note of a TUNE_STEPS list as sent (R9, R13). -/
structure NoteFields where
  voice : Nat
  pitch : Nat
  tieOn : Nat
  deriving DecidableEq, Repr

/-- A fermata as sent: kind (0 TIMED, 1 CUED) and factor in quarters (R9). -/
structure FermataFields where
  kind : Nat
  factor : Nat
  deriving DecidableEq, Repr

/-- A step of a TUNE_STEPS list as sent (R9, R13). -/
structure StepFields where
  position : Nat
  duration : Nat
  follow : Nat
  fermata : Wire FermataFields
  notes : List NoteFields
  deriving DecidableEq, Repr

/-- An introduction range as sent (R5). -/
structure RangeFields where
  first : Nat
  last : Nat
  deriving DecidableEq, Repr

/-- A TUNE_BEGIN header as sent (R5). -/
structure HeaderFields where
  number : Nat
  beats : Nat
  nominal : Nat
  pmin : Nat
  pmax : Nat
  verseSteps : Nat
  amenSteps : Nat
  intro : Wire RangeFields
  entries : Nat
  deriving DecidableEq, Repr

/-- A division record as sent (R24). -/
structure DivisionFields where
  present : Nat
  lowest : Nat
  keyCount : Nat
  speech : Nat
  release : Nat
  acoustic : Nat
  leakTracking : Nat
  leakTail : Nat
  stopCount : Nat
  enclosed : Nat
  deriving DecidableEq, Repr

/-- A registration record as sent (R31, R33): routing 1 to 5, 6 for SILENT; 32 stop states per
division; expression 0 to 15, 16 for UNCHANGED (log 11). -/
structure RegistrationFields where
  first : Nat
  last : Nat
  repeats : Nat
  base : Nat
  routing : PerVoice Nat
  stops : PerDivision (List Nat)
  expression : PerDivision Nat
  lift : Nat
  deriving DecidableEq, Repr

/-- A verse override of START_HYMN or a changed entry of AMEND_PLAN as sent (R88, R94):
mode 0 PLAY, 1 SILENT, 2 OMIT; registration 0 to 15, 16 for AUTO; gap kind 0 TIMED, 1 CUED. -/
structure EntryFields where
  verse : Nat
  mode : Nat
  registration : Nat
  transposition : Int
  gapLength : Nat
  gapKind : Nat
  deriving DecidableEq, Repr

/-- The fields of START_HYMN as sent (R88). -/
structure StartFields where
  slot : Nat
  verseCount : Nat
  intro : Nat
  amen : Nat
  startKind : Nat
  gapLength : Nat
  gapKind : Nat
  join : Nat
  transposition : Int
  overrides : List EntryFields
  deriving DecidableEq, Repr

/-- The fields of AMEND_PLAN as sent (R94). -/
structure AmendFields where
  entries : List EntryFields
  verseCount : Wire Nat
  amen : Wire Nat
  deriving DecidableEq, Repr

/-- The 27 requests of the catalogue (9.5) with their fields as sent. -/
inductive Request where
  | identify
  | getStatus
  | getFollow
  | setParam (number : Nat) (value : Int)
  | getParam (number : Nat)
  | setDivision (division : Nat) (fields : DivisionFields)
  | getDivision (division : Nat)
  | setRegistration (index : Nat) (record : Wire RegistrationFields)
  | getRegistration (index : Nat)
  | tuneBegin (slot : Nat) (header : HeaderFields)
  | tuneSteps (slot first : Nat) (steps : List StepFields)
  | tuneEnd (slot : Nat)
  | tuneErase (slot : Nat)
  | tuneRead (slot first count : Nat)
  | getDirectory (first : Nat)
  | clearStore
  | startHymn (fields : StartFields)
  | go
  | stopHymn (mode amen : Nat)
  | allOff
  | reservePlan
  | amendPlan (fields : AmendFields)
  | getPlan
  | setNotices (global : Nat) (enables : Nat)
  | fetchNotices
  | ackFlags (flags : Nat)
  | reset
  deriving DecidableEq, Repr

/-- One word-clock period of an audio input: the data bits that the converter sends while the word
clock is low and those it sends while it is high, each in the order sent (R38). -/
structure WordPeriod where
  low : List Bool
  high : List Bool
  deriving DecidableEq, Repr

/-- What one audio input carried in a hop (R38, R39; log 7): whether its word clock ran throughout the
hop with no absence longer than 1 ms, and its word-clock periods, oldest first. -/
structure HopInput where
  clockRan : Bool
  periods : List WordPeriod
  deriving DecidableEq, Repr

/-- Why the part is put in reset (R185): a pulse on the reset pin with its length in ns, or the
supply below its operating range. -/
inductive ResetCause where
  | pin (nanoseconds : Nat)
  | supply
  deriving DecidableEq, Repr

/-- The commands: one constructor per row of the table. `dt` is the units of service time that pass
before the command is taken (log 1); a request row is the arrival of that request's complete frame
with the given tag (R168, log 4). -/
inductive Instr where
  | fullReset (straps : BitVec 2)
  | consoleReset (dt : Nat)
  | receiveFrame (dt : Nat) (kind tag : Byte) (body : List Byte)
  | frameTimeout (dt : Nat)
  | replySent (dt : Nat)
  | identify (dt : Nat) (tag : Byte)
  | getStatus (dt : Nat) (tag : Byte)
  | getFollow (dt : Nat) (tag : Byte)
  | setParam (dt : Nat) (tag : Byte) (number : Nat) (value : Int)
  | keylineEnableOn (dt : Nat) (tag : Byte)
  | keylineEnableOff (dt : Nat) (tag : Byte)
  | getParam (dt : Nat) (tag : Byte) (number : Nat)
  | setDivision (dt : Nat) (tag : Byte) (division : Nat) (fields : DivisionFields)
  | getDivision (dt : Nat) (tag : Byte) (division : Nat)
  | setRegistration (dt : Nat) (tag : Byte) (index : Nat) (record : Wire RegistrationFields)
  | getRegistration (dt : Nat) (tag : Byte) (index : Nat)
  | tuneBegin (dt : Nat) (tag : Byte) (slot : Nat) (header : HeaderFields)
  | tuneSteps (dt : Nat) (tag : Byte) (slot first : Nat) (steps : List StepFields)
  | tuneEnd (dt : Nat) (tag : Byte) (slot : Nat)
  | tuneErase (dt : Nat) (tag : Byte) (slot : Nat)
  | tuneRead (dt : Nat) (tag : Byte) (slot first count : Nat)
  | getDirectory (dt : Nat) (tag : Byte) (first : Nat)
  | clearStore (dt : Nat) (tag : Byte)
  | clearingEnd (dt : Nat)
  | startHymn (dt : Nat) (tag : Byte) (fields : StartFields)
  | go (dt : Nat) (tag : Byte)
  | stopHymnEndOfVerse (dt : Nat) (tag : Byte) (amen : Nat)
  | stopHymnNow (dt : Nat) (tag : Byte) (amen : Nat)
  | allOff (dt : Nat) (tag : Byte)
  | reservePlan (dt : Nat) (tag : Byte)
  | amendPlan (dt : Nat) (tag : Byte) (fields : AmendFields)
  | getPlan (dt : Nat) (tag : Byte)
  | setNotices (dt : Nat) (tag : Byte) (global : Nat) (enables : Nat)
  | fetchNotices (dt : Nat) (tag : Byte)
  | ackFlags (dt : Nat) (tag : Byte) (flags : Nat)
  | reset (dt : Nat) (tag : Byte)
  | inputLost (dt : Nat) (channel : Channel)
  | hopComplete (dt : Nat) (a b : HopInput)
  | windowOpen (dt : Nat)
  | windowClose (dt : Nat)
  | windowDecision (dt : Nat)
  | lostTime (dt : Nat)
  | stepEntry (dt : Nat)
  | stepSoundTime (dt : Nat)
  | fermataSoundTime (dt : Nat)
  | fermataRebasedTime (dt : Nat)
  | sectionEnd (dt : Nat)
  | gapEnd (dt : Nat)
  | minimumEnd (dt : Nat)
  | maxWaitExpiry (dt : Nat)
  | breathEnd (dt : Nat)
  | frameStart (dt : Nat)
  | echoReceived (dt : Nat) (record : List Byte)
  | heldInReset (dt : Nat) (cause : ResetCause)
  | byteReceived (dt : Nat) (levels : List Bool)
  deriving DecidableEq, Repr

end Sys2Proof
end

