-- ==== Sys2Proof/Machine/Names.lean ====
section
/-! DEFINITION. The voices, the divisions and the hymn positions, with their orders and numbers. -/

namespace Sys2Proof.Machine

/-- The six voices, in the order in which tables list them (chapter 2). -/
inductive Voice where
  | S | A | T | B | PED | DESC
  deriving DecidableEq, Repr

/-- The five divisions (R24). -/
inductive Division where
  | d1 | d2 | d3 | d4 | d5
  deriving DecidableEq, Repr

/-- A hymn position: section and position in su (R2). -/
structure HymnPos where
  sec : Nat
  pos : Nat
  deriving DecidableEq, Repr

/-- Every voice in order. -/
def allVoices : List Voice := [.S, .A, .T, .B, .PED, .DESC]

/-- The number that stands for a voice in a byte (R170). -/
def voiceNumber : Voice → Nat
  | .S => 0
  | .A => 1
  | .T => 2
  | .B => 3
  | .PED => 4
  | .DESC => 5

def voiceOf : Nat → Option Voice
  | 0 => some .S
  | 1 => some .A
  | 2 => some .T
  | 3 => some .B
  | 4 => some .PED
  | 5 => some .DESC
  | _ => none

/-- Every division in order. -/
def allDivisions : List Division := [.d1, .d2, .d3, .d4, .d5]

def divisionNumber : Division → Nat
  | .d1 => 1
  | .d2 => 2
  | .d3 => 3
  | .d4 => 4
  | .d5 => 5

def divisionOf : Nat → Option Division
  | 1 => some .d1
  | 2 => some .d2
  | 3 => some .d3
  | 4 => some .d4
  | 5 => some .d5
  | _ => none

variable {α β : Type}

def voiceGet (p : PerVoice α) : Voice → α
  | .S => p.s
  | .A => p.a
  | .T => p.t
  | .B => p.b
  | .PED => p.ped
  | .DESC => p.desc

def voiceMap (f : α → β) (p : PerVoice α) : PerVoice β :=
  ⟨f p.s, f p.a, f p.t, f p.b, f p.ped, f p.desc⟩

/-- The same value for every voice. -/
def voiceAll (a : α) : PerVoice α := ⟨a, a, a, a, a, a⟩

/-- The values in voice order. -/
def voiceList (p : PerVoice α) : List α := [p.s, p.a, p.t, p.b, p.ped, p.desc]

def divGet (p : PerDivision α) : Division → α
  | .d1 => p.d1
  | .d2 => p.d2
  | .d3 => p.d3
  | .d4 => p.d4
  | .d5 => p.d5

def divSet (p : PerDivision α) (d : Division) (a : α) : PerDivision α :=
  match d with
  | .d1 => { p with d1 := a }
  | .d2 => { p with d2 := a }
  | .d3 => { p with d3 := a }
  | .d4 => { p with d4 := a }
  | .d5 => { p with d5 := a }

/-- The value each division has under `f`. -/
def divBuild (f : Division → α) : PerDivision α := ⟨f .d1, f .d2, f .d3, f .d4, f .d5⟩

def divAll (a : α) : PerDivision α := ⟨a, a, a, a, a⟩

/-- Hymn positions are ordered first by section and then by position (R2). -/
def posBefore (a b : HymnPos) : Bool := decide (a.sec < b.sec ∨ (a.sec = b.sec ∧ a.pos < b.pos))

/-- The voices of a holder set, in order, with `v` put in. -/
def addVoice (v : Voice) (h : List Voice) : List Voice :=
  allVoices.filter (fun w => w == v || h.contains w)

/-- The voices of a holder set with `v` taken out. -/
def dropVoice (v : Voice) (h : List Voice) : List Voice := h.filter (fun w => w != v)

end Sys2Proof.Machine
end

