-- ==== Sys2Proof/Machine/Table.lean ====
section
/-! DEFINITION. Sparse tables: an indexed store as a list of (index, value) pairs in one canonical
form, indexes rising and no value equal to the one an unlisted index reads as. -/

namespace Sys2Proof.Machine

/-- A sparse table of values of type `β` by number. -/
structure Table (β : Type) where
  cells : List (Nat × β)
  deriving DecidableEq, Repr

variable {β : Type}

/-- Reads number `k` of a cell list with rising indexes; `d` is what an unlisted number reads as. -/
def readCells (d : β) : List (Nat × β) → Nat → β
  | [], _ => d
  | (i, v) :: rest, k => if k < i then d else if k = i then v else readCells d rest k

/-- Writes `v` at `k`, keeping the canonical form: writing `d` removes the cell. -/
def writeCells [DecidableEq β] (d : β) : List (Nat × β) → Nat → β → List (Nat × β)
  | [], k, v => if v = d then [] else [(k, v)]
  | (i, w) :: rest, k, v =>
    if k < i then (if v = d then (i, w) :: rest else (k, v) :: (i, w) :: rest)
    else if k = i then (if v = d then rest else (k, v) :: rest)
    else (i, w) :: writeCells d rest k v

/-- The canonical form of a cell list. -/
def wfCells [DecidableEq β] (d : β) : List (Nat × β) → Bool
  | [] => true
  | (i, v) :: rest => decide (v ≠ d) && rest.all (fun c => decide (i < c.1)) && wfCells d rest

/-- The table with nothing listed. -/
def Table.empty : Table β := ⟨[]⟩

def Table.get (d : β) (t : Table β) (k : Nat) : β := readCells d t.cells k

def Table.set [DecidableEq β] (d : β) (t : Table β) (k : Nat) (v : β) : Table β :=
  ⟨writeCells d t.cells k v⟩

/-- The canonical form. -/
def Table.wf [DecidableEq β] (d : β) (t : Table β) : Bool := wfCells d t.cells

/-- Writes a run of values from number `k` on. -/
def Table.setRun [DecidableEq β] (d : β) (t : Table β) : Nat → List β → Table β
  | _, [] => t
  | k, v :: rest => Table.setRun d (t.set d k v) (k + 1) rest

/-- Reads a run of `n` values from number `k` on. -/
def Table.getRun (d : β) (t : Table β) (k : Nat) : Nat → List β
  | 0 => []
  | n + 1 => t.get d k :: Table.getRun d t (k + 1) n

end Sys2Proof.Machine
end

