-- ==== Sys2Proof/Machine/State.lean ====
section
/-! DEFINITION. The state of the part, block by block, as plain data; its values right after a full
reset; and the ways a step can stop. -/

namespace Sys2Proof.Machine

/-! ### Flags and Notices (chapter 10) -/

inductive HymnEvent where
  | started | ended | stopped
  deriving DecidableEq, Repr

/-- The mode of a verse (R90), in the order in which it is numbered on the link. -/
inductive Mode where
  | PLAY | SILENT | OMIT
  deriving DecidableEq, Repr

/-- The kind of a cued wait (R87). -/
inductive WaitKind where
  | fermata | gap | start
  deriving DecidableEq, Repr

inductive WaitOutcome where
  | void | waiting
  deriving DecidableEq, Repr

inductive Reader where
  | player | console
  deriving DecidableEq, Repr

/-- The outcome of an echo's judgement (R150). -/
inductive EchoOutcome where
  | GOOD | MISSING | WRONG_NUMBER | CHECK_BAD
  deriving DecidableEq, Repr

/-- The eighteen flags (R174). -/
inductive Flag where
  | HYMN | VERSE | WAIT | CHOIR_LOST | CHOIR_FOUND | TEMPO_LIMIT | FAULTY_STEP | ONSET_OVERRUN
  | ONSET_BACKLOG | SCHEDULE_FULL | KEYLINE_SLIP | KEYLINE_FAULT | KEYLINE_RESTORED | CIPHER
  | REG_LATE | RESERVATION_LOST | STORE_READY | INPUT_LOST
  deriving DecidableEq, Repr

/-- The kind fields of a raise (R174): the constructor says which flag is raised. -/
inductive Kind where
  | hymn (event : HymnEvent) (slot tune : Nat)
  | verse (sec registration : Nat) (mode : Mode)
  | wait (outcome : WaitOutcome) (kind : WaitKind) (resume : HymnPos)
  | choirLost (lastMatch : Time) (anchor : HymnPos)
  | choirFound (point : HymnPos) (onset : Time)
  | tempoLimit (upper : Bool) (period : Nat) (point : HymnPos)
  | faultyStep (slot step : Nat) (reader : Reader)
  | onsetOverrun (removed : Time)
  | onsetBacklog (fill : Nat)
  | scheduleFull (sec step needed free : Nat)
  | keylineSlip (frame : Time) (count : Nat) (division : Division) (key : Nat) (keyTime : Time)
  | keylineFault (number : Nat) (outcome : EchoOutcome) (boards : Option Nat)
  | keylineRestored (number : Nat) (boards : Option Nat)
  | cipher (division : Division) (key : Nat) (holders : List Voice) (frame : Time)
  | regLate (sec : Nat) (keyTime settle : Time)
  | reservationLost (verse : Nat)
  | storeReady
  | inputLost (channel : Channel)
  deriving DecidableEq, Repr

/-- A raise record (R174) and, with the flag its kind names, a notice record (R176). -/
structure Raise where
  time : Time
  kind : Kind
  deriving DecidableEq, Repr

/-- The Flag and Notice Unit (R174 to R176): raise records by flag number, a flag being up exactly
when its record is there. -/
structure Flags where
  raised : Table (Option Raise)
  global : Bool
  enables : BitVec 18
  queue : List Raise
  dropped : Bool
  deriving DecidableEq, Repr

/-! ### The Tune Store (chapter 1) -/

/-- The kind of a fermata (R9), in its order on the link. -/
inductive FermataKind where
  | TIMED | CUED
  deriving DecidableEq, Repr

structure Fermata where
  kind : FermataKind
  factor : Nat
  deriving DecidableEq, Repr

/-- A note of a good step (R9). -/
structure Note where
  voice : Voice
  pitch : Nat
  tieOn : Bool
  deriving DecidableEq, Repr

/-- A good step as the store gives it to a reader (R9, R17). -/
structure StepRec where
  position : Nat
  duration : Nat
  follow : Bool
  fermata : Option Fermata
  notes : List Note
  deriving DecidableEq, Repr

/-- An entry of the step pool: blank, a step's head with its note count and check value, or a note
(R6, R9). The fields are raw, since a disturbance may change them to anything (chapter 1). -/
inductive PoolEntry where
  | blank
  | head (position duration follow : Nat) (fermata : Option FermataFields) (count : Nat) (check : BitVec 16)
  | note (fields : NoteFields)
  deriving DecidableEq, Repr

/-- A header accepted by TUNE_BEGIN (R5). -/
structure Header where
  number : Nat
  beats : Nat
  nominal : Nat
  pmin : Nat
  pmax : Nat
  verseSteps : Nat
  amenSteps : Nat
  intro : Option (Nat × Nat)
  entries : Nat
  deriving DecidableEq, Repr

/-- Section end positions (R5, R10). -/
structure Ends where
  verse : Nat
  amen : Option Nat
  intro : Option Nat
  deriving DecidableEq, Repr

/-- The state of a slot that is not EMPTY (R4). -/
inductive SlotState where
  | LOADING | READY | PLAYING
  deriving DecidableEq, Repr

/-- What the store notes of a step as it writes it: its first pool entry (R9), its position and
duration (R15). -/
structure Written where
  entry : Nat
  position : Nat
  duration : Nat
  deriving DecidableEq, Repr

/-- A slot record (R5); an EMPTY slot has none. `written` lists the written steps in index order. -/
structure Slot where
  state : SlotState
  header : Header
  start : Nat
  stepsWritten : Nat
  entriesWritten : Nat
  lastPosition : Option Nat
  ends : Option Ends
  faultFirst : Option Nat
  faultMultiple : Bool
  written : List Written
  deriving DecidableEq, Repr

/-- The Tune Store. `clearEnd` is the time the clearing ends while the store is CLEARING (R22). -/
structure Store where
  slots : Table (Option Slot)
  freeRuns : List (Nat × Nat)
  pool : Table PoolEntry
  clearEnd : Option Time
  faultHeld : Option (Nat × Nat)
  faultMultiple : Bool
  deriving DecidableEq, Repr

/-! ### Divisions and registrations (chapter 2) -/

/-- A division record (R24). -/
structure DivisionRec where
  present : Bool
  lowest : Nat
  keyCount : Nat
  speech : Nat
  release : Nat
  acoustic : Nat
  leakTracking : Bool
  leakTail : Nat
  stopCount : Nat
  enclosed : Bool
  deriving DecidableEq, Repr

/-- The expression a registration holds for a division (R31). -/
inductive Expression where
  | level (n : Nat)
  | UNCHANGED
  deriving DecidableEq, Repr

/-- A registration record (R31). Routing none is SILENT; stops and expression are none for a
division that cannot take them. -/
structure Registration where
  first : Nat
  last : Nat
  repeats : Nat
  base : Nat
  routing : PerVoice (Option Division)
  stops : PerDivision (Option (BitVec 32))
  expression : PerDivision (Option Expression)
  lift : Nat
  deriving DecidableEq, Repr

structure Organ where
  divisions : PerDivision DivisionRec
  registrations : Table (Option Registration)
  deriving DecidableEq, Repr

/-! ### The Listening Unit (chapter 3) -/

/-- A channel's state and previous band levels (R39, R42). -/
structure ChannelState where
  present : Bool
  levels : Option (List Nat)
  deriving DecidableEq, Repr

/-- A measured hop: novelty, profile and the channels PRESENT at it (R42, R43). -/
structure Hop where
  novelty : Nat
  profile : List Nat
  onA : Bool
  onB : Bool
  deriving DecidableEq, Repr

/-- The class of an onset (R51). -/
inductive OnsetClass where
  | CHOIR | MIXED | LEAK
  deriving DecidableEq, Repr

/-- An onset record (R48). -/
structure Onset where
  time : Time
  strength : Nat
  profile : List Nat
  dominant : Nat
  share : Nat
  cls : OnsetClass
  onA : Bool
  onB : Bool
  deriving DecidableEq, Repr

/-- The Listening Unit (R39 to R58). `recent` holds the three novelties, the latest first. `analyses` is
the model's own: the number of hops analysed, which no reset takes back, so that the free values of two
analyses have nothing to do with each other (log 7). -/
structure Listen where
  a : ChannelState
  b : ChannelState
  hopBegan : Time
  recent : Nat × Nat × Nat
  candidate : Option Hop
  floor : Nat
  refractory : Nat
  queue : List Onset
  backlog : Bool
  analyses : Nat
  deriving DecidableEq, Repr

/-! ### The Beat Follower (chapter 4) -/

inductive FollowState where
  | OFF | LEAD | TRACK | COAST
  deriving DecidableEq, Repr

inductive WindowPhase where
  | PENDING | OPEN | DECIDING
  deriving DecidableEq, Repr

/-- A match window (R66, R67). `prevBefore` is the previous used follow point before the window was
made (R68). -/
structure MatchWindow where
  point : HymnPos
  index : Nat
  expected : Time
  halfWidth : Nat
  opens : Time
  closes : Time
  decides : Time
  phase : WindowPhase
  prevBefore : Option HymnPos
  deriving DecidableEq, Repr

/-- The period step of a decision record (R86). -/
inductive PeriodStep where
  | applied (us : Int)
  | SKIPPED
  deriving DecidableEq, Repr

/-- The last decision record (R86). `onset` is the matched onset, none on a miss. -/
structure Decision where
  point : HymnPos
  index : Nat
  time : Time
  late : Bool
  onset : Option Onset
  surplus : Nat
  stale : Nat
  error : Option Int
  phase : Int
  step : PeriodStep
  clamped : Bool
  after : FollowState
  deriving DecidableEq, Repr

/-- The Beat Follower (R60). -/
structure Follow where
  state : FollowState
  anchorTime : Time
  anchor : HymnPos
  period : Nat
  rebased : Bool
  matched : Nat
  missed : Nat
  lastMatch : Time
  lost : Bool
  window : Option MatchWindow
  cursor : HymnPos
  prevUsed : Option HymnPos
  lastClose : Option Time
  lastDecision : Option Decision
  deriving DecidableEq, Repr

/-! ### The Hymn Player (chapter 5) -/

inductive PlayerState where
  | IDLE | START_WAIT | INTRO | VERSE | FERMATA | GAP | AMEN | ENDING | STOPPING
  deriving DecidableEq, Repr

/-- A gap: its length in su and whether it is CUED (R90). -/
structure Gap where
  length : Nat
  cued : Bool
  deriving DecidableEq, Repr

/-- A plan entry (R90). Registration none is AUTO; `recorded` is the registration latched. -/
structure PlanEntry where
  verse : Nat
  mode : Mode
  registration : Option Nat
  transposition : Int
  gap : Gap
  latched : Bool
  recorded : Option Nat
  deriving DecidableEq, Repr

/-- The Verse Plan: the hymn options, the default transposition and one entry per verse (R89). -/
structure Plan where
  intro : Bool
  amen : Bool
  cued : Bool
  gap : Gap
  join : Bool
  transposition : Int
  entries : List PlanEntry
  deriving DecidableEq, Repr

/-- A voice channel: the division, none for SILENT, and the transposition (R30, R87). -/
structure VoiceChannel where
  division : Option Division
  transposition : Int
  deriving DecidableEq, Repr

/-- The successor of a step within its section, for ties (R117). -/
structure Successor where
  pos : Nat
  notes : List Note
  deriving DecidableEq, Repr

/-- A step of the Lookahead Window (R96). `next` and `run` are its successor and whether a faulty
run lies after it (R99); `release` is a fermata's decided release time and `released` whether its
key-ups are planned (R97, R104). -/
structure WindowStep where
  sec : Nat
  index : Nat
  pos : Nat
  dur : Nat
  follow : Bool
  fermata : Option Fermata
  notes : List Note
  next : Option Successor
  run : Bool
  planned : Bool
  release : Option Time
  released : Bool
  deriving DecidableEq, Repr

/-- The read-ahead step: a good step of the section, read and checked (R96, R99). -/
structure ReadAhead where
  sec : Nat
  index : Nat
  pos : Nat
  record : StepRec
  run : Bool
  deriving DecidableEq, Repr

/-- The fence (R98). -/
inductive Fence where
  | NONE
  | CLOSED
  | upTo (p : HymnPos)
  deriving DecidableEq, Repr

/-- The plan reservation (R93). -/
inductive Reservation where
  | NONE
  | HELD (verse : Nat)
  | LOST
  deriving DecidableEq, Repr

inductive WaitPhase where
  | MINIMUM | WAITING | BREATH
  deriving DecidableEq, Repr

/-- The wait record (R87, R107 to R109). `began` is the moment the BREATH began and `byOnset`
whether an onset began it (R109). -/
structure Wait where
  kind : WaitKind
  phase : WaitPhase
  resume : HymnPos
  minimumEnd : Time
  start : Time
  breathEnd : Time
  began : Time
  byOnset : Bool
  deriving DecidableEq, Repr

/-- The fermata record (R104). `back` is the rebased time of a TIMED fermata (R105). -/
structure FermataRecord where
  step : WindowStep
  kind : FermataKind
  sound : Time
  hold : Int
  back : Time
  deriving DecidableEq, Repr

/-- A gap being walked: the section that follows and, of a TIMED gap, its end (R101, R102). -/
structure GapRecord where
  next : Nat
  timedEnd : Option Time
  deriving DecidableEq, Repr

/-- A fermata's release request (R123): the section and step and the keys to release. -/
structure ReleaseRequest where
  sec : Nat
  index : Nat
  time : Time
  keys : List (Voice × Division × Nat)
  deriving DecidableEq, Repr

/-- The step planned last: its section and the notes it ties on (R120). -/
structure TiedStep where
  sec : Nat
  ties : List (Voice × Nat)
  deriving DecidableEq, Repr

/-- The Hymn Player (R87). -/
structure Player where
  state : PlayerState
  sec : Option Nat
  slot : Option Nat
  plan : Option Plan
  registration : Option (Nat × Registration)
  channels : PerVoice VoiceChannel
  window : List WindowStep
  readAhead : Option ReadAhead
  fence : Fence
  goLatch : Bool
  reservation : Reservation
  wait : Option Wait
  fermata : Option FermataRecord
  gap : Option GapRecord
  lastOutcome : Option WaitOutcome
  releases : List ReleaseRequest
  heldRelease : Option Nat
  tied : Option TiedStep
  deriving DecidableEq, Repr

/-! ### The Key Scheduler (chapter 6) -/

/-- The kind of a key event, in schedule order at equal key times (R116). -/
inductive KeyKind where
  | UP | RENEW | DOWN
  deriving DecidableEq, Repr

/-- How a key time is found (R115). -/
inductive Basis where
  | position (pos : Nat) (strike : Option Nat)
  | fixed
  deriving DecidableEq, Repr

/-- An event of the Key Schedule (R115). -/
structure KeyEvent where
  kind : KeyKind
  voice : Voice
  division : Division
  key : Nat
  sec : Nat
  step : Option Nat
  basis : Basis
  time : Time
  firm : Bool
  number : BitVec 32
  deriving DecidableEq, Repr

/-- The Key Scheduler (R115). -/
structure Schedule where
  events : List KeyEvent
  boundary : Time
  counter : BitVec 32
  deriving DecidableEq, Repr

/-! ### Sounding Map and Leak Mask (chapter 7) -/

/-- A key entry (R133). -/
structure KeyEntry where
  holders : List Voice
  deadline : Time
  deriving DecidableEq, Repr

/-- The Sounding Map (R133): key entries by `keyId`, stop states and expression by division. -/
structure SoundingMap where
  keys : Table KeyEntry
  stops : PerDivision (BitVec 32)
  expression : PerDivision Nat
  deriving DecidableEq, Repr

/-- A Leak Mask entry (R139). -/
structure LeakEntry where
  held : Nat
  tail : Time
  fresh : Time
  deriving DecidableEq, Repr

/-! ### The Keyline Controller (chapter 8) -/

inductive KeylineState where
  | OFF | SWEEP | RUNNING | FAULT
  deriving DecidableEq, Repr

/-- A target of the Keyline (chapter 8). -/
inductive Target where
  | keyGroup (d : Division) (group : Nat)
  | stopGroup (d : Division) (group : Nat)
  | expression (d : Division)
  deriving DecidableEq, Repr

/-- An entry of the Stop Queue (R155): eight stop states as a byte value, or a level. -/
structure StopEntry where
  target : Target
  value : Nat
  notBefore : Time
  deriving DecidableEq, Repr

/-- A received echo (R150). -/
structure Echo where
  number : Nat
  ok : Bool
  boards : Nat
  deriving DecidableEq, Repr

/-- The settle watch (R157). -/
structure Watch where
  sec : Nat
  settle : Time
  deriving DecidableEq, Repr

/-- The Keyline Controller (R148). `originFault` is the sweep origin FAULT, else RUNNING;
`lastFrame` is what the transmit pair sent last (R163). -/
structure Keyline where
  state : KeylineState
  interval : Nat
  pendingInterval : Option Nat
  nextStart : Option Time
  frameNumber : Nat
  awaited : Option Nat
  heldEcho : Option Echo
  errors : Nat
  goods : Nat
  lastOutcome : Option EchoOutcome
  lastBoards : Option Nat
  stopQueue : List StopEntry
  cursor : Nat
  carry : List (Division × Nat)
  sweep : List (Division × Nat)
  originFault : Bool
  watch : Option Watch
  slips : Nat
  lastFrame : List Byte
  deriving DecidableEq, Repr

/-! ### The Console Link Interface (chapter 9) -/

/-- What the interface finds in a request frame (R169). -/
inductive Parsed where
  | request (r : Request)
  | badKind
  | badLength
  deriving DecidableEq, Repr

/-- A queued request (R168). -/
structure Queued where
  kind : Byte
  tag : Byte
  content : Parsed
  deriving DecidableEq, Repr

/-- A reply: the kind with the reply mark, the tag and the body (R169). -/
structure Reply where
  kind : Byte
  tag : Byte
  body : List Byte
  deriving DecidableEq, Repr

/-- The reply in transmission: the bytes of its frame (R166), whether it answers the request in hand
(or is a BUSY reply), and whether its end brings the console reset (R168, R172). -/
structure Sending where
  frame : List Byte
  ofHand : Bool
  resets : Bool
  deriving DecidableEq, Repr

/-- The receive assembly (R167): the bytes after the start marker and the time of the last byte. -/
inductive Assembly where
  | HUNTING
  | ASSEMBLING (bytes : List Byte) (last : Time)
  deriving DecidableEq, Repr

inductive Discard where
  | none | LENGTH | CHECK | TIMEOUT | FRAMING | OVERRUN
  deriving DecidableEq, Repr

inductive ResetKind where
  | FULL | CONSOLE
  deriving DecidableEq, Repr

/-- The Console Link Interface (R165 to R172). -/
structure Link where
  rate : BitVec 2
  assembly : Assembly
  queue : List Queued
  inHand : Bool
  sending : Option Sending
  busy : List Reply
  errors : Nat
  lastDiscard : Discard
  lastReset : ResetKind
  deriving DecidableEq, Repr

/-! ### Parameters (chapter 11) -/

/-- The parameters of Table 11.1 but the frame interval, which the Keyline Controller holds. -/
structure Params where
  choirLag : Nat
  halfWidth : Nat
  phaseGain : Nat
  periodGain : Nat
  matchLimit : Nat
  lockCount : Nat
  missLimit : Nat
  lostAfter : Nat
  finishVerse : Bool
  horizon : Nat
  firmLead : Nat
  breath : Nat
  maxWait : Nat
  fermataCap : Nat
  introGap : Nat
  echoLimit : Nat
  recoverCount : Nat
  cipherLimit : Nat
  stopSettle : Nat
  enable : Bool
  margin : Nat
  refractory : Nat
  smin : Nat
  leakLimit : Nat
  acceptMixed : Bool
  rejectSet : BitVec 12
  critical : Nat
  deriving DecidableEq, Repr

/-! ### The part -/

/-- The state of the part, with the queue of the commands that wait. -/
structure State where
  pending : List Instr
  now : Time
  heldInReset : Bool
  link : Link
  params : Params
  store : Store
  organ : Organ
  listen : Listen
  follow : Follow
  player : Player
  keys : Schedule
  map : SoundingMap
  leak : Table LeakEntry
  keyline : Keyline
  flags : Flags
  deriving DecidableEq, Repr

/-- No event of the manual stops the part, so no meaning of this model faults (log 35): there is no
reason to raise. -/
inductive Fault where
  deriving DecidableEq, Repr

/-- Why a command could be refused by the model. -/
inductive Refusal where
  /-- Raised by an arm of `exec` whose command has no meaning yet; safe: nothing is claimed of it. -/
  | notModelled (mnemonic : String)
  deriving DecidableEq, Repr

/-! ### The values after a full reset -/

/-- Blank entries of the sparse tables: what an unlisted number reads as. -/
def noKey : KeyEntry := ⟨[], 0#32⟩
def noLeak : LeakEntry := ⟨0, 0#32, 0#32⟩

/-- R24, last column. -/
def divisionAfterReset : DivisionRec :=
  { present := false, lowest := 36, keyCount := 61, speech := 0, release := 0, acoustic := 0,
    leakTracking := false, leakTail := 0, stopCount := 0, enclosed := false }

/-- R180, Table 11.1, defaults. -/
def paramDefaults : Params :=
  { choirLag := 800, halfWidth := 1500, phaseGain := 96, periodGain := 64, matchLimit := 40,
    lockCount := 2, missLimit := 3, lostAfter := 80000, finishVerse := false, horizon := 384,
    firmLead := 300, breath := 2500, maxWait := 200000, fermataCap := 80000, introGap := 192,
    echoLimit := 3, recoverCount := 2, cipherLimit := 120000, stopSettle := 1500, enable := false,
    margin := 24, refractory := 8, smin := 16, leakLimit := 160, acceptMixed := true,
    rejectSet := 0#12, critical := 24 }

/-- R174 to R176: flags down, enables off, queue empty. -/
def flagsAfterReset : Flags :=
  { raised := ⟨[]⟩, global := false, enables := 0#18, queue := [], dropped := false }

/-- R58, with the new hop begun at `now`. -/
def listenAfterReset (now : Time) (analyses : Nat) : Listen :=
  { a := ⟨true, none⟩, b := ⟨true, none⟩, hopBegan := now, recent := (0, 0, 0), candidate := none,
    floor := 0, refractory := 0, queue := [], backlog := false, analyses := analyses }

/-- R60, last column. -/
def followAfterReset : Follow :=
  { state := .OFF, anchorTime := 0#32, anchor := ⟨0, 0⟩, period := 600000, rebased := false,
    matched := 0, missed := 0, lastMatch := 0#32, lost := false, window := none, cursor := ⟨0, 0⟩,
    prevUsed := none, lastClose := none, lastDecision := none }

/-- R87, last column. -/
def playerAfterReset : Player :=
  { state := .IDLE, sec := none, slot := none, plan := none, registration := none,
    channels := ⟨⟨none, 0⟩, ⟨none, 0⟩, ⟨none, 0⟩, ⟨none, 0⟩, ⟨none, 0⟩, ⟨none, 0⟩⟩,
    window := [], readAhead := none, fence := .NONE, goLatch := false, reservation := .NONE,
    wait := none, fermata := none, gap := none, lastOutcome := none, releases := [],
    heldRelease := none, tied := none }

/-- R115. -/
def keysAfterReset : Schedule := ⟨[], 0#32, 0#32⟩

/-- R133. -/
def mapAfterReset : SoundingMap :=
  { keys := ⟨[]⟩, stops := ⟨0#32, 0#32, 0#32, 0#32, 0#32⟩, expression := ⟨0, 0, 0, 0, 0⟩ }

/-- R148. The table gives the sweep list and the sweep origin one reset value, empty; an origin of RUNNING
(`originFault` false) is the model's choice (DESIGN CHOICE, log 47). -/
def keylineAfterReset : Keyline :=
  { state := .OFF, interval := 20, pendingInterval := none, nextStart := none, frameNumber := 0,
    awaited := none, heldEcho := none, errors := 0, goods := 0, lastOutcome := none,
    lastBoards := none, stopQueue := [], cursor := 0, carry := [], sweep := [],
    originFault := false, watch := none, slips := 0, lastFrame := [] }

/-- R22: at the entry to CLEARING, the clearing ending 250 units after `now`. The whole pool is blank from
that moment on; R22 does not say when within the 250 units each entry is blanked (DESIGN CHOICE,
log 45). -/
def storeClearing (now : Time) : Store :=
  { slots := ⟨[]⟩, freeRuns := [(0, Config.poolEntries)], pool := ⟨[]⟩,
    clearEnd := some (now + BitVec.ofNat 32 Config.clearingUnits), faultHeld := none,
    faultMultiple := false }

/-- R24, R31: no division present, every registration absent. -/
def organAfterReset : Organ :=
  { divisions := ⟨divisionAfterReset, divisionAfterReset, divisionAfterReset, divisionAfterReset,
      divisionAfterReset⟩,
    registrations := ⟨[]⟩ }

/-- R167, R168, R172, with the rate read from the straps. -/
def linkAfterReset (straps : BitVec 2) : Link :=
  { rate := straps, assembly := .HUNTING, queue := [], inHand := false, sending := none, busy := [],
    errors := 0, lastDiscard := .none, lastReset := .FULL }

/-- The part at the moment a full reset with the given straps takes effect (R185), `analyses` hops having
been analysed before (log 7). -/
def afterFullReset (straps : BitVec 2) (analyses : Nat) : State :=
  { pending := [], now := 0#32, heldInReset := false, link := linkAfterReset straps,
    params := paramDefaults, store := storeClearing 0#32, organ := organAfterReset,
    listen := listenAfterReset 0#32 analyses, follow := followAfterReset, player := playerAfterReset,
    keys := keysAfterReset, map := mapAfterReset, leak := ⟨[]⟩, keyline := keylineAfterReset,
    flags := flagsAfterReset }

/-- The part right after a full reset, both straps low (DESIGN CHOICE, log 5), no hop analysed before
(DESIGN CHOICE, log 7). -/
def State.reset : State := afterFullReset 0#2 0

end Sys2Proof.Machine
end

