-- ==== Sys2Proof/Machine/Parse.lean ====
section
/-! DEFINITION. Reading a request's fields from its body (R169, R170). -/

namespace Sys2Proof.Machine

/-- A reader takes what it reads from the front of the bytes, or finds them too short. -/
abbrev FieldReader (α : Type) := List Byte → Option (α × List Byte)

def readDone {α : Type} (a : α) : FieldReader α := fun bs => some (a, bs)

def readThen {α β : Type} (p : FieldReader α) (f : α → FieldReader β) : FieldReader β := fun bs =>
  match p bs with
  | some (a, rest) => f a rest
  | none => none

/-- One, two, three and four bytes, low byte first (R170). -/
def read8 : FieldReader Nat
  | a :: rest => some (a.toNat, rest)
  | [] => none

def read16 : FieldReader Nat := readThen read8 fun a => readThen read8 fun b => readDone (a + 256 * b)
def read24 : FieldReader Nat := readThen read16 fun a => readThen read8 fun b => readDone (a + 65536 * b)
def read32 : FieldReader Nat := readThen read16 fun a => readThen read16 fun b => readDone (a + 65536 * b)

/-- Two's complement of one and of four bytes (R170). -/
def readI8 : FieldReader Int := readThen read8 fun a => readDone (BitVec.ofNat 8 a).toInt
def readI32 : FieldReader Int := readThen read32 fun a => readDone (BitVec.ofNat 32 a).toInt

/-- An optional field; a presence byte outside its values has no field after it (log 8). -/
def readWire {α : Type} (p : FieldReader α) : FieldReader (Wire α) :=
  readThen read8 fun n =>
    match n with
    | 0 => readDone .absent
    | 1 => readThen p fun a => readDone (.present a)
    | m => readDone (.invalid m)

/-- `n` entries. -/
def readMany {α : Type} (p : FieldReader α) : Nat → FieldReader (List α)
  | 0 => readDone []
  | n + 1 => readThen p fun a => readThen (readMany p n) fun rest => readDone (a :: rest)

/-- A list: one count byte and that many entries (R170). -/
def readList {α : Type} (p : FieldReader α) : FieldReader (List α) := readThen read8 fun n => readMany p n

def readVoices {α : Type} (p : FieldReader α) : FieldReader (PerVoice α) :=
  readThen p fun s => readThen p fun a => readThen p fun t => readThen p fun b =>
    readThen p fun q => readThen p fun d => readDone ⟨s, a, t, b, q, d⟩

def readDivisions {α : Type} (p : FieldReader α) : FieldReader (PerDivision α) :=
  readThen p fun a => readThen p fun b => readThen p fun c => readThen p fun d =>
    readThen p fun e => readDone ⟨a, b, c, d, e⟩

/-- R24's order. -/
def readDivision : FieldReader DivisionFields :=
  readThen read8 fun present => readThen read8 fun lowest => readThen read8 fun keyCount =>
  readThen read16 fun speech => readThen read16 fun release => readThen read16 fun acoustic =>
  readThen read8 fun leakTracking => readThen read16 fun leakTail => readThen read8 fun stopCount =>
  readThen read8 fun enclosed =>
    readDone ⟨present, lowest, keyCount, speech, release, acoustic, leakTracking, leakTail, stopCount,
      enclosed⟩

/-- R31's order, with 32 stop states and an expression for each division (R33). -/
def readRegistration : FieldReader RegistrationFields :=
  readThen read8 fun first => readThen read8 fun last => readThen read8 fun repeats =>
  readThen read8 fun base => readThen (readVoices read8) fun routing =>
  readThen (readDivisions (readMany read8 32)) fun stops =>
  readThen (readDivisions read8) fun expression => readThen read8 fun lift =>
    readDone ⟨first, last, repeats, base, routing, stops, expression, lift⟩

def readRange : FieldReader RangeFields :=
  readThen read16 fun first => readThen read16 fun last => readDone ⟨first, last⟩

/-- R5's order. -/
def readHeader : FieldReader HeaderFields :=
  readThen read16 fun number => readThen read8 fun beats => readThen read32 fun nominal =>
  readThen read32 fun pmin => readThen read32 fun pmax => readThen read16 fun verseSteps =>
  readThen read8 fun amenSteps => readThen (readWire readRange) fun intro =>
  readThen read16 fun entries =>
    readDone ⟨number, beats, nominal, pmin, pmax, verseSteps, amenSteps, intro, entries⟩

def readNote : FieldReader NoteFields :=
  readThen read8 fun voice => readThen read8 fun pitch => readThen read8 fun tieOn =>
    readDone ⟨voice, pitch, tieOn⟩

def readFermata : FieldReader FermataFields :=
  readThen read8 fun kind => readThen read8 fun factor => readDone ⟨kind, factor⟩

/-- R9's order. -/
def readStepFields : FieldReader StepFields :=
  readThen read16 fun position => readThen read16 fun duration => readThen read8 fun follow =>
  readThen (readWire readFermata) fun fermata => readThen (readList readNote) fun notes =>
    readDone ⟨position, duration, follow, fermata, notes⟩

/-- R88's order of an override's fields. -/
def readOverride : FieldReader EntryFields :=
  readThen read8 fun verse => readThen read8 fun mode => readThen readI8 fun transposition =>
  readThen read16 fun gapLength => readThen read8 fun gapKind => readThen read8 fun registration =>
    readDone ⟨verse, mode, registration, transposition, gapLength, gapKind⟩

/-- R90's order of a plan entry's fields. -/
def readEntryFields : FieldReader EntryFields :=
  readThen read8 fun verse => readThen read8 fun mode => readThen read8 fun registration =>
  readThen readI8 fun transposition => readThen read16 fun gapLength => readThen read8 fun gapKind =>
    readDone ⟨verse, mode, registration, transposition, gapLength, gapKind⟩

/-- R88's order. -/
def readStart : FieldReader StartFields :=
  readThen read8 fun slot => readThen read8 fun verseCount => readThen read8 fun intro =>
  readThen read8 fun amen => readThen read8 fun startKind => readThen read16 fun gapLength =>
  readThen read8 fun gapKind => readThen read8 fun join => readThen readI8 fun transposition =>
  readThen (readList readOverride) fun overrides =>
    readDone ⟨slot, verseCount, intro, amen, startKind, gapLength, gapKind, join, transposition,
      overrides⟩

/-- R94's order. -/
def readAmend : FieldReader AmendFields :=
  readThen (readList readEntryFields) fun entries => readThen (readWire read8) fun verseCount =>
  readThen (readWire read8) fun amen => readDone ⟨entries, verseCount, amen⟩

/-- The reader of the request of a kind, none for an unknown kind (9.5). -/
def requestReader : Nat → Option (FieldReader Request)
  | 0x01 => some (readDone .identify)
  | 0x02 => some (readDone .getStatus)
  | 0x03 => some (readDone .getFollow)
  | 0x04 => some (readThen read8 fun n => readThen readI32 fun v => readDone (.setParam n v))
  | 0x05 => some (readThen read8 fun n => readDone (.getParam n))
  | 0x06 => some (readThen read8 fun d => readThen readDivision fun f => readDone (.setDivision d f))
  | 0x07 => some (readThen read8 fun d => readDone (.getDivision d))
  | 0x08 => some (readThen read8 fun i => readThen (readWire readRegistration) fun r =>
      readDone (.setRegistration i r))
  | 0x09 => some (readThen read8 fun i => readDone (.getRegistration i))
  | 0x0A => some (readThen read8 fun n => readThen readHeader fun h => readDone (.tuneBegin n h))
  | 0x0B => some (readThen read8 fun n => readThen read16 fun i => readThen (readList readStepFields)
      fun l => readDone (.tuneSteps n i l))
  | 0x0C => some (readThen read8 fun n => readDone (.tuneEnd n))
  | 0x0D => some (readThen read8 fun n => readDone (.tuneErase n))
  | 0x0E => some (readThen read8 fun n => readThen read16 fun i => readThen read8 fun c =>
      readDone (.tuneRead n i c))
  | 0x0F => some (readThen read8 fun n => readDone (.getDirectory n))
  | 0x10 => some (readDone .clearStore)
  | 0x11 => some (readThen readStart fun f => readDone (.startHymn f))
  | 0x12 => some (readDone .go)
  | 0x13 => some (readThen read8 fun m => readThen read8 fun a => readDone (.stopHymn m a))
  | 0x14 => some (readDone .allOff)
  | 0x15 => some (readDone .reservePlan)
  | 0x16 => some (readThen readAmend fun f => readDone (.amendPlan f))
  | 0x17 => some (readDone .getPlan)
  | 0x18 => some (readThen read8 fun g => readThen read24 fun e => readDone (.setNotices g e))
  | 0x19 => some (readDone .fetchNotices)
  | 0x1A => some (readThen read24 fun f => readDone (.ackFlags f))
  | 0x1B => some (readDone .reset)
  | _ => none

/-- R169: the interface's two tests of a request frame. -/
def parseRequest (kind : Byte) (body : List Byte) : Parsed :=
  match requestReader kind.toNat with
  | none => .badKind
  | some p =>
    match p body with
    | some (r, []) => .request r
    | _ => .badLength

end Sys2Proof.Machine
end

