-- ==== Sys2Proof/Machine/Arith.lean ====
section
/-! DEFINITION. Arithmetic of the manual: rounding, clamping, service times, and the 16-bit check. -/

namespace Sys2Proof.Machine

/-- Round half up of `a / b` for positive `b` (R3 and "Round"). -/
def roundDiv (a : Int) (b : Nat) : Int := (2 * a + b) / (2 * (b : Int))

/-- A value clamped into [lo, hi]. -/
def clampNat (lo hi v : Nat) : Nat := if v < lo then lo else if hi < v then hi else v

def clampInt (lo hi v : Int) : Int := if v < lo then lo else if hi < v then hi else v

/-- A value limited to ±l. -/
def limitInt (l v : Int) : Int := clampInt (-l) l v

/-- The signed difference a − b of two service times (R1). -/
def timeDiff (a b : Time) : Int := (a - b).toInt

/-- `a` is later than `b` (R1). -/
def later (a b : Time) : Bool := decide (0 < timeDiff a b)

/-- `a` is at or before `b`: the time `a` has arrived when it is `b` now. -/
def arrived (a b : Time) : Bool := decide (timeDiff a b ≤ 0)

/-- The service time `n` units after `t`, modulo 2^32. -/
def timePlus (t : Time) (n : Int) : Time := t + BitVec.ofInt 32 n

/-- The later of two service times. -/
def timeMax (a b : Time) : Time := if later b a then b else a

/-- The earlier of two service times. -/
def timeMin (a b : Time) : Time := if later a b then b else a

/-- One bit step of the check register, generator x^16 + x^12 + x^5 + 1 (R166). -/
def crcShift (r : BitVec 16) : BitVec 16 :=
  if r.getLsbD 15 then (r <<< 1) ^^^ 0x1021#16 else r <<< 1

def crcShifts : Nat → BitVec 16 → BitVec 16
  | 0, r => r
  | n + 1, r => crcShifts n (crcShift r)

/-- One byte fed into the check register, most significant bit first (R166). -/
def crcByte (r : BitVec 16) (b : Byte) : BitVec 16 := crcShifts 8 (r ^^^ (b.setWidth 16 <<< 8))

/-- The check over a run of bytes: the register starts at 0xFFFF, no final inversion (R166). -/
def check (bs : List Byte) : BitVec 16 := bs.foldl crcByte 0xFFFF#16

/-- The check's two bytes, low byte first. -/
def checkBytes (bs : List Byte) : List Byte :=
  [(check bs).setWidth 8, ((check bs) >>> 8).setWidth 8]

/-- ceil(a / b) for positive `b`. -/
def ceilDiv (a b : Nat) : Nat := (a + b - 1) / b

end Sys2Proof.Machine
end

