-- ==== Sys2Proof/Machine/Flags.lean ====
section
/-! DEFINITION. The Flag and Notice Unit: raising flags, offering notices, the attention line
(chapter 10). -/

namespace Sys2Proof.Machine

/-- The number of a flag (R174). -/
def flagNumber : Flag → Nat
  | .HYMN => 1
  | .VERSE => 2
  | .WAIT => 3
  | .CHOIR_LOST => 4
  | .CHOIR_FOUND => 5
  | .TEMPO_LIMIT => 6
  | .FAULTY_STEP => 7
  | .ONSET_OVERRUN => 8
  | .ONSET_BACKLOG => 9
  | .SCHEDULE_FULL => 10
  | .KEYLINE_SLIP => 11
  | .KEYLINE_FAULT => 12
  | .KEYLINE_RESTORED => 13
  | .CIPHER => 14
  | .REG_LATE => 15
  | .RESERVATION_LOST => 16
  | .STORE_READY => 17
  | .INPUT_LOST => 18

/-- The flags in flag-number order. -/
def allFlags : List Flag :=
  [.HYMN, .VERSE, .WAIT, .CHOIR_LOST, .CHOIR_FOUND, .TEMPO_LIMIT, .FAULTY_STEP, .ONSET_OVERRUN,
   .ONSET_BACKLOG, .SCHEDULE_FULL, .KEYLINE_SLIP, .KEYLINE_FAULT, .KEYLINE_RESTORED, .CIPHER,
   .REG_LATE, .RESERVATION_LOST, .STORE_READY, .INPUT_LOST]

/-- The flag whose kind fields these are (R174). -/
def flagOf : Kind → Flag
  | .hymn .. => .HYMN
  | .verse .. => .VERSE
  | .wait .. => .WAIT
  | .choirLost .. => .CHOIR_LOST
  | .choirFound .. => .CHOIR_FOUND
  | .tempoLimit .. => .TEMPO_LIMIT
  | .faultyStep .. => .FAULTY_STEP
  | .onsetOverrun .. => .ONSET_OVERRUN
  | .onsetBacklog .. => .ONSET_BACKLOG
  | .scheduleFull .. => .SCHEDULE_FULL
  | .keylineSlip .. => .KEYLINE_SLIP
  | .keylineFault .. => .KEYLINE_FAULT
  | .keylineRestored .. => .KEYLINE_RESTORED
  | .cipher .. => .CIPHER
  | .regLate .. => .REG_LATE
  | .reservationLost .. => .RESERVATION_LOST
  | .storeReady => .STORE_READY
  | .inputLost .. => .INPUT_LOST

/-- The raise record of a flag, none while it is down (R174). -/
def raiseRecord (f : Flags) (g : Flag) : Option Raise := f.raised.get none (flagNumber g)

def flagUp (f : Flags) (g : Flag) : Bool := (raiseRecord f g).isSome

/-- A flag's own notice enable (R175); bit n − 1 of the set is flag n. -/
def ownEnable (f : Flags) (g : Flag) : Bool := f.enables.getLsbD (flagNumber g - 1)

/-- A flag's notices are enabled while both its enable and the global one are on (R175). -/
def noticesEnabled (f : Flags) (g : Flag) : Bool := f.global && ownEnable f g

/-- R176: a notice joins the queue, or is dropped when the queue is full. -/
def offerNotice (f : Flags) (r : Raise) : Flags :=
  if f.queue.length < Config.noticePlaces then { f with queue := f.queue ++ [r] }
  else { f with dropped := true }

/-- R174: a raise of a flag that is down is a rise, which writes the raise record and offers a
notice when enabled; a raise of a flag that is up has no effect. -/
def raiseFlags (now : Time) (k : Kind) (f : Flags) : Flags :=
  if flagUp f (flagOf k) then f
  else
    let up := { f with raised := f.raised.set none (flagNumber (flagOf k)) (some ⟨now, k⟩) }
    if noticesEnabled up (flagOf k) then offerNotice up ⟨now, k⟩ else up

/-- A block raises a flag at service time now. -/
def raise (k : Kind) (s : State) : State := { s with flags := raiseFlags s.now k s.flags }

/-- R178: a flag is put down and its raise record discarded. -/
def lowerFlag (g : Flag) (f : Flags) : Flags :=
  { f with raised := f.raised.set none (flagNumber g) none }

/-- The set of flags that are up, flag n at bit n − 1 (R174). -/
def upSet (f : Flags) : Nat :=
  allFlags.foldl (fun acc g => if flagUp f g then acc + 2 ^ (flagNumber g - 1) else acc) 0

/-- R175: each up flag whose notices were not enabled and now are offers one notice, in flag
order. -/
def enableNotices (global : Bool) (enables : BitVec 18) (f : Flags) : Flags :=
  let g := { f with global := global, enables := enables }
  allFlags.foldl
    (fun acc x =>
      match raiseRecord f x with
      | some r => if !noticesEnabled f x && noticesEnabled g x then offerNotice acc r else acc
      | none => acc)
    g

/-- R177: up to four of the oldest notices are taken; an empty queue clears notices-dropped. -/
def fetchFlags (f : Flags) : Flags :=
  let rest := f.queue.drop Config.fetchCount
  { f with queue := rest, dropped := f.dropped && !rest.isEmpty }

/-- The attention line (R176, R185): asserted exactly while the Notice Queue is not empty, and
released while the part is held in reset. -/
def attention (s : State) : Bool := !s.heldInReset && !s.flags.queue.isEmpty

end Sys2Proof.Machine
end

