-- ==== Sys2Proof/Machine/Ops.lean ====
section
/-! DEFINITION. The clock, the plain reads shared by the blocks, and what a transmit line gives. -/

namespace Sys2Proof.Machine

/-- `dt` units of service time pass (R1). -/
def elapse (dt : Nat) (s : State) : State := { s with now := s.now + BitVec.ofNat 32 dt }

/-- A command taken `dt` units later. While the part is held in reset service time does not count
and nothing but the reset's end is taken (R185). -/
def onService (dt : Nat) (f : State → State) (s : State) : Host.Outcome State Fault Refusal :=
  if s.heldInReset then .next s else .next (f (elapse dt s))

/-- The service time `t` has arrived (R1). -/
def due (s : State) (t : Time) : Bool := arrived t s.now

/-- The record of a division. -/
def divRec (o : Organ) (d : Division) : DivisionRec := divGet o.divisions d

/-- Number of a key entry: 64 key numbers for each division, by division (R133). -/
def keyId (d : Division) (k : Nat) : Nat := 64 * divisionNumber d + k

/-- The division and key number of a key entry. -/
def keyOfId (n : Nat) : Division × Nat := ((divisionOf (n / 64)).getD .d1, n % 64)

def keyEntry (m : SoundingMap) (d : Division) (k : Nat) : KeyEntry := m.keys.get noKey (keyId d k)

/-- A key is down exactly when its holder set is not empty (R133). -/
def keyDown (m : SoundingMap) (d : Division) (k : Nat) : Bool := !(keyEntry m d k).holders.isEmpty

/-- The keys that are down, in order of division and key number, with their entries. -/
def downKeys (m : SoundingMap) : List (Division × Nat × KeyEntry) :=
  (m.keys.cells.filter (fun c => !c.2.holders.isEmpty)).map
    (fun c => ((keyOfId c.1).1, (keyOfId c.1).2, c.2))

/-- Whether any key is down. -/
def anyDown (m : SoundingMap) : Bool := m.keys.cells.any (fun c => !c.2.holders.isEmpty)

def leakEntry (l : Table LeakEntry) (c : Nat) : LeakEntry := l.get noLeak c

/-- The pitch class of a key (R139). -/
def keyClass (o : Organ) (d : Division) (k : Nat) : Nat := ((divRec o d).lowest + k) % 12

/-- The slot record of slot `n`, none while it is EMPTY (R4). -/
def slotRec (st : Store) (n : Nat) : Option Slot := st.slots.get none n

/-- The header of the slot that the Player walks (R18). -/
def playingHeader (s : State) : Option Header :=
  match s.player.slot with
  | some n => (slotRec s.store n).map (·.header)
  | none => none

/-! ### The lines out of the part (R163, R165, R185) -/

/-- The level of a stop bit, high: R165 reads a stop bit found low as an error. -/
def stopLevel : Bool := true

/-- What one of the part's transmit lines gives: a steady level, or what is sent on it. -/
inductive LineOutput (α : Type) where
  | idle (level : Bool)
  | carries (sent : List α)
  deriving DecidableEq, Repr

/-- A transmit line while `x` is on it. A line with nothing on it is idle at the level of a stop bit, and
while the part is held in reset every transmit line is held so (R185). That a line outside reset idles at
that level too is the model's reading (DEDUCED, log 6). -/
def lineOutput {α : Type} (s : State) (x : Option (List α)) : LineOutput α :=
  match s.heldInReset, x with
  | false, some sent => .carries sent
  | _, _ => .idle stopLevel

end Sys2Proof.Machine
end

