-- ==== Sys2Proof/Machine/Listen.lean ====
section
/-! DEFINITION. The Listening Unit: channels, hops, the onset test, classification against the Leak
Mask, and the Onset Queue with its backlog (chapter 3). -/

namespace Sys2Proof.Machine

/-! ### Taking samples (R38) -/

/-- The number that data bits spell, the most significant first. -/
def bitsValue (bits : List Bool) : Nat := bits.foldl (fun n b => 2 * n + b.toNat) 0

/-- R38: the sample of a word-clock period: the 16 data bits of its low half, in two's complement. What
is sent while the word clock is high is ignored. -/
def sampleOf (p : WordPeriod) : Int := (BitVec.ofNat 16 (bitsValue p.low)).toInt

/-- R38: the samples of an input, one per word-clock period. -/
def samplesOf (i : HopInput) : List Int := i.periods.map sampleOf

/-- The number by which the analysis knows a channel. -/
def channelIndex : Channel → Nat
  | .A => 0
  | .B => 1

/-! ### Measuring a hop (R41 to R43) -/

/-- The channel that paces the hops, none while the hop timer does (R40). -/
def pacing (l : Listen) : Option Channel :=
  if l.a.present then some .A else if l.b.present then some .B else none

/-- R42: the sum over the bands of max(0, level − previous level), 0 without previous levels. -/
def channelNovelty (prev : Option (List Nat)) (levels : List Nat) : Nat :=
  match prev with
  | none => 0
  | some p => ((levels.zip p).map (fun c => c.1 - c.2)).sum

/-- R41: the level of a band of energy `e`: the number of whole steps of 0.375 dB, 255 at most, by which
it lies above 96 dB under a full-scale sine. Step `n` is reached where e is at least full scale ×
10^(0.0375 n − 9.6), which is said here of the 80th powers. -/
def bandLevel (e : Nat) : Nat :=
  ((List.range 255).filter
    (fun j => decide (Config.fullScaleEnergy ^ 80 ≤ 10 ^ (765 - 3 * j) * e ^ 80))).length

/-- The band levels (R41) of `samples` of channel `c`, in the analysis numbered `n`. -/
def bandLevels (n : Nat) (c : Channel) (samples : List Int) : List Nat :=
  (List.range 6).map (fun j => bandLevel (Config.bandEnergy n (channelIndex c) samples j))

/-- Channel `c` at a hop's completion (R39, R42): its state after, and its novelty. A LOST channel
whose word clock ran throughout returns with novelty 0. -/
def channelAtHop (n : Nat) (c : Channel) (x : ChannelState) (i : HopInput) : ChannelState × Nat :=
  let levels := bandLevels n c (samplesOf i)
  if x.present then (⟨true, some levels⟩, channelNovelty x.levels levels)
  else if i.clockRan then (⟨true, some levels⟩, 0)
  else (x, 0)

/-- R43: the level of a class of energy `ec` beside the greatest energy `emax`: 15 less the whole
number of 3 dB steps between them, and not below 0. A step of 3 dB is a factor of 10^0.3. -/
def classLevel (emax ec : Nat) : Nat :=
  15 - ((List.range 15).filter (fun j => decide (10 ^ (3 * (j + 1)) * ec ^ 10 ≤ emax ^ 10))).length

/-- At or below 84 dB under a full-scale sine (R43). -/
def quiet (emax : Nat) : Bool := decide (10 ^ 42 * emax ^ 5 ≤ Config.fullScaleEnergy ^ 5)

/-- The energy of pitch class `j` in what channel `c` carried, in the analysis numbered `n`. -/
def energyOf (n : Nat) (c : Channel) (i : HopInput) (j : Nat) : Nat :=
  Config.classEnergy n (channelIndex c) (samplesOf i) j

/-- Energy of each pitch class summed over the PRESENT channels (R43), in the analysis numbered `n`. -/
def classEnergies (n : Nat) (onA onB : Bool) (a b : HopInput) : List Nat :=
  (List.range 12).map (fun j =>
    (if onA then energyOf n .A a j else 0) + (if onB then energyOf n .B b j else 0))

/-- R43: the pitch-class profile of the hop. -/
def profileOf (energies : List Nat) : List Nat :=
  let emax := energies.foldl max 0
  if quiet emax then energies.map (fun _ => 0) else energies.map (classLevel emax)

/-- R43: the class with the highest level, the lowest number among equals. -/
def dominantClass (profile : List Nat) : Nat :=
  (profile.findIdx? (fun l => l == profile.foldl max 0)).getD 0

/-- The hop just completed, measured, and the channels after it. -/
def measureHop (l : Listen) (a b : HopInput) : Hop × ChannelState × ChannelState :=
  let ra := channelAtHop l.analyses .A l.a a
  let rb := channelAtHop l.analyses .B l.b b
  (⟨ra.2 + rb.2, profileOf (classEnergies l.analyses ra.1.present rb.1.present a b), ra.1.present,
      rb.1.present⟩,
    ra.1, rb.1)

/-! ### Declaring an onset (R44 to R48) -/

/-- The effective margin (R45). -/
def effectiveMargin (p : Params) (l : Listen) : Nat := if l.backlog then 2 * p.margin else p.margin

/-- R46: whether candidate hop `c` is declared, `next` being the novelty of the hop after it. -/
def declares (p : Params) (l : Listen) (c : Hop) (next : Nat) : Bool :=
  decide (l.floor + effectiveMargin p l ≤ c.novelty) && decide (l.recent.2.1 ≤ c.novelty)
    && decide (next < c.novelty) && decide (l.refractory = 0)

/-- R44: the floor moved one sixteenth of the way toward `n`, rounded toward minus infinity. -/
def moveFloor (floor n : Nat) : Nat := ((floor : Int) + ((n : Int) - floor) / 16).toNat

/-- R47: the refractory deadline after a test. -/
def nextRefractory (p : Params) (l : Listen) (declared : Bool) : Nat :=
  if declared then p.refractory - 1 else l.refractory - 1

/-! ### Classification (R49 to R51) -/

/-- R49: a Leak Mask deadline is later than the onset's time. -/
def leakLater (deadline t : Time) : Bool :=
  decide (1 ≤ timeDiff deadline t) && decide (timeDiff deadline t ≤ Config.leakReach)

def masked (l : Table LeakEntry) (t : Time) (c : Nat) : Bool :=
  decide (0 < (leakEntry l c).held) || leakLater (leakEntry l c).tail t

def freshClass (l : Table LeakEntry) (t : Time) (c : Nat) : Bool := leakLater (leakEntry l c).fresh t

/-- R50: the leak share. -/
def leakShare (l : Table LeakEntry) (t : Time) (profile : List Nat) : Nat :=
  let part := ((List.range 12).map (fun c => if masked l t c then profile.getD c 0 else 0)).sum
  if profile.sum = 0 then 0 else 255 * part / profile.sum

/-- R51: the class. -/
def onsetClass (limit : Nat) (freshDominant : Bool) (share : Nat) : OnsetClass :=
  if freshDominant ∨ limit ≤ share then .LEAK else if limit / 2 ≤ share then .MIXED else .CHOIR

/-- R48 to R51: the onset record of candidate `c` declared now. -/
def onsetOf (s : State) (c : Hop) : Onset :=
  let t := timePlus s.now (-(Config.onsetDelay : Int))
  let dom := dominantClass c.profile
  let share := leakShare s.leak t c.profile
  { time := t, strength := min 255 (c.novelty - s.listen.floor), profile := c.profile, dominant := dom,
    share := share, cls := onsetClass s.params.leakLimit (freshClass s.leak t dom) share,
    onA := c.onA, onB := c.onB }

/-- The detector at a hop completion (R40 to R47): the declared onset, if any, and the unit after. -/
def detect (s : State) (a b : HopInput) : Option Onset × Listen :=
  let m := measureHop s.listen a b
  let l := { s.listen with a := m.2.1, b := m.2.2, hopBegan := s.now, candidate := some m.1,
                           recent := (m.1.novelty, s.listen.recent.1, s.listen.recent.2.1),
                           analyses := s.listen.analyses + 1 }
  match s.listen.candidate with
  | none => (none, l)
  | some c =>
    let d := declares s.params s.listen c m.1.novelty
    (if d then some (onsetOf s c) else none,
      { l with floor := moveFloor s.listen.floor c.novelty,
               refractory := nextRefractory s.params s.listen d })

/-! ### The filter and the queue (R52 to R57) -/

/-- The plan entry of verse `v`. -/
def planEntry (p : Player) (v : Nat) : Option PlanEntry :=
  match p.plan with
  | some pl => pl.entries.find? (fun e => e.verse == v)
  | none => none

/-- The join-on-onset option of the active hymn. -/
def joinOn (p : Player) : Bool :=
  match p.plan with
  | some pl => pl.join
  | none => false

/-- R52: listening is open. -/
def listeningOpen (p : Player) : Bool :=
  match p.state with
  | .VERSE =>
    match p.sec with
    | some v =>
      match planEntry p v with
      | some e => e.mode != .OMIT
      | none => false
    | none => false
  | .AMEN => true
  | .FERMATA | .GAP | .START_WAIT =>
    match p.wait with
    | some w => joinOn p && w.phase != .MINIMUM
    | none => false
  | .IDLE | .INTRO | .ENDING | .STOPPING => false

/-- R53: the classified onset is accepted. -/
def accepted (s : State) (o : Onset) : Bool :=
  listeningOpen s.player && decide (s.params.smin ≤ o.strength) && o.cls != .LEAK
    && (o.cls != .MIXED || s.params.acceptMixed) && !s.params.rejectSet.getLsbD o.dominant

/-- R56: backlog judged on the queue's fill and the critical level. -/
def judgeBacklog (s : State) : State :=
  let fill := s.listen.queue.length
  if !s.listen.backlog && decide (s.params.critical ≤ fill) then
    raise (.onsetBacklog fill) { s with listen := { s.listen with backlog := true } }
  else if s.listen.backlog && decide (fill < s.params.critical / 2) then
    { s with listen := { s.listen with backlog := false } }
  else s

/-- The queue replaced by another content, and backlog judged. -/
def setOnsets (q : List Onset) (s : State) : State :=
  judgeBacklog { s with listen := { s.listen with queue := q } }

/-- R55: an accepted onset joins the queue; an overrun removes the oldest first. -/
def joinOnset (o : Onset) (s : State) : State :=
  if s.listen.queue.length < Config.onsetPlaces then setOnsets (s.listen.queue ++ [o]) s
  else
    match s.listen.queue with
    | [] => setOnsets [o] s
    | old :: rest => setOnsets (rest ++ [o]) (raise (.onsetOverrun old.time) s)

/-- R57: the queue emptied. -/
def emptyOnsets (s : State) : State := setOnsets [] s

/-! ### Channels -/

def channelState (l : Listen) : Channel → ChannelState
  | .A => l.a
  | .B => l.b

def setChannel (l : Listen) (c : Channel) (x : ChannelState) : Listen :=
  match c with
  | .A => { l with a := x }
  | .B => { l with b := x }

/-- R39, R40: a PRESENT channel becomes LOST; when it paced, the hop in progress is abandoned and a
new one begins. -/
def loseChannel (c : Channel) (s : State) : State :=
  if (channelState s.listen c).present then
    let l := setChannel s.listen c ⟨false, none⟩
    raise (.inputLost c)
      { s with listen := if pacing s.listen = some c then { l with hopBegan := s.now } else l }
  else s

/-- R40: whether a hop completes now, its inputs having carried `a` and `b`: the pacing channel has given its
128 samples, or, while none paces, the hop timer has run out. -/
def hopDue (a b : HopInput) (s : State) : Bool :=
  match pacing s.listen with
  | some .A => decide ((samplesOf a).length = Config.hopSamples)
  | some .B => decide ((samplesOf b).length = Config.hopSamples)
  | none => due s (timePlus s.listen.hopBegan Config.hopUnits)

end Sys2Proof.Machine
end

