-- ==== Sys2Proof/Machine/Wire.lean ====
section
/-! DEFINITION. How reply fields are laid out in bytes (R170), and the result codes (R169). -/

namespace Sys2Proof.Machine

/-- The result codes (R169). -/
inductive Result where
  | OK | CLAMPED | LATCHED | ALREADY_LATCHED | BUSY | BAD_KIND | BAD_LENGTH | BAD_FIELD | WRONG_STATE
  | NOT_FOUND | NO_SPACE | OVERFLOW | COUNT_MISMATCH | TOO_LATE | NO_RESERVATION
  deriving DecidableEq, Repr

def resultCode : Result → Nat
  | .OK => 0
  | .CLAMPED => 1
  | .LATCHED => 2
  | .ALREADY_LATCHED => 3
  | .BUSY => 4
  | .BAD_KIND => 5
  | .BAD_LENGTH => 6
  | .BAD_FIELD => 7
  | .WRONG_STATE => 8
  | .NOT_FOUND => 9
  | .NO_SPACE => 10
  | .OVERFLOW => 11
  | .COUNT_MISMATCH => 12
  | .TOO_LATE => 13
  | .NO_RESERVATION => 14

/-- An owner's answer: the result, the fields that follow it, and the part after the request. -/
structure Answer where
  result : Result
  fields : List Byte
  state : State

/-- A field of one, two or four bytes, low byte first (R170). -/
def u8 (n : Nat) : List Byte := [BitVec.ofNat 8 n]
def u16 (n : Nat) : List Byte := [BitVec.ofNat 8 n, BitVec.ofNat 8 (n / 256)]
def u32 (n : Nat) : List Byte :=
  [BitVec.ofNat 8 n, BitVec.ofNat 8 (n / 256), BitVec.ofNat 8 (n / 65536), BitVec.ofNat 8 (n / 16777216)]

/-- A field that reaches below 0, in two's complement (R170). -/
def i8 (n : Int) : List Byte := u8 (BitVec.ofInt 8 n).toNat
def i16 (n : Int) : List Byte := u16 (BitVec.ofInt 16 n).toNat
def i32 (n : Int) : List Byte := u32 (BitVec.ofInt 32 n).toNat

def timeBytes (t : Time) : List Byte := u32 t.toNat

/-- A yes/no field. An indication that the manual calls on or off is sent so too, 0 for off and 1 for on:
R170 has no code for it (DEDUCED, log 10). -/
def yn (b : Bool) : List Byte := u8 (if b then 1 else 0)

/-- An optional field: a presence byte, then the field when present (R170). -/
def opt {α : Type} (f : α → List Byte) : Option α → List Byte
  | none => u8 0
  | some a => u8 1 ++ f a

/-- A list: one count byte, then the entries (R170). -/
def listBytes {α : Type} (f : α → List Byte) (l : List α) : List Byte := u8 l.length ++ l.flatMap f

/-- A set of flags: three bytes, flag 1 in the least significant bit of the first (R174). -/
def flagSetBytes (n : Nat) : List Byte := [BitVec.ofNat 8 n, BitVec.ofNat 8 (n / 256), BitVec.ofNat 8 (n / 65536)]

/-- A set of voices: one byte, S in the least significant bit (R170). -/
def voiceSetBytes (h : List Voice) : List Byte :=
  u8 (h.foldl (fun acc v => acc + 2 ^ voiceNumber v) 0)

def posBytes (p : HymnPos) : List Byte := u8 p.sec ++ u16 p.pos

/-- The on/off states of stops 0 to n − 1, one byte each (log 10). -/
def stopBytes (s : BitVec 32) (n : Nat) : List Byte :=
  (List.range n).flatMap (fun i => yn (s.getLsbD i))

def modeNumber : Mode → Nat
  | .PLAY => 0
  | .SILENT => 1
  | .OMIT => 2

def waitKindNumber : WaitKind → Nat
  | .fermata => 0
  | .gap => 1
  | .start => 2

def echoOutcomeNumber : EchoOutcome → Nat
  | .GOOD => 1
  | .MISSING => 2
  | .WRONG_NUMBER => 3
  | .CHECK_BAD => 4

def onsetClassNumber : OnsetClass → Nat
  | .CHOIR => 0
  | .MIXED => 1
  | .LEAK => 2

/-- The kind fields of a notice, in the order of the table of R174. The places needed and free of
SCHEDULE_FULL, for which no range is stated, are two bytes each (DEDUCED, log 10). The follow point of
CHOIR_FOUND and TEMPO_LIMIT is its hymn position, without the step index that R86 gives a decision's
(DEDUCED, log 48). -/
def kindBytes : Kind → List Byte
  | .hymn e slot tune =>
    u8 (match e with | .started => 0 | .ended => 1 | .stopped => 2) ++ u8 slot ++ u16 tune
  | .verse sec reg mode => u8 sec ++ u8 reg ++ u8 (modeNumber mode)
  | .wait o k p => u8 (match o with | .void => 0 | .waiting => 1) ++ u8 (waitKindNumber k) ++ posBytes p
  | .choirLost t p => timeBytes t ++ posBytes p
  | .choirFound p t => posBytes p ++ timeBytes t
  | .tempoLimit upper per p => yn upper ++ u32 per ++ posBytes p
  | .faultyStep slot step r => u8 slot ++ u16 step ++ u8 (match r with | .player => 0 | .console => 1)
  | .onsetOverrun t => timeBytes t
  | .onsetBacklog n => u8 n
  | .scheduleFull sec step needed free => u8 sec ++ u16 step ++ u16 needed ++ u16 free
  | .keylineSlip f n d k t => timeBytes f ++ u8 n ++ u8 (divisionNumber d) ++ u8 k ++ timeBytes t
  | .keylineFault n o b => u8 n ++ u8 (echoOutcomeNumber o) ++ opt u8 b
  | .keylineRestored n b => u8 n ++ opt u8 b
  | .cipher d k h f => u8 (divisionNumber d) ++ u8 k ++ voiceSetBytes h ++ timeBytes f
  | .regLate sec t settle => u8 sec ++ timeBytes t ++ timeBytes settle
  | .reservationLost v => u8 v
  | .storeReady => []
  | .inputLost c => u8 (match c with | .A => 0 | .B => 1)

/-- A notice record: flag number, service time of the rise, kind fields (R176). -/
def noticeBytes (r : Raise) : List Byte :=
  u8 (flagNumber (flagOf r.kind)) ++ timeBytes r.time ++ kindBytes r.kind

/-! ### Frames of the Console Link (R166) -/

/-- The frame of a request or a reply: start marker, length, kind, tag, body, check. -/
def linkFrame (kind tag : Byte) (body : List Byte) : List Byte :=
  let checked := u16 (body.length + 2) ++ kind :: tag :: body
  0xC3#8 :: checked ++ checkBytes checked

/-! ### Answers -/

/-- An answer that changes nothing. -/
def refuse (s : State) (r : Result) (fields : List Byte := []) : Answer := ⟨r, fields, s⟩

/-- A BAD_FIELD that names the field by its position in the request's field order (R169, log 9). -/
def badField (s : State) (position : Nat) : Answer := ⟨.BAD_FIELD, u8 position, s⟩

end Sys2Proof.Machine
end

