-- ==== Sys2Proof/Machine/Operands.lean ====
section
/-! DEFINITION. The operand forms of the requests: what values of a sent field lie in its range or
enumeration, and what they stand for (R170). -/

namespace Sys2Proof.Machine

/-- A yes/no (or off/on) byte. -/
def asYesNo : Nat → Option Bool
  | 0 => some false
  | 1 => some true
  | _ => none

def isYesNo (n : Nat) : Bool := decide (n ≤ 1)

def asMode : Nat → Option Mode
  | 0 => some .PLAY
  | 1 => some .SILENT
  | 2 => some .OMIT
  | _ => none

def asFermataKind : Nat → Option FermataKind
  | 0 => some .TIMED
  | 1 => some .CUED
  | _ => none

/-- A registration index 0 to 15, or 16 for AUTO (R170): none outside, some none for AUTO. -/
def asRegistrationChoice (n : Nat) : Option (Option Nat) :=
  if n < Config.registrationCount then some (some n)
  else if n = Config.registrationCount then some none else none

/-- A routing: a division 1 to 5, or 6 for SILENT (log 11). -/
def asRouting (n : Nat) : Option (Option Division) :=
  if n = 6 then some none else (divisionOf n).map some

/-- A verse override or changed plan entry whose fields all lie in their ranges (R88, R90). -/
def asEntry (e : EntryFields) : Option PlanEntry :=
  match asMode e.mode, asRegistrationChoice e.registration, asYesNo e.gapKind with
  | some m, some r, some cued =>
    if 1 ≤ e.verse ∧ e.verse ≤ Config.lastVerse ∧ -12 ≤ e.transposition ∧ e.transposition ≤ 12
        ∧ e.gapLength ≤ 1536 then
      some ⟨e.verse, m, r, e.transposition, ⟨e.gapLength, cued⟩, false, none⟩
    else none
  | _, _, _ => none

/-- All of a list's entries, if every one lies in its ranges. -/
def asEntries : List EntryFields → Option (List PlanEntry)
  | [] => some []
  | e :: rest =>
    match asEntry e, asEntries rest with
    | some p, some ps => some (p :: ps)
    | _, _ => none

/-- Whether no two entries name the same verse. -/
def distinctVerses : List PlanEntry → Bool
  | [] => true
  | e :: rest => rest.all (fun x => x.verse != e.verse) && distinctVerses rest

def asNote (n : NoteFields) : Option Note :=
  match voiceOf n.voice, asYesNo n.tieOn with
  | some v, some tie => if n.pitch ≤ 127 then some ⟨v, n.pitch, tie⟩ else none
  | _, _ => none

def asNotes : List NoteFields → Option (List Note)
  | [] => some []
  | n :: rest =>
    match asNote n, asNotes rest with
    | some p, some ps => some (p :: ps)
    | _, _ => none

/-- No two notes share both voice and pitch (R9). -/
def distinctNotes : List Note → Bool
  | [] => true
  | n :: rest => rest.all (fun x => !(x.voice == n.voice && x.pitch == n.pitch)) && distinctNotes rest

/-- A fermata in range: kind TIMED or CUED, factor 4 to 32 (R9). -/
def asFermata (f : FermataFields) : Option Fermata :=
  match asFermataKind f.kind with
  | some k => if 4 ≤ f.factor ∧ f.factor ≤ 32 then some ⟨k, f.factor⟩ else none
  | none => none

def asFermataOpt : Option FermataFields → Option (Option Fermata)
  | none => some none
  | some f => (asFermata f).map some

/-- An optional field's presence: none where the presence byte lies outside its values. -/
def asOptional {α : Type} : Wire α → Option (Option α)
  | .absent => some none
  | .present a => some (some a)
  | .invalid _ => none

/-- A step whose fields all lie in the ranges of R9. -/
def asStepFields (position duration follow : Nat) (fermata : Option FermataFields)
    (notes : List NoteFields) : Option StepRec :=
  match asYesNo follow, asFermataOpt fermata, asNotes notes with
  | some fo, some fe, some ns =>
    if position ≤ 65535 ∧ 1 ≤ duration ∧ position + duration ≤ 65535 ∧ notes.length ≤ 8 then
      some ⟨position, duration, fo, fe, ns⟩
    else none
  | _, _, _ => none

/-- A sent step, when it is valid but for its place in the part: in range, with no two notes alike
(R14). -/
def asStep (f : StepFields) : Option StepRec :=
  match asOptional f.fermata with
  | some fe =>
    (asStepFields f.position f.duration f.follow fe f.notes).filter (fun r => distinctNotes r.notes)
  | none => none

end Sys2Proof.Machine
end

