-- ==== Sys2Proof/Machine/Organ.lean ====
section
/-! DEFINITION. Divisions and registrations: derived figures, writing and reading records, and the
registration that applies to a verse (chapter 2). -/

namespace Sys2Proof.Machine

/-! ### Derived figures (R25) -/

/-- Key groups of a division, none while it is absent. -/
def keyGroups (r : DivisionRec) : Nat := if r.present then ceilDiv r.keyCount 8 else 0

/-- Stop groups of a division, none while it is absent. -/
def stopGroups (r : DivisionRec) : Nat := if r.present then ceilDiv r.stopCount 8 else 0

/-- Whether the division has an expression target. -/
def hasExpression (r : DivisionRec) : Bool := r.present && r.enclosed

def largestSpeech (o : Organ) : Nat :=
  allDivisions.foldl (fun acc d => if (divRec o d).present then max acc (divRec o d).speech else acc) 0

def largestTail (o : Organ) : Nat :=
  allDivisions.foldl
    (fun acc d =>
      if (divRec o d).present && (divRec o d).leakTracking then max acc (divRec o d).leakTail else acc) 0

/-- The stops numbered below `n`. -/
def stopMask (n : Nat) : BitVec 32 := BitVec.ofNat 32 (2 ^ n - 1)

/-- The eight states of stop group `g`, stop 8g in the least significant bit. -/
def groupStates (s : BitVec 32) (g : Nat) : Nat := (s >>> (8 * g)).toNat % 256

/-! ### Division records -/

/-- R27: each field clamped, then the key count limited by the lowest pitch. -/
def clampDivision (f : DivisionFields) : DivisionRec :=
  let lowest := clampNat 0 127 f.lowest
  { present := f.present == 1, lowest := lowest,
    keyCount := min (clampNat 1 64 f.keyCount) (128 - lowest),
    speech := clampNat 0 2500 f.speech, release := clampNat 0 1000 f.release,
    acoustic := clampNat 0 3000 f.acoustic, leakTracking := f.leakTracking == 1,
    leakTail := clampNat 0 60000 f.leakTail, stopCount := clampNat 0 32 f.stopCount,
    enclosed := f.enclosed == 1 }

/-- Whether the limits of R27 changed a value. -/
def divisionLimited (f : DivisionFields) : Bool :=
  let r := clampDivision f
  !(r.lowest == f.lowest && r.keyCount == f.keyCount && r.speech == f.speech && r.release == f.release
    && r.acoustic == f.acoustic && r.leakTail == f.leakTail && r.stopCount == f.stopCount)

/-- R28: a registration record brought into agreement with the new record of `d`. -/
def agreeRegistration (d : Division) (old new : DivisionRec) (r : Registration) : Registration :=
  if !new.present then
    { r with routing := voiceMap (fun x => if x = some d then none else x) r.routing,
             stops := divSet r.stops d none, expression := divSet r.expression d none }
  else if !old.present then
    { r with stops := divSet r.stops d (some 0#32),
             expression := divSet r.expression d (if new.enclosed then some .UNCHANGED else none) }
  else
    { r with stops := divSet r.stops d ((divGet r.stops d).map (fun b => b &&& stopMask new.stopCount)),
             expression :=
               if !new.enclosed then divSet r.expression d none
               else if !old.enclosed then divSet r.expression d (some .UNCHANGED)
               else r.expression }

/-- The Registration Table brought into agreement with the new record of `d` (R28). -/
def agreeTable (d : Division) (old new : DivisionRec) (t : Table (Option Registration)) :
    Table (Option Registration) :=
  ⟨t.cells.map (fun c => (c.1, c.2.map (agreeRegistration d old new)))⟩

/-- How many present records route a voice to `d`. -/
def routedRecords (d : Division) (t : Table (Option Registration)) : Nat :=
  (t.cells.filter (fun c =>
    match c.2 with
    | some r => (voiceList r.routing).contains (some d)
    | none => false)).length

/-- R28: the map entries of division `d` after an accepted SET_DIVISION. -/
def clearDivisionMap (d : Division) (m : SoundingMap) : SoundingMap :=
  { keys := ⟨m.keys.cells.filter (fun c => c.1 / 64 != divisionNumber d)⟩,
    stops := divSet m.stops d 0#32, expression := divSet m.expression d 0 }

/-- The effects of an accepted SET_DIVISION (R26, R28). -/
def writeDivision (d : Division) (new : DivisionRec) (s : State) : State :=
  { s with
    organ := { divisions := divSet s.organ.divisions d new,
               registrations := agreeTable d (divRec s.organ d) new s.organ.registrations },
    map := clearDivisionMap d s.map }

/-- A division record in a reply (R24, R170). -/
def divisionBytes (r : DivisionRec) : List Byte :=
  yn r.present ++ u8 r.lowest ++ u8 r.keyCount ++ u16 r.speech ++ u16 r.release ++ u16 r.acoustic
    ++ yn r.leakTracking ++ u16 r.leakTail ++ u8 r.stopCount ++ yn r.enclosed

/-- SET_DIVISION (R26 to R28). The yes/no bytes are judged with the first test (R170). -/
def answerSetDivision (number : Nat) (f : DivisionFields) (s : State) : Answer :=
  match divisionOf number with
  | none => refuse s .BAD_FIELD
  | some d =>
    if !(isYesNo f.present && isYesNo f.leakTracking && isYesNo f.enclosed) then refuse s .BAD_FIELD
    else if s.player.state ≠ .IDLE then refuse s .WRONG_STATE
    else if s.keyline.state ≠ .OFF then refuse s .WRONG_STATE
    else
      let new := clampDivision f
      ⟨if divisionLimited f then .CLAMPED else .OK,
        divisionBytes new ++ u8 (keyGroups new) ++ u8 (stopGroups new)
          ++ u8 (if new.present then 0 else routedRecords d s.organ.registrations),
        writeDivision d new s⟩

/-- GET_DIVISION (R29). -/
def answerGetDivision (number : Nat) (s : State) : Answer :=
  match divisionOf number with
  | none => refuse s .BAD_FIELD
  | some d =>
    let r := divRec s.organ d
    ⟨.OK, divisionBytes r ++ u8 (keyGroups r) ++ u8 (stopGroups r) ++ u16 (largestSpeech s.organ)
      ++ u16 (largestTail s.organ), s⟩

/-! ### The Registration Table -/

def registrationAt (o : Organ) (i : Nat) : Option Registration := o.registrations.get none i

/-- R32: verse `v` belongs to the record's verse set. -/
def belongs (r : Registration) (v : Nat) : Bool :=
  decide (r.first ≤ v) && decide (v ≤ r.last) && decide ((v - 1) % r.repeats = r.base)

/-- The present record of lowest index to whose verse set `v` belongs, from a cell list by index. -/
def autoRecord (v : Nat) : List (Nat × Option Registration) → Option (Nat × Registration)
  | [] => none
  | (i, some r) :: rest => if belongs r v then some (i, r) else autoRecord v rest
  | (_, none) :: rest => autoRecord v rest

/-- R36: the registration that applies to verse `v` under a plan entry's registration choice. -/
def applies (o : Organ) (choice : Option Nat) (v : Nat) : Option (Nat × Registration) :=
  match choice with
  | some i => (registrationAt o i).map (fun r => (i, r))
  | none => autoRecord v o.registrations.cells

/-- R33, fourth test: whether a sent routing names a present division or SILENT. -/
def routable (o : Organ) (n : Nat) : Bool :=
  match asRouting n with
  | some none => true
  | some (some d) => (divRec o d).present
  | none => false

/-- Index of the first voice, in voice order, routed to no present division and not SILENT. -/
def firstUnroutable (o : Organ) (r : PerVoice Nat) : Option Nat :=
  (voiceList r).findIdx? (fun n => !routable o n)

/-- The stop states of a list of bytes, stop 0 first. -/
def stopsOf (l : List Nat) : BitVec 32 :=
  BitVec.ofNat 32 (l.foldr (fun b acc => b % 2 + 2 * acc) 0)

/-- A sent expression: 16 is UNCHANGED, a level above 15 is taken as 15 (R34, log 11). -/
def asExpression (n : Nat) : Expression := if n = 16 then .UNCHANGED else .level (min n 15)

/-- The record that an accepted SET_REGISTRATION stores (R34). -/
def storedRegistration (o : Organ) (f : RegistrationFields) : Registration :=
  { first := f.first, last := f.last, repeats := f.repeats, base := f.base,
    routing := voiceMap (fun n => (asRouting n).join) f.routing,
    stops := divBuild (fun d =>
      if (divRec o d).present then some (stopsOf (divGet f.stops d) &&& stopMask (divRec o d).stopCount)
      else none),
    expression := divBuild (fun d =>
      if hasExpression (divRec o d) then some (asExpression (divGet f.expression d)) else none),
    lift := min f.lift 48 }

/-- Whether the lift or a stored expression was limited (R34). -/
def registrationLimited (o : Organ) (f : RegistrationFields) : Bool :=
  decide (48 < f.lift) ||
    allDivisions.any (fun d => hasExpression (divRec o d) && decide (16 < divGet f.expression d))

def expressionByte : Expression → Nat
  | .level n => n
  | .UNCHANGED => 16

def routingByte : Option Division → Nat
  | none => 6
  | some d => divisionNumber d

/-- A registration record in a reply: the stop states and expressions it holds, those it does not hold
left out without a presence byte (R34, R37, DEDUCED, log 44). -/
def registrationBytes (o : Organ) (r : Registration) : List Byte :=
  u8 r.first ++ u8 r.last ++ u8 r.repeats ++ u8 r.base
    ++ (voiceList r.routing).flatMap (fun x => u8 (routingByte x))
    ++ allDivisions.flatMap (fun d =>
        match divGet r.stops d with
        | some b => stopBytes b (divRec o d).stopCount
        | none => [])
    ++ allDivisions.flatMap (fun d =>
        match divGet r.expression d with
        | some e => u8 (expressionByte e)
        | none => [])
    ++ u8 r.lift

/-- Every stop state byte of a sent record is 0 or 1 (R170). -/
def stopFieldsValid (f : RegistrationFields) : Bool :=
  allDivisions.all (fun d => (divGet f.stops d).all isYesNo)

def writeRegistration (i : Nat) (r : Option Registration) (s : State) : State :=
  { s with organ := { s.organ with registrations := s.organ.registrations.set none i r } }

/-- SET_REGISTRATION (R33, R34). Field positions: index 0, present 1, first 2, last 3, repeat 4,
base 5, the voices' routing 6 to 11. The verse set, positions 2 to 5, is named by its first field for both
of its tests (DEDUCED, log 9). -/
def answerSetRegistration (i : Nat) (rec : Wire RegistrationFields) (s : State) : Answer :=
  if ¬ i < Config.registrationCount then refuse s .BAD_FIELD
  else
    match rec with
    | .invalid _ => refuse s .BAD_FIELD
    | .absent => ⟨.OK, [], writeRegistration i none s⟩
    | .present f =>
      if !stopFieldsValid f then refuse s .BAD_FIELD
      else if ¬ (1 ≤ f.first ∧ f.first ≤ f.last ∧ f.last ≤ 12) then badField s 2
      else if ¬ (1 ≤ f.repeats ∧ f.repeats ≤ 4 ∧ f.base < f.repeats) then badField s 2
      else
        match firstUnroutable s.organ f.routing with
        | some v => badField s (6 + v)
        | none =>
          let r := storedRegistration s.organ f
          ⟨if registrationLimited s.organ f then .CLAMPED else .OK, registrationBytes s.organ r,
            writeRegistration i (some r) s⟩

/-- GET_REGISTRATION (R37). -/
def answerGetRegistration (i : Nat) (s : State) : Answer :=
  if ¬ i < Config.registrationCount then refuse s .BAD_FIELD
  else ⟨.OK, opt (registrationBytes s.organ) (registrationAt s.organ i), s⟩

end Sys2Proof.Machine
end

