-- ==== Sys2Proof/Machine/Schedule.lean ====
section
/-! DEFINITION. The Key Scheduler: prediction, schedule order, planning, firming, retiming and
cancelling (chapters 4.2 and 6). -/

namespace Sys2Proof.Machine

/-- R61: the organ sound time of position `pos` of the anchor's section. -/
def predict (f : Follow) (pos : Int) : Time :=
  timePlus f.anchorTime (roundDiv ((pos - f.anchor.pos) * f.period) 19200)

/-! ### Order (R116) -/

def kindRank : KeyKind → Nat
  | .UP => 0
  | .RENEW => 1
  | .DOWN => 2

/-- R116: by key time, then UP, RENEW, DOWN, then insertion number. -/
def eventBefore (a b : KeyEvent) : Bool :=
  if a.time = b.time then
    if kindRank a.kind = kindRank b.kind then decide ((a.number - b.number).toInt < 0)
    else decide (kindRank a.kind < kindRank b.kind)
  else later b.time a.time

/-- An event put at its place among ordered events. -/
def placeEvent (e : KeyEvent) : List KeyEvent → List KeyEvent
  | [] => [e]
  | h :: rest => if eventBefore e h then e :: h :: rest else h :: placeEvent e rest

/-- Events put in schedule order. -/
def orderEvents (l : List KeyEvent) : List KeyEvent := l.foldr placeEvent []

/-- FIRM events in order, then PROVISIONAL events in order (R116). -/
def orderSchedule (l : List KeyEvent) : List KeyEvent :=
  orderEvents (l.filter (·.firm)) ++ orderEvents (l.filter (fun e => !e.firm))

/-! ### Key times (R120 to R122, R127) -/

/-- The time of a basis of POSITION for a kind of event of a division. -/
def positionTime (f : Follow) (r : DivisionRec) (kind : KeyKind) (pos : Nat) (strike : Option Nat) : Time :=
  match kind with
  | .DOWN => timePlus (predict f pos) (-(r.speech : Int))
  | .RENEW => predict f pos
  | .UP =>
    let own := timePlus (predict f pos) (-(r.release : Int))
    match strike with
    | some q => timeMin own (timePlus (predict f q) (-(r.speech : Int)))
    | none => own

/-! ### Firming (R125) -/

/-- A PROVISIONAL event at or before the boundary becomes FIRM, at now if its time is past. -/
def firmEvent (now boundary : Time) (e : KeyEvent) : KeyEvent :=
  if !e.firm && arrived e.time boundary then { e with firm := true, time := timeMax e.time now } else e

/-- R125: the firming pass. -/
def firmPass (now : Time) (lead : Nat) (k : Schedule) : Schedule :=
  let boundary := timePlus now lead
  { k with boundary := boundary, events := orderSchedule (k.events.map (firmEvent now boundary)) }

/-- R127: the key time of a PROVISIONAL event of basis POSITION recomputed. -/
def retimeEvent (f : Follow) (o : Organ) (e : KeyEvent) : KeyEvent :=
  if e.firm then e
  else
    match e.basis with
    | .position p strike => { e with time := positionTime f (divRec o e.division) e.kind p strike }
    | .fixed => e

/-- R127: every PROVISIONAL event of basis POSITION retimed, and a firming pass made. -/
def retime (s : State) : State :=
  let moved := { s.keys with events := s.keys.events.map (retimeEvent s.follow s.organ) }
  { s with keys := firmPass s.now s.params.firmLead moved }

/-! ### Working out a step's events (R118 to R124) -/

/-- A note routed to a key of a division (R118, R119). -/
structure RoutedNote where
  voice : Voice
  division : Division
  key : Nat
  pitch : Nat
  tieOn : Bool
  deriving DecidableEq, Repr

/-- R119: a key pitch folded into a compass by the fewest whole octaves; none when dropped. -/
def foldPitch (lowest keyCount : Nat) (p : Int) : Option Nat :=
  let low : Int := lowest
  let high : Int := lowest + keyCount - 1
  let q :=
    if p < low then p + 12 * ((low - p + 11) / 12)
    else if high < p then p - 12 * ((p - high + 11) / 12)
    else p
  if low ≤ q ∧ q ≤ high then some (q - low).toNat else none

/-- R118, R119: the key a note plays, none when its voice is SILENT or the note is dropped. -/
def routeNote (o : Organ) (ch : PerVoice VoiceChannel) (n : Note) : Option RoutedNote :=
  let c := voiceGet ch n.voice
  match c.division with
  | none => none
  | some d =>
    match foldPitch (divRec o d).lowest (divRec o d).keyCount (n.pitch + c.transposition) with
    | none => none
    | some k => some ⟨n.voice, d, k, n.pitch, n.tieOn⟩

def sameKey (a b : RoutedNote) : Bool := a.voice == b.voice && a.division == b.division && a.key == b.key

/-- Notes whose voice, division and key are those of an earlier note are dropped (R119). -/
def dropRepeats : List RoutedNote → List RoutedNote → List RoutedNote
  | _, [] => []
  | seen, n :: rest =>
    if seen.any (sameKey n) then dropRepeats seen rest else n :: dropRepeats (n :: seen) rest

/-- The routed notes of a step, in written order; none in a section that is not played (R118). -/
def routeNotes (o : Organ) (ch : PerVoice VoiceChannel) (mode : Mode) (notes : List Note) : List RoutedNote :=
  if mode = .PLAY then dropRepeats [] (notes.filterMap (routeNote o ch)) else []

/-- An event worked out but not yet placed. -/
structure Draft where
  kind : KeyKind
  voice : Voice
  division : Division
  key : Nat
  basis : Basis
  fixedTime : Time
  deriving DecidableEq, Repr

def draftAt (n : RoutedNote) (k : KeyKind) (pos : Nat) : Draft :=
  ⟨k, n.voice, n.division, n.key, .position pos none, 0#32⟩

/-- A FIXED key-up (R123, R129). -/
def draftFixed (v : Voice) (d : Division) (k : Nat) (t : Time) : Draft := ⟨.UP, v, d, k, .fixed, t⟩

/-- What a planning needs besides the step itself (R117): the section mode, the lift in force, the
section's end, and the notes tied on by the step planned before it in the section. -/
structure PlanContext where
  mode : Mode
  lift : Nat
  sectionEnd : Nat
  tied : List (Voice × Nat)
  deriving DecidableEq, Repr

/-- R124: the position at which the notes of a step before a faulty run end. -/
def extendedEnd (w : WindowStep) (sectionEnd : Nat) : Nat :=
  match w.next with
  | some n => n.pos
  | none => sectionEnd

/-- R121: the note's tie continues into the next step. -/
def tieContinues (w : WindowStep) (n : RoutedNote) : Bool :=
  n.tieOn &&
    match w.next with
    | some nx => nx.notes.any (fun m => m.voice == n.voice && m.pitch == n.pitch)
    | none => false

/-- The event of a routed note at its end: none for a fermata step before its release or a tie that
continues, an UP at the release position, or over a faulty run an UP and then a RENEW (R121 to R124; the order
of the two is a DESIGN CHOICE, log 53). -/
def endDrafts (c : PlanContext) (w : WindowStep) (n : RoutedNote) : List Draft :=
  if w.fermata.isSome then
    match w.release with
    | some t => [draftFixed n.voice n.division n.key t]
    | none => []
  else if tieContinues w n then []
  else if w.run then
    let e := extendedEnd w c.sectionEnd
    [draftAt n .UP e, draftAt n .RENEW (min (w.pos + w.dur) e)]
  else [draftAt n .UP (w.pos + w.dur - min c.lift (w.dur / 4))]

/-- R120: the event of a routed note at its start. -/
def startDraft (c : PlanContext) (w : WindowStep) (n : RoutedNote) : Draft :=
  draftAt n (if c.tied.contains (n.voice, n.pitch) then .RENEW else .DOWN) w.pos

/-- Every event a step makes, in written order of its notes. -/
def stepDrafts (c : PlanContext) (o : Organ) (ch : PerVoice VoiceChannel) (w : WindowStep) : List Draft :=
  (routeNotes o ch c.mode w.notes).flatMap (fun n => startDraft c w n :: endDrafts c w n)

/-- The notes a step ties on, for the step planned after it (R120). -/
def stepTies (mode : Mode) (o : Organ) (ch : PerVoice VoiceChannel) (w : WindowStep) : List (Voice × Nat) :=
  if w.fermata.isSome then []
  else ((routeNotes o ch mode w.notes).filter (·.tieOn)).map (fun n => (n.voice, n.pitch))

/-! ### Placing (R115, R122) -/

/-- The DOWN `d` strikes the key that the UP `u` of an earlier step releases (R122). -/
def strikes (u d : KeyEvent) : Bool :=
  u.kind == .UP && d.kind == .DOWN && u.voice == d.voice && u.division == d.division && u.key == d.key
    && u.basis != .fixed &&
    match u.step, d.step with
    | some i, some j => decide (u.sec < d.sec ∨ (u.sec = d.sec ∧ i < j))
    | _, _ => false

/-- R122, first case: a PROVISIONAL UP due after its next strike takes the strike's position. -/
def tieToStrike (f : Follow) (o : Organ) (d u : KeyEvent) : KeyEvent :=
  match u.basis, d.basis with
  | .position r none, .position q _ =>
    if strikes u d && !u.firm && later u.time d.time then
      { u with basis := .position r (some q),
               time := positionTime f (divRec o u.division) .UP r (some q) }
    else u
  | _, _ => u

/-- R122, second case: a DOWN computed before a FIRM UP that it strikes is placed at the UP's time. -/
def afterFirmUp (events : List KeyEvent) (d : KeyEvent) : KeyEvent :=
  events.foldl
    (fun acc u => if strikes u acc && u.firm && later u.time acc.time then { acc with time := u.time } else acc) d

/-- One event placed in the schedule, with the strike rule (R115, R122). -/
def placeDraft (f : Follow) (o : Organ) (sec : Nat) (step : Option Nat) (k : Schedule) (d : Draft) : Schedule :=
  let time :=
    match d.basis with
    | .position p strike => positionTime f (divRec o d.division) d.kind p strike
    | .fixed => d.fixedTime
  let e : KeyEvent := ⟨d.kind, d.voice, d.division, d.key, sec, step, d.basis, time, false, k.counter⟩
  let placed :=
    match d.kind with
    | .DOWN =>
      let e' := afterFirmUp k.events e
      placeEvent e' (k.events.map (tieToStrike f o e'))
    | .UP => placeEvent (k.events.foldl (fun u x => tieToStrike f o x u) e) k.events
    | .RENEW => placeEvent e k.events
  { k with events := placed, counter := k.counter + 1 }

/-- Free places of the schedule (R117). -/
def freePlaces (k : Schedule) : Nat := Config.schedulePlaces - k.events.length

/-- Events placed all together, and the firming pass that follows (R117, R125). -/
def placeAll (s : State) (sec : Nat) (step : Option Nat) (drafts : List Draft) : State :=
  let placed := drafts.foldl (placeDraft s.follow s.organ sec step) s.keys
  { s with keys := firmPass s.now s.params.firmLead placed }

/-- R117: a request placed all or none: the state after, and whether it was placed; a refusal raises
SCHEDULE_FULL. -/
def placeOrRefuse (s : State) (sec step : Nat) (drafts : List Draft) : State × Bool :=
  if drafts.length ≤ freePlaces s.keys then (placeAll s sec (some step) drafts, true)
  else (raise (.scheduleFull sec step drafts.length (freePlaces s.keys)) s, false)

/-! ### Extension after planning (R124) -/

/-- A PROVISIONAL UP of a step. -/
def extendable (sec index : Nat) (e : KeyEvent) : Bool :=
  e.kind == .UP && !e.firm && e.sec == sec && e.step == some index

/-- The UP and RENEW that replace a cancelled UP. -/
def extensionDrafts (endPos subPos : Nat) (e : KeyEvent) : List Draft :=
  [⟨.UP, e.voice, e.division, e.key, .position endPos none, 0#32⟩,
   ⟨.RENEW, e.voice, e.division, e.key, .position subPos none, 0#32⟩]

/-- R124, second way: a planned step extended over a run found later, all or none. The new events take their
insertion numbers in the schedule's order of the cancelled UPs, for each the UP and then the RENEW; R124
gives no order (DESIGN CHOICE, log 53). -/
def extendStep (w : WindowStep) (sectionEnd : Nat) (s : State) : State :=
  let ups := s.keys.events.filter (extendable w.sec w.index)
  let e := extendedEnd w sectionEnd
  let drafts := ups.flatMap (extensionDrafts e (min (w.pos + w.dur) e))
  let kept := { s.keys with events := s.keys.events.filter (fun x => !extendable w.sec w.index x) }
  if drafts.length - ups.length ≤ freePlaces s.keys then
    if ups.isEmpty then s else placeAll { s with keys := kept } w.sec (some w.index) drafts
  else raise (.scheduleFull w.sec w.index (drafts.length - ups.length) (freePlaces s.keys)) s

/-! ### Release of held keys and cancelling (R129 to R131) -/

/-- The held pairs of key and voice, in order of division, key number and voice. -/
def heldPairs (m : SoundingMap) : List (Voice × Division × Nat) :=
  (downKeys m).flatMap (fun x => x.2.2.holders.map (fun v => (v, x.1, x.2.1)))

/-- The schedule already holds an UP for the pair. -/
def hasUp (k : Schedule) (p : Voice × Division × Nat) : Bool :=
  k.events.any (fun e => e.kind == .UP && e.voice == p.1 && e.division == p.2.1 && e.key == p.2.2)

/-- One FIXED, FIRM UP at now, if the pair has none and a place is free (R129). -/
def releasePair (now : Time) (sec : Nat) (k : Schedule) (p : Voice × Division × Nat) : Schedule :=
  if hasUp k p || decide (freePlaces k = 0) then k
  else
    let e : KeyEvent := ⟨.UP, p.1, p.2.1, p.2.2, sec, none, .fixed, now, true, k.counter⟩
    { k with events := e :: k.events, counter := k.counter + 1 }

/-- The schedule put in order again, as R116 keeps it at every placing and removal. -/
def inOrder (k : Schedule) : Schedule := { k with events := orderSchedule k.events }

/-- R129: an UP at now for every held pair that has none, as places allow. -/
def releaseHeld (sec : Nat) (s : State) : State :=
  { s with keys := inOrder ((heldPairs s.map).foldl (releasePair s.now sec) s.keys) }

/-- Every event cancelled (R129, R130). -/
def cancelAll (k : Schedule) : Schedule := { k with events := [] }

/-- Every event of the Amen cancelled (R131). -/
def cancelAmen (k : Schedule) : Schedule :=
  inOrder { k with events := k.events.filter (fun e => e.sec != Config.amenSection) }

/-- R126: the FIRM events due at `f`, in schedule order. -/
def dueEvents (k : Schedule) (f : Time) : List KeyEvent := k.events.filter (fun e => e.firm && arrived e.time f)

/-- The other events. -/
def laterEvents (k : Schedule) (f : Time) : List KeyEvent := k.events.filter (fun e => !(e.firm && arrived e.time f))

end Sys2Proof.Machine
end

