-- ==== Sys2Proof/Machine/Store.lean ====
section
/-! DEFINITION. The Tune Store: extents, loading, erasing, reading and checking tunes, clearing
(chapter 1). -/

namespace Sys2Proof.Machine

/-! ### Free runs (R6 to R8) -/

/-- R7: first fit. The extent start and the free runs left, or none. -/
def takeRun (n : Nat) : List (Nat × Nat) → Option (Nat × List (Nat × Nat))
  | [] => none
  | (b, m) :: rest =>
    if n ≤ m then some (b, if n = m then rest else (b + n, m - n) :: rest)
    else
      match takeRun n rest with
      | some (a, runs) => some (a, (b, m) :: runs)
      | none => none

/-- R8: a freed run of `n` entries from `a` joins the runs that end before it or start after it. -/
def giveRun (a n : Nat) : List (Nat × Nat) → List (Nat × Nat)
  | [] => [(a, n)]
  | (b, m) :: rest =>
    if a + n < b then (a, n) :: (b, m) :: rest
    else if a + n = b then (a, n + m) :: rest
    else if b + m = a then giveRun b (m + n) rest
    else (b, m) :: giveRun a n rest

def longestFree (runs : List (Nat × Nat)) : Nat := runs.foldl (fun acc r => max acc r.2) 0
def totalFree (runs : List (Nat × Nat)) : Nat := runs.foldl (fun acc r => acc + r.2) 0

def freeBytes (runs : List (Nat × Nat)) : List Byte := u16 (longestFree runs) ++ u16 (totalFree runs)

/-! ### Steps in the pool (R9, R17) -/

def noteFieldBytes (n : NoteFields) : List Byte := u8 n.voice ++ u8 n.pitch ++ u8 n.tieOn

/-- The bytes of a step's head fields and then its notes, laid out as R170 lays out a TUNE_STEPS
entry: what the check value is formed over (R17, log 12). -/
def stepBytes (position duration follow : Nat) (fermata : Option FermataFields)
    (notes : List NoteFields) : List Byte :=
  u16 position ++ u16 duration ++ u8 follow ++ opt (fun f => u8 f.kind ++ u8 f.factor) fermata
    ++ listBytes noteFieldBytes notes

/-- The fermata fields of a sent step that is valid. -/
def sentFermata : Wire FermataFields → Option FermataFields
  | .present f => some f
  | _ => none

/-- The pool entries of a valid sent step, with its check value (R9, R17). -/
def stepEntries (f : StepFields) : List PoolEntry :=
  let fe := sentFermata f.fermata
  .head f.position f.duration f.follow fe f.notes.length
      (check (stepBytes f.position f.duration f.follow fe f.notes))
    :: f.notes.map .note

/-- The notes of a run of pool entries, none where an entry is no note. -/
def notesOf : List PoolEntry → Option (List NoteFields)
  | [] => some []
  | .note n :: rest =>
    match notesOf rest with
    | some ns => some (n :: ns)
    | none => none
  | _ :: _ => none

/-- The entries that the directory gives to step `i` of a slot. -/
def entriesGiven (sl : Slot) (i : Nat) (w : Written) : Nat :=
  match sl.written[i + 1]? with
  | some next => next.entry - w.entry
  | none => sl.start + sl.entriesWritten - w.entry

/-- R17: step `i` of a slot as read from the pool and checked: its fields, or none when faulty. -/
def readStep (st : Store) (sl : Slot) (i : Nat) : Option StepRec :=
  match sl.written[i]? with
  | none => none
  | some w =>
    match st.pool.get .blank w.entry with
    | .head p d f fe count chk =>
      if count + 1 ≤ entriesGiven sl i w then
        match notesOf (st.pool.getRun .blank (w.entry + 1) count) with
        | some ns => if check (stepBytes p d f fe ns) = chk then asStepFields p d f fe ns else none
        | none => none
      else none
    | _ => none

/-- R20: a failed check of step `i` of slot `n` in the two fault records. -/
def noteFaultIn (n i : Nat) (st : Store) : Store :=
  { st with
    slots :=
      match slotRec st n with
      | some sl =>
        st.slots.set none n (some
          { sl with faultFirst := some (sl.faultFirst.getD i),
                    faultMultiple := sl.faultMultiple || (sl.faultFirst.isSome && sl.faultFirst != some i) })
      | none => st.slots,
    faultHeld := some (st.faultHeld.getD (n, i)),
    faultMultiple := st.faultMultiple || (st.faultHeld.isSome && st.faultHeld != some (n, i)) }

/-- R20: the fault records and the FAULTY_STEP flag. -/
def noteFault (n i : Nat) (r : Reader) (s : State) : State :=
  raise (.faultyStep n i r) { s with store := noteFaultIn n i s.store }

/-- R178, R20: the store fault record cleared. -/
def clearStoreFault (st : Store) : Store := { st with faultHeld := none, faultMultiple := false }

/-! ### TUNE_BEGIN (R11, R12) -/

def slotStateNumber : Option Slot → Nat
  | none => 0
  | some sl =>
    match sl.state with
    | .LOADING => 1
    | .READY => 2
    | .PLAYING => 3

/-- R12: the position in the request's field order of the first header field that fails, if any. The period
relation takes three fields and is named by the first of them, 3 (DEDUCED, log 9). -/
def headerProblem (h : HeaderFields) : Option Nat :=
  if 9999 < h.number then some 1
  else if ¬ (1 ≤ h.beats ∧ h.beats ≤ 12) then some 2
  else if ¬ (300000 ≤ h.pmin ∧ h.pmin ≤ h.nominal ∧ h.nominal ≤ h.pmax ∧ h.pmax ≤ 1500000) then some 3
  else if ¬ (1 ≤ h.verseSteps ∧ h.verseSteps ≤ 1024) then some 6
  else if 64 < h.amenSteps then some 7
  else if (match h.intro with
      | .absent => false
      | .present r => !(decide (r.first ≤ r.last) && decide (r.last < h.verseSteps))
      | .invalid _ => true) then some 8
  else if ¬ (h.verseSteps + h.amenSteps ≤ h.entries ∧ h.entries ≤ 9 * (h.verseSteps + h.amenSteps)) then
    some 9
  else none

def headerOf (h : HeaderFields) : Header :=
  { number := h.number, beats := h.beats, nominal := h.nominal, pmin := h.pmin, pmax := h.pmax,
    verseSteps := h.verseSteps, amenSteps := h.amenSteps,
    intro := match h.intro with
      | .present r => some (r.first, r.last)
      | _ => none,
    entries := h.entries }

/-- The record of a slot that TUNE_BEGIN has just made LOADING (R11). -/
def loadingSlot (h : Header) (start : Nat) : Slot :=
  { state := .LOADING, header := h, start := start, stepsWritten := 0, entriesWritten := 0,
    lastPosition := none, ends := none, faultFirst := none, faultMultiple := false, written := [] }

/-- TUNE_BEGIN (R11). A presence byte outside its values is an invalid introduction range (R12). -/
def answerTuneBegin (n : Nat) (h : HeaderFields) (s : State) : Answer :=
  if ¬ n < Config.slotCount then refuse s .BAD_FIELD
  else if s.store.clearEnd.isSome then refuse s .BUSY
  else if (slotRec s.store n).isSome then
    refuse s .WRONG_STATE (u8 (slotStateNumber (slotRec s.store n)))
  else
    match headerProblem h with
    | some p => badField s p
    | none =>
      match takeRun h.entries s.store.freeRuns with
      | none => refuse s .NO_SPACE (freeBytes s.store.freeRuns)
      | some (start, runs) =>
        ⟨.OK, u16 start,
          { s with store := { s.store with
              slots := s.store.slots.set none n (some (loadingSlot (headerOf h) start)),
              freeRuns := runs } }⟩

/-! ### TUNE_STEPS (R13, R14) -/

/-- The step before the one at index `i` in the same part, if there is one (R14). -/
def stepBefore (h : Header) (i : Nat) (last : Option Nat) : Option Nat :=
  if i = 0 ∨ i = h.verseSteps then none else last

/-- R14: the first invalid step of a list whose first step would have index `i`. -/
def firstInvalid (h : Header) : Nat → Option Nat → List StepFields → Option Nat
  | _, _, [] => none
  | i, last, f :: rest =>
    let ok := (asStep f).isSome &&
      (match stepBefore h i last with
       | some p => decide (p < f.position)
       | none => true)
    if ok then firstInvalid h (i + 1) (some f.position) rest else some i

def listEntries (steps : List StepFields) : Nat := steps.foldl (fun acc f => acc + 1 + f.notes.length) 0

/-- R5: the last position written after a step at position `p` has been written at index `i`: absent
when the next step begins the Amen part. -/
def positionAfter (h : Header) (i p : Nat) : Option Nat :=
  if i + 1 = h.verseSteps ∧ h.amenSteps ≠ 0 then none else some p

/-- One step written to the next unused entries of the extent (R13). -/
def writeStep (sl : Slot) (pool : Table PoolEntry) (f : StepFields) : Slot × Table PoolEntry :=
  let entry := sl.start + sl.entriesWritten
  ({ sl with stepsWritten := sl.stepsWritten + 1,
             entriesWritten := sl.entriesWritten + 1 + f.notes.length,
             lastPosition := positionAfter sl.header sl.stepsWritten f.position,
             written := sl.written ++ [⟨entry, f.position, f.duration⟩] },
   pool.setRun .blank entry (stepEntries f))

def writeSteps : Slot → Table PoolEntry → List StepFields → Slot × Table PoolEntry
  | sl, pool, [] => (sl, pool)
  | sl, pool, f :: rest =>
    let r := writeStep sl pool f
    writeSteps r.1 r.2 rest

/-- TUNE_STEPS, all or none (R13). -/
def answerTuneSteps (n first : Nat) (steps : List StepFields) (s : State) : Answer :=
  if ¬ n < Config.slotCount then refuse s .BAD_FIELD
  else if s.store.clearEnd.isSome then refuse s .BUSY
  else
    match slotRec s.store n with
    | none => refuse s .WRONG_STATE (u8 0)
    | some sl =>
      if sl.state ≠ .LOADING then refuse s .WRONG_STATE (u8 (slotStateNumber (some sl)))
      else if first ≠ sl.stepsWritten then refuse s .BAD_FIELD (u16 sl.stepsWritten)
      else
        match firstInvalid sl.header first sl.lastPosition steps with
        | some i => refuse s .BAD_FIELD (u16 i)
        | none =>
          let total := sl.header.verseSteps + sl.header.amenSteps
          if sl.stepsWritten + steps.length ≤ total
              ∧ sl.entriesWritten + listEntries steps ≤ sl.header.entries then
            let w := writeSteps sl s.store.pool steps
            ⟨.OK, u16 w.1.stepsWritten ++ u16 w.1.entriesWritten,
              { s with store := { s.store with slots := s.store.slots.set none n (some w.1),
                                               pool := w.2 } }⟩
          else
            refuse s .OVERFLOW (u16 (total - sl.stepsWritten) ++ u16 (sl.header.entries - sl.entriesWritten))

/-! ### TUNE_END and TUNE_ERASE (R10, R15, R16) -/

/-- The largest position + duration of a run of written steps (R10). -/
def lastEnd (ws : List Written) : Nat := ws.foldl (fun acc w => max acc (w.position + w.duration)) 0

/-- Position in its part of the first step of an introduction range. -/
def introBase (sl : Slot) : Nat :=
  match sl.header.intro with
  | some (first, _) =>
    match sl.written[first]? with
    | some w => w.position
    | none => 0
  | none => 0

/-- The section end positions of a tune, from what the store noted of its steps (R10, R15). -/
def sectionEnds (sl : Slot) : Ends :=
  { verse := lastEnd (sl.written.take sl.header.verseSteps),
    amen := if sl.header.amenSteps = 0 then none else some (lastEnd (sl.written.drop sl.header.verseSteps)),
    intro :=
      match sl.header.intro with
      | some (first, last) => some (lastEnd ((sl.written.take (last + 1)).drop first) - introBase sl)
      | none => none }

def endsBytes (e : Ends) : List Byte := u16 e.verse ++ opt u16 e.amen ++ opt u16 e.intro

/-- TUNE_END (R15). -/
def answerTuneEnd (n : Nat) (s : State) : Answer :=
  if ¬ n < Config.slotCount then refuse s .BAD_FIELD
  else if s.store.clearEnd.isSome then refuse s .BUSY
  else
    match slotRec s.store n with
    | none => refuse s .WRONG_STATE
    | some sl =>
      let total := sl.header.verseSteps + sl.header.amenSteps
      if sl.state ≠ .LOADING then refuse s .WRONG_STATE
      else if sl.stepsWritten ≠ total ∨ sl.entriesWritten ≠ sl.header.entries then
        refuse s .COUNT_MISMATCH
          (u16 sl.stepsWritten ++ u16 sl.entriesWritten ++ u16 total ++ u16 sl.header.entries)
      else
        ⟨.OK, endsBytes (sectionEnds sl),
          { s with store := { s.store with
              slots := s.store.slots.set none n
                (some { sl with state := .READY, ends := some (sectionEnds sl) }) } }⟩

/-- TUNE_ERASE (R16). -/
def answerTuneErase (n : Nat) (s : State) : Answer :=
  if ¬ n < Config.slotCount then refuse s .BAD_FIELD
  else if s.store.clearEnd.isSome then refuse s .BUSY
  else
    match slotRec s.store n with
    | none => refuse s .NOT_FOUND
    | some sl =>
      if sl.state = .PLAYING then refuse s .WRONG_STATE
      else
        let runs := giveRun sl.start sl.header.entries s.store.freeRuns
        ⟨.OK, freeBytes runs,
          { s with store := { s.store with slots := s.store.slots.set none n none, freeRuns := runs } }⟩

/-! ### TUNE_READ and GET_DIRECTORY (R19, R21) -/

def noteBytes (n : Note) : List Byte := u8 (voiceNumber n.voice) ++ u8 n.pitch ++ yn n.tieOn

def fermataBytes (f : Fermata) : List Byte :=
  u8 (match f.kind with | .TIMED => 0 | .CUED => 1) ++ u8 f.factor

def goodStepBytes (r : StepRec) : List Byte :=
  u16 r.position ++ u16 r.duration ++ yn r.follow ++ opt fermataBytes r.fermata
    ++ listBytes noteBytes r.notes

/-- The entry of a TUNE_READ reply for one step: its index, then whether it is FAULTY, then its
fields when it is good (log 10). -/
def readEntry (i : Nat) : Option StepRec → List Byte
  | some r => u16 i ++ yn false ++ goodStepBytes r
  | none => u16 i ++ yn true

/-- R19: reads and checks up to `count` steps from index `i`, as far as they fit in `room` bytes. -/
def readSteps (n : Nat) (sl : Slot) : Nat → Nat → Nat → State → Nat × List Byte × State
  | 0, _, _, s => (0, [], s)
  | count + 1, i, room, s =>
    if i < sl.stepsWritten then
      let got := readStep s.store sl i
      let bytes := readEntry i got
      if bytes.length ≤ room then
        let s' := if got.isSome then s else noteFault n i .console s
        let more := readSteps n sl count (i + 1) (room - bytes.length) s'
        (more.1 + 1, bytes ++ more.2.1, more.2.2)
      else (0, [], s)
    else (0, [], s)

/-- TUNE_READ (R19). -/
def answerTuneRead (n first count : Nat) (s : State) : Answer :=
  if ¬ n < Config.slotCount then refuse s .BAD_FIELD
  else if s.store.clearEnd.isSome then refuse s .BUSY
  else
    match slotRec s.store n with
    | none => refuse s .NOT_FOUND
    | some sl =>
      if ¬ (1 ≤ count ∧ count ≤ 64 ∧ first < sl.stepsWritten) then refuse s .BAD_FIELD
      else
        let r := readSteps n sl count first (Config.maxBody - 2) s
        ⟨.OK, u8 r.1 ++ r.2.1, r.2.2⟩

def headerBytes (h : Header) : List Byte :=
  u16 h.number ++ u8 h.beats ++ u32 h.nominal ++ u32 h.pmin ++ u32 h.pmax ++ u16 h.verseSteps
    ++ u8 h.amenSteps ++ opt (fun r => u16 r.1 ++ u16 r.2) h.intro ++ u16 h.entries

/-- One slot's entry of a GET_DIRECTORY reply (R21). -/
def slotEntry (o : Option Slot) : List Byte :=
  u8 (slotStateNumber o) ++
    match o with
    | none => []
    | some sl =>
      headerBytes sl.header ++ u16 sl.start ++ u16 sl.stepsWritten ++ u16 sl.entriesWritten
        ++ opt u16 sl.faultFirst ++ yn sl.faultMultiple
        ++ (if sl.state = .LOADING then [] else
              match sl.ends with
              | some e => endsBytes e
              | none => [])

/-- Slot entries from slot `n` on, at most `count` of them, as far as they fit in `room` bytes. -/
def slotEntries (st : Store) : Nat → Nat → Nat → Nat × List Byte
  | 0, _, _ => (0, [])
  | count + 1, n, room =>
    let bytes := slotEntry (slotRec st n)
    if bytes.length ≤ room then
      let more := slotEntries st count (n + 1) (room - bytes.length)
      (more.1 + 1, bytes ++ more.2)
    else (0, [])

def storeFaultBytes (st : Store) : List Byte :=
  opt (fun p => u8 p.1 ++ u16 p.2) st.faultHeld ++ yn st.faultMultiple

/-- The store state: CLEARING 0, READY 1. -/
def storeStateByte (st : Store) : List Byte := yn st.clearEnd.isNone

/-- GET_DIRECTORY (R21). -/
def answerGetDirectory (first : Nat) (s : State) : Answer :=
  if ¬ first < Config.slotCount then refuse s .BAD_FIELD
  else
    let lead := storeStateByte s.store ++ u16 (totalFree s.store.freeRuns)
      ++ u16 (longestFree s.store.freeRuns) ++ storeFaultBytes s.store
    let r := slotEntries s.store (Config.slotCount - first) first (Config.maxBody - 2 - lead.length)
    ⟨.OK, lead ++ u8 r.1 ++ r.2, s⟩

/-! ### Clearing (R22, R23) -/

/-- CLEAR_STORE (R22). -/
def answerClearStore (s : State) : Answer :=
  if s.player.state ≠ .IDLE then refuse s .WRONG_STATE
  else if s.store.clearEnd.isSome then refuse s .BUSY
  else ⟨.OK, [], { s with store := storeClearing s.now }⟩

/-- The end of a clearing, when its time has arrived (R22). -/
def endClearing (s : State) : State :=
  match s.store.clearEnd with
  | some t => if due s t then raise .storeReady { s with store := { s.store with clearEnd := none } } else s
  | none => s

/-- A slot's state changed, as START_HYMN and the return to IDLE do (R4). -/
def setSlotState (n : Nat) (x : SlotState) (st : Store) : Store :=
  match slotRec st n with
  | some sl => { st with slots := st.slots.set none n (some { sl with state := x }) }
  | none => st

end Sys2Proof.Machine
end

