-- ==== Sys2Proof/Machine/Planning.lean ====
section
/-! DEFINITION. The Lookahead Window: reading ahead, entering, planning and leaving of steps, the
fence, and fermata releases (R96 to R99, R104, R117, R123). -/

namespace Sys2Proof.Machine

/-! ### The tune being walked -/

/-- The slot number and record that the Player walks (R18). -/
def playingSlot (s : State) : Option (Nat × Slot) :=
  match s.player.slot with
  | some n => (slotRec s.store n).map (fun sl => (n, sl))
  | none => none

/-- First step index of a section and one past its last (R10, R90). -/
def sectionSteps (h : Header) (sec : Nat) : Nat × Nat :=
  if sec = 0 then
    match h.intro with
    | some (first, last) => (first, last + 1)
    | none => (0, 0)
  else if sec = Config.amenSection then (h.verseSteps, h.verseSteps + h.amenSteps)
  else (0, h.verseSteps)

/-- The section end position E (R10, R90). -/
def sectionEndOf (sl : Slot) (sec : Nat) : Nat :=
  match sl.ends with
  | none => 0
  | some e =>
    if sec = 0 then e.intro.getD 0
    else if sec = Config.amenSection then e.amen.getD 0
    else e.verse

/-- The end position of a section of the playing tune. -/
def endPosition (s : State) (sec : Nat) : Nat :=
  match playingSlot s with
  | some (_, sl) => sectionEndOf sl sec
  | none => 0

/-- What positions of a section are counted from (R10). -/
def sectionBase (sl : Slot) (sec : Nat) : Nat := if sec = 0 then introBase sl else 0

/-- The mode in which a section is played: a verse's own, PLAY otherwise (R117). -/
def sectionMode (p : Player) (sec : Nat) : Mode :=
  if sec = 0 ∨ sec = Config.amenSection then .PLAY
  else
    match planEntry p sec with
    | some e => e.mode
    | none => .PLAY

/-! ### Reading ahead (R96, R99) -/

/-- Reads steps of slot `n` from index `i`, `left` of them at most, until a good one is found: the
good step and whether faulty steps were passed over. -/
def readGood (n : Nat) (sl : Slot) : Nat → Nat → Bool → State → State × Option (Nat × StepRec) × Bool
  | 0, _, run, s => (s, none, run)
  | left + 1, i, run, s =>
    match readStep s.store sl i with
    | some r => (s, some (i, r), run)
    | none => readGood n sl left (i + 1) true (noteFault n i .player s)

/-- The read-ahead step of section `sec` read from index `i` on; whether a faulty run was found. -/
def readAheadFrom (sec i : Nat) (s : State) : State × Bool :=
  match playingSlot s with
  | none => ({ s with player := { s.player with readAhead := none } }, false)
  | some (n, sl) =>
    let r := readGood n sl ((sectionSteps sl.header sec).2 - i) i false s
    let ahead :=
      match r.2.1 with
      | some (j, rec) => some ⟨sec, j, rec.position - sectionBase sl sec, rec, r.2.2⟩
      | none => none
    ({ r.1 with player := { r.1.player with readAhead := ahead } }, r.2.2)

/-- A section's walking begins: its first step is read as the read-ahead step (R96). -/
def beginWalk (sec : Nat) (s : State) : State :=
  match playingSlot s with
  | some (_, sl) => (readAheadFrom sec (sectionSteps sl.header sec).1 s).1
  | none => s

/-! ### Planning (R97, R117) -/

def sameStep (sec index : Nat) (w : WindowStep) : Bool := w.sec == sec && w.index == index

/-- A step of the window changed. -/
def updateStep (sec index : Nat) (f : WindowStep → WindowStep) (p : Player) : Player :=
  { p with window := p.window.map (fun w => if sameStep sec index w then f w else w) }

/-- What the planning of step `w` is made with (R117). -/
def planContext (s : State) (w : WindowStep) : PlanContext :=
  { mode := sectionMode s.player w.sec,
    lift :=
      match s.player.registration with
      | some r => r.2.lift
      | none => 0,
    sectionEnd := endPosition s w.sec,
    tied :=
      match s.player.tied with
      | some t => if t.sec = w.sec then t.ties else []
      | none => [] }

/-- A step of the window handed to the Key Scheduler (R97, R117): whether it was planned. -/
def handStep (w : WindowStep) (s : State) : State × Bool :=
  let c := planContext s w
  let r := placeOrRefuse s w.sec w.index (stepDrafts c s.organ s.player.channels w)
  if r.2 then
    let p := updateStep w.sec w.index
      (fun x => { x with planned := true, released := x.fermata.isSome && x.release.isSome }) r.1.player
    ({ r.1 with player :=
        { p with tied := some ⟨w.sec, stepTies c.mode s.organ s.player.channels w⟩ } }, true)
  else (r.1, false)

/-- The earliest unplanned step of the window. -/
def firstUnplanned (p : Player) : Option WindowStep := p.window.find? (fun w => !w.planned)

/-- Unplanned steps handed in window order until one is refused or none is left (R117). -/
def planSteps : Nat → State → State
  | 0, s => s
  | n + 1, s =>
    match firstUnplanned s.player with
    | none => s
    | some w =>
      let r := handStep w s
      if r.2 then planSteps n r.1 else r.1

/-- A step handed when no earlier step of the window is unplanned (R97). -/
def handIfFirst (sec index : Nat) (s : State) : State :=
  match firstUnplanned s.player with
  | some w => if sameStep sec index w then (handStep w s).1 else s
  | none => s

/-! ### Entering (R96, R98) -/

/-- R98: the fence admits the step. -/
def fenceAdmits (f : Fence) (p : HymnPos) : Bool :=
  match f with
  | .NONE => true
  | .CLOSED => false
  | .upTo q => !posBefore q p

/-- R96: the read-ahead step enters now. Its entry time is found with the horizon in force, so one that a
raised horizon has put in the past counts as arrived (DEDUCED, log 40). -/
def entryDue (s : State) : Option ReadAhead :=
  match s.player.readAhead with
  | none => none
  | some r =>
    if s.player.window.length < Config.windowPlaces ∧ fenceAdmits s.player.fence ⟨r.sec, r.pos⟩ = true
        ∧ due s (predict s.follow ((r.pos : Int) - s.params.horizon)) = true then some r
    else none

def windowStepOf (r : ReadAhead) : WindowStep :=
  { sec := r.sec, index := r.index, pos := r.pos, dur := r.record.duration, follow := r.record.follow,
    fermata := r.record.fermata, notes := r.record.notes, next := none, run := false, planned := false,
    release := none, released := false }

/-- The successor of the step just entered, and the faulty run before it, made known to it; a step
that is planned already is extended over the run (R99, R124). -/
def attachSuccessor (sec index : Nat) (run : Bool) (s : State) : State :=
  let nx : Option Successor := s.player.readAhead.map (fun r => ⟨r.pos, r.record.notes⟩)
  let s' := { s with player := updateStep sec index (fun w => { w with next := nx, run := run }) s.player }
  match s'.player.window.find? (sameStep sec index) with
  | some w =>
    if run && w.planned && w.fermata.isNone then extendStep w (endPosition s sec) s' else s'
  | none => s'

/-- R98: the fence after a step has entered. -/
def fenceAfterEntry (r : ReadAhead) (p : Player) : Fence :=
  if r.record.fermata.isSome || p.readAhead.isNone then .upTo ⟨r.sec, r.pos⟩ else p.fence

/-- R96 to R98: the read-ahead step enters the window, the step after it is read, the fence is set,
and the step is handed for planning. -/
def enterStep (r : ReadAhead) (s : State) : State :=
  let s1 := { s with player := { s.player with window := s.player.window ++ [windowStepOf r] } }
  let ra := readAheadFrom r.sec (r.index + 1) s1
  let s2 := attachSuccessor r.sec r.index ra.2 ra.1
  let s3 := { s2 with player := { s2.player with fence := fenceAfterEntry r s2.player } }
  handIfFirst r.sec r.index s3

/-- Step entry judged until no step enters: whether one did (R96). -/
def enterDueSteps : Nat → State → State × Bool
  | 0, s => (s, false)
  | n + 1, s =>
    match entryDue s with
    | some r => ((enterDueSteps n (enterStep r s)).1, true)
    | none => (s, false)

/-! ### Leaving (R97) -/

/-- The step's sound time has arrived. A fermata step whose release is decided has sounded, wherever a
rebase has put the anchor since (R104), and so has a step of an earlier section than the anchor's. -/
def soundArrived (s : State) (w : WindowStep) : Bool :=
  if w.release.isSome then true
  else if w.sec = s.follow.anchor.sec then due s (predict s.follow w.pos) else decide (w.sec < s.follow.anchor.sec)

/-- R97: the step leaves the window. -/
def leaves (s : State) (w : WindowStep) : Bool :=
  w.planned && (w.fermata.isNone || w.released) && soundArrived s w

def leaveWindow (s : State) : State :=
  { s with player := { s.player with window := s.player.window.filter (fun w => !leaves s w) } }

/-- The earliest step that leaves the window has left. -/
def leaveFirst (s : State) : State :=
  { s with player := { s.player with window := s.player.window.eraseP (leaves s) } }

/-- R96: every step that an event admits. Entry is judged, and again each time a step that has sounded gives
its place in a full window to the read-ahead step (log 20, 21); and whether a step entered. -/
def admitSteps : Nat → State → State × Bool
  | 0, s => (s, false)
  | n + 1, s =>
    let r := enterDueSteps (Config.windowPlaces + 1) s
    let freed := leaveFirst r.1
    if (entryDue freed).isSome then ((admitSteps n freed).1, true) else r

/-! ### Fermata releases and freed places (R117, R123, R129) -/

/-- The keys of the notes of a step that made a key-down or RENEW, in the written order of its notes, which is
the order in which their release takes insertion numbers (R123; DEDUCED, log 55). -/
def stepKeys (s : State) (w : WindowStep) : List (Voice × Division × Nat) :=
  (routeNotes s.organ s.player.channels (sectionMode s.player w.sec) w.notes).map
    (fun n => (n.voice, n.division, n.key))

/-- A release request handed: one FIXED UP per key, all or none (R123), placed in the request's order of keys
(DEDUCED, log 55). -/
def handRelease (q : ReleaseRequest) (s : State) : State × Bool :=
  let r := placeOrRefuse s q.sec q.index (q.keys.map (fun k => draftFixed k.1 k.2.1 k.2.2 q.time))
  if r.2 then
    ({ r.1 with player := updateStep q.sec q.index (fun w => { w with released := true }) r.1.player }, true)
  else (r.1, false)

/-- Waiting release requests handed again, the first first, until one is refused: those left. -/
def handReleases : List ReleaseRequest → State → State × List ReleaseRequest
  | [], s => (s, [])
  | q :: rest, s =>
    let r := handRelease q s
    if r.2 then handReleases rest r.1 else (r.1, q :: rest)

/-- R117, R129: what is handed again when events have left the schedule. Held pairs left over (R131) come
before waiting fermata releases (R123), which no rule orders (DEDUCED, log 39). -/
def placesFreed (s : State) : State :=
  let s0 :=
    match s.player.heldRelease with
    | some sec => releaseHeld sec s
    | none => s
  let r := handReleases s0.player.releases s0
  let s1 := { r.1 with player := { r.1.player with releases := r.2 } }
  if r.2.isEmpty then planSteps (Config.windowPlaces + 1) s1 else s1

/-- R104, R123: a fermata's release time is decided. Its key-ups are planned, with the step itself
when that is still unplanned; a refused request waits. -/
def decideRelease (w : WindowStep) (t : Time) (s : State) : State :=
  let s1 := { s with player := updateStep w.sec w.index (fun x => { x with release := some t }) s.player }
  match s1.player.window.find? (sameStep w.sec w.index) with
  | none => s1
  | some x =>
    if x.planned then
      let q : ReleaseRequest := ⟨w.sec, w.index, t, stepKeys s1 x⟩
      let r := handRelease q s1
      if r.2 then r.1
      else { r.1 with player := { r.1.player with releases := r.1.player.releases ++ [q] } }
    else handIfFirst w.sec w.index s1

end Sys2Proof.Machine
end

