-- ==== Sys2Proof/Machine/Ending.lean ====
section
/-! DEFINITION. The end of a hymn: OFF for the Follower, the return to IDLE, and the ways a hymn is
stopped (R81, R82, R103, R112, R113, R131). -/

namespace Sys2Proof.Machine

/-- R82: the Follower enters OFF, keeping its anchor, period, last match time and last decision. -/
def followOff (f : Follow) : Follow :=
  { f with state := .OFF, window := none, lost := false, matched := 0, missed := 0, rebased := false }

/-- The Player of an IDLE part after a hymn: the plan and the last wait outcome kept (R103). R103 makes the voice
channels SILENT and does not name their transpositions, which become 0, their value at reset (R87)
(DESIGN CHOICE, log 60). -/
def idlePlayer (p : Player) : Player :=
  { playerAfterReset with plan := p.plan, lastOutcome := p.lastOutcome }

/-- The tune number of a slot. -/
def tuneNumber (st : Store) (n : Nat) : Nat :=
  match slotRec st n with
  | some sl => sl.header.number
  | none => 0

/-- R103: the entry to IDLE. -/
def becomeIdle (s : State) : State :=
  let slot := s.player.slot.getD 0
  let event := if s.player.state = .STOPPING then HymnEvent.stopped else .ended
  let s1 := { s with store := setSlotState slot .READY s.store, follow := followOff s.follow,
                     player := idlePlayer s.player, keyline := { s.keyline with watch := none } }
  emptyOnsets (raise (.hymn event slot (tuneNumber s.store slot)) s1)

/-- In ENDING or STOPPING, with nothing left to send and no key down (R103). -/
def idleDue (s : State) : Bool :=
  (s.player.state == .ENDING || s.player.state == .STOPPING) && s.keys.events.isEmpty && !anyDown s.map

def idleIfDone (s : State) : State := if idleDue s then becomeIdle s else s

/-- R113: the Player as it enters STOPPING from section `sec`. A fermata release that a full schedule refused
and that still waits for places goes: R113 and R129 do not name it (DESIGN CHOICE, log 49). -/
def stoppingPlayer (sec : Nat) (p : Player) : Player :=
  { p with state := .STOPPING, window := [], readAhead := none, wait := none, fermata := none, gap := none,
           fence := .NONE, goLatch := false, reservation := .NONE, releases := [], heldRelease := some sec,
           tied := none }

/-- R113: STOP_HYMN of mode NOW, up to the entry to STOPPING. -/
def stopNow (s : State) : State :=
  let sec := s.player.sec.getD 0
  let s1 := releaseHeld sec { s with keys := cancelAll s.keys }
  emptyOnsets
    { s1 with player := stoppingPlayer sec s1.player, follow := followOff s1.follow,
              keyline := { s1.keyline with watch := none } }

/-- R112: the verse in hand. -/
def verseInHand (pl : Plan) : Nat :=
  pl.entries.foldl (fun acc e => if e.latched ∧ e.mode ≠ .OMIT then max acc e.verse else acc) 0

/-- R112: the verse count set to the verse in hand, and the Amen option dropped when asked. -/
def cutPlan (drop : Bool) (pl : Plan) : Plan :=
  { pl with entries := pl.entries.filter (fun e => decide (e.verse ≤ verseInHand pl)),
            amen := pl.amen && !drop }

/-- In the Amen, or in a fermata within it (log 15). -/
def inAmen (p : Player) : Bool :=
  p.state == .AMEN || (p.state == .FERMATA && p.sec == some Config.amenSection)

/-- In the gap before the Amen. -/
def beforeAmen (p : Player) : Bool :=
  p.state == .GAP &&
    match p.gap with
    | some g => g.next == Config.amenSection
    | none => false

/-- R112, R131: DROP in the gap before the Amen ends the walk: the Amen's steps and events go, and the held
pairs are released, in every such gap (log 16). That a DROP which cancels no event hands the waiting
releases again all the same is the model's choice (DESIGN CHOICE, log 46). -/
def dropAmen (s : State) : State :=
  let p := { s.player with
    state := .ENDING, gap := none, wait := none, readAhead := none,
    window := s.player.window.filter (fun w => w.sec != Config.amenSection),
    heldRelease := some (s.player.sec.getD 0) }
  placesFreed { s with player := p, keys := cancelAmen s.keys }

/-- R112: an accepted END_OF_VERSE up to its effect on the walk; none when it is TOO_LATE. -/
def endOfVerse (drop : Bool) (s : State) : Option State :=
  let s1 := { s with player := { s.player with goLatch := false, reservation := .NONE } }
  let cut := { s1 with player := { s1.player with plan := s1.player.plan.map (cutPlan drop) } }
  if inAmen s.player then (if drop then none else some s1)
  else if s.player.state = .ENDING then some s1
  else if beforeAmen s.player then (if drop then some (idleIfDone (dropAmen cut)) else some s1)
  else some cut

/-- R81, R112: the Follower's lost indication under FINISH_VERSE. -/
def finishVerse (s : State) : State :=
  if s.player.state = .IDLE ∨ s.player.state = .STOPPING ∨ s.player.state = .ENDING then s
  else (endOfVerse true s).getD s

end Sys2Proof.Machine
end

