-- ==== Sys2Proof/Machine/Follow.lean ====
section
/-! DEFINITION. The Beat Follower: match windows, decisions, correction, follow states, rebase; and
what one event makes of the window, the entries and the departures together (chapter 4). -/

namespace Sys2Proof.Machine

/-! ### Reports (R62) -/

/-- The current position: floor, clamped into 0 to 65 535. -/
def currentPosition (now : Time) (f : Follow) : Nat :=
  (clampInt 0 65535 (f.anchor.pos + timeDiff now f.anchorTime * 19200 / (f.period : Int))).toNat

/-- The reported tempo in beats per minute. -/
def reportedTempo (f : Follow) : Nat := 60000000 / f.period

/-! ### Follow points and windows (R64 to R68) -/

/-- The step is marked as a follow point and lies in a verse that is walked or in the Amen (R64). -/
def followStep (p : Player) (w : WindowStep) : Bool :=
  w.follow && decide (1 ≤ w.sec) && sectionMode p w.sec != .OMIT

def stepPos (w : WindowStep) : HymnPos := ⟨w.sec, w.pos⟩

/-- R64: the step is a usable follow point. -/
def usable (s : State) (w : WindowStep) : Bool :=
  followStep s.player w && !posBefore (stepPos w) s.follow.cursor

/-- R65: the distance from the previous used follow point. -/
def previousDistance (f : Follow) (prev : Option HymnPos) (pos : Nat) : Option Int :=
  prev.map (fun p => timeDiff (predict f pos) (predict f p.pos))

/-- R65: the distance to the first follow point after `point` that is not too near. -/
def nextDistance (s : State) (point : HymnPos) : Option Int :=
  let far (w : WindowStep) : Int := timeDiff (predict s.follow w.pos) (predict s.follow point.pos)
  (s.player.window.find? (fun w =>
    followStep s.player w && posBefore point (stepPos w) && decide ((Config.nearFollow : Int) ≤ far w))).map far

/-- R66: the effective half width. -/
def effectiveWidth (w : Nat) (before after : Option Int) : Nat :=
  let limit (n : Nat) (g : Option Int) : Nat :=
    match g with
    | some d => min n (d / 2).toNat
    | none => n
  limit (limit w before) after

/-- R66: the open time, moved past the last close. -/
def openTime (own : Time) (lastClose : Option Time) : Time :=
  match lastClose with
  | some c => timeMax own (timePlus c 1)
  | none => own

/-- R67: the state of a window whose times are these. -/
def phaseAt (now opens closes : Time) : WindowPhase :=
  if arrived closes now then .DECIDING else if arrived opens now then .OPEN else .PENDING

/-- R65, R66: the window of follow point `point`, none when it is passed over. -/
def placeWindow (s : State) (prev : Option HymnPos) (point : HymnPos) (index : Nat) : Option MatchWindow :=
  let before := previousDistance s.follow prev point.pos
  let near :=
    match before with
    | some g => decide (g < Config.nearFollow)
    | none => false
  if near then none
  else
    let expected := timePlus (predict s.follow point.pos) s.params.choirLag
    let width := effectiveWidth s.params.halfWidth before (nextDistance s point)
    let closes := timePlus expected width
    let opens := openTime (timePlus expected (-(width : Int))) s.follow.lastClose
    if later opens closes then none
    else some ⟨point, index, expected, width, opens, closes, timePlus closes Config.decisionDelay,
      phaseAt s.now opens closes, prev⟩

/-- The follow cursor just after a position (R65). -/
def justAfter (p : HymnPos) : HymnPos := ⟨p.sec, p.pos + 1⟩

/-- R65: a window made for the earliest usable follow point that is not passed over. -/
def seek : Nat → State → State
  | 0, s => s
  | n + 1, s =>
    if s.follow.state = .OFF ∨ s.follow.window.isSome = true then s
    else
      match s.player.window.find? (usable s) with
      | none => s
      | some w =>
        let f := { s.follow with cursor := justAfter (stepPos w) }
        match placeWindow s s.follow.prevUsed (stepPos w) w.index with
        | none => seek n { s with follow := f }
        | some m => { s with follow := { f with window := some m, prevUsed := some (stepPos w) } }

/-- A search bounded by the window's places. -/
def seekWindow (s : State) : State := seek (Config.windowPlaces + 1) s

/-- R68: a PENDING window computed again from its follow point. -/
def recompute (s : State) : State :=
  match s.follow.window with
  | none => s
  | some m =>
    if m.phase ≠ .PENDING then s
    else
      match placeWindow s m.prevBefore m.point m.index with
      | some m' => { s with follow := { s.follow with window := some m' } }
      | none => seekWindow { s with follow := { s.follow with window := none, prevUsed := m.prevBefore } }

/-- The window as an event leaves it: sought when there is none, computed again when it is PENDING
and a step has entered or a parameter has changed; and whether it was made or computed in this event
(R65, R68). -/
def lookForWindow (again : Bool) (s : State) : State × Bool :=
  match s.follow.window with
  | none => (seekWindow s, true)
  | some m => if again && m.phase == .PENDING then (recompute s, true) else (s, false)

/-! ### The decision (R69 to R78) -/

/-- R69: the records timed from the open to the close inclusive. -/
def candidates (m : MatchWindow) (q : List Onset) : List Onset :=
  q.filter (fun o => !later m.opens o.time && !later o.time m.closes)

/-- R69: the strongest candidate, the earliest among equals. -/
def strongest : List Onset → Option Onset
  | [] => none
  | o :: rest =>
    match strongest rest with
    | none => some o
    | some x => if o.strength < x.strength then some x else some o

/-- R71: the gains of a match by its onset's class. -/
def gains (p : Params) (c : OnsetClass) : Nat × Nat :=
  if c = .MIXED then (p.phaseGain / 2, p.periodGain / 2) else (p.phaseGain, p.periodGain)

/-- R72: Φ. -/
def phaseShift (gain : Nat) (e : Int) : Int := roundDiv (gain * e) 256

/-- R73: ΔP, limited, from the period before the decision. -/
def periodStep (gain limit period : Nat) (e ds : Int) : Int :=
  limitInt (period * limit / 1000 : Nat)
    (roundDiv (gain * e * 100 * 192) (1024 * (max ds 96).toNat))

/-- R74: the tune's bounds on the period. -/
def periodBounds (s : State) : Nat × Nat :=
  match playingHeader s with
  | some h => (h.pmin, h.pmax)
  | none => (300000, 1500000)

/-- What an on-time match does: the Follower after it, the record's figures, and the bound that
clamped the period, if any (true for the upper). -/
structure Correction where
  follow : Follow
  error : Option Int
  phase : Int
  step : PeriodStep
  bound : Option Bool

/-- R72 to R74: an on-time match taken in TRACK. -/
def correctTrack (s : State) (m : MatchWindow) (o : Onset) : Correction :=
  let f := s.follow
  let e := timeDiff o.time m.expected
  let g := gains s.params o.cls
  let phi := phaseShift g.1 e
  let moved := { f with anchorTime := timePlus (predict f m.point.pos) phi, anchor := m.point }
  if f.rebased then ⟨{ moved with rebased := false }, some e, phi, .SKIPPED, none⟩
  else
    let dp := periodStep g.2 s.params.matchLimit f.period e ((m.point.pos : Int) - f.anchor.pos)
    let raw : Int := f.period + dp
    let b := periodBounds s
    let p := clampInt b.1 b.2 raw
    ⟨{ moved with period := p.toNat }, some e, phi, .applied dp,
      if p = raw then none else some (decide (p < raw))⟩

/-- R75: an on-time match taken in LEAD or COAST. -/
def reanchor (s : State) (m : MatchWindow) (o : Onset) : Correction :=
  ⟨{ s.follow with anchorTime := predict s.follow m.point.pos, anchor := m.point },
    some (timeDiff o.time m.expected), 0, .applied 0, none⟩

/-- R70 to R76: the correction a decision makes. A miss, and a late match, apply no period step, in TRACK too:
the step recorded is 0, where R86 gives a 0 outside TRACK alone and SKIPPED for the rebased indication
(DEDUCED, log 52). -/
def correction (s : State) (m : MatchWindow) (late : Bool) (hit : Option Onset) : Correction :=
  match hit with
  | some o =>
    if late then ⟨s.follow, none, 0, .applied 0, none⟩
    else if s.follow.state = .TRACK then correctTrack s m o
    else reanchor s m o
  | none => ⟨s.follow, none, 0, .applied 0, none⟩

/-- R77: the counts, and the last match time of a match. -/
def countDecision (hit : Option Onset) (f : Follow) : Follow :=
  match hit with
  | some o => { f with matched := min 255 (f.matched + 1), missed := 0, lastMatch := o.time }
  | none => { f with missed := min 255 (f.missed + 1), matched := 0 }

/-- R77: the follow state after a decision whose counts stand. -/
def followStateAfter (p : Params) (hit : Bool) (f : Follow) : FollowState :=
  match f.state with
  | .OFF => .OFF
  | .LEAD => if hit && decide (p.lockCount ≤ f.matched) then .TRACK else .LEAD
  | .TRACK => if !hit && decide (p.missLimit ≤ f.missed) then .COAST else .TRACK
  | .COAST => if hit && decide (p.lockCount ≤ f.matched) then .TRACK else .COAST

/-- R77: the entry to the state after; from COAST to TRACK, rebased on and lost off. -/
def enterFollowState (x : FollowState) (f : Follow) : Follow :=
  if f.state = .COAST ∧ x = .TRACK then { f with state := x, rebased := true, lost := false }
  else { f with state := x }

/-- The later of two hymn positions. -/
def posMax (a b : HymnPos) : HymnPos := if posBefore a b then b else a

/-- The anchor or the period differs (R63). -/
def changed (f g : Follow) : Bool :=
  !(f.anchorTime == g.anchorTime && f.anchor == g.anchor && f.period == g.period)

/-- R81: the lost indication goes on. -/
def loseChoir (s : State) : State :=
  let s1 := raise (.choirLost s.follow.lastMatch s.follow.anchor)
    { s with follow := { s.follow with lost := true } }
  if s.params.finishVerse then finishVerse s1 else s1

/-- R80: the lost time. -/
def lostTime (s : State) : Time := timePlus s.follow.lastMatch s.params.lostAfter

/-- R80: in COAST with the indication off, at or after the lost time. -/
def lostDue (s : State) : Bool := s.follow.state == .COAST && !s.follow.lost && due s (lostTime s)

def checkLost (s : State) : State := if lostDue s then loseChoir s else s

/-- R86: the record of a decision. -/
def decisionRecord (s : State) (m : MatchWindow) (late : Bool) (hit : Option Onset) (c : Correction)
    (after : FollowState) : Decision :=
  { point := m.point, index := m.index, time := m.decides, late := late, onset := hit,
    surplus := (candidates m s.listen.queue).length - 1,
    stale := (s.listen.queue.filter (fun o => later m.opens o.time)).length,
    error := c.error, phase := c.phase, step := c.step, clamped := c.bound.isSome, after := after }

/-- R74, R78: the flags a decision raises. -/
def decisionFlags (m : MatchWindow) (hit : Option Onset) (c : Correction) (found : Bool) (s : State) : State :=
  let s1 :=
    match c.bound with
    | some upper => raise (.tempoLimit upper c.follow.period m.point) s
    | none => s
  match hit with
  | some o => if found then raise (.choirFound m.point o.time) s1 else s1
  | none => s1

/-- The Follower after a decision but for the flags and the lost time (R70 to R77). -/
def followAfterDecision (s : State) (m : MatchWindow) : Follow × Correction × Option Onset × Bool :=
  let late := posBefore m.point s.follow.anchor
  let hit := strongest (candidates m s.listen.queue)
  let c := correction s m late hit
  let counted := countDecision hit c.follow
  let after := followStateAfter s.params hit.isSome counted
  let g := enterFollowState after counted
  ({ g with window := none, lastClose := some m.closes,
            cursor := posMax g.cursor (justAfter m.point),
            lastDecision := some (decisionRecord s m late hit c after) }, c, hit, late)

/-- R69 to R78, R80: window `m` is decided; whether the anchor or the period changed. -/
def decideWindow (m : MatchWindow) (s : State) : State × Bool :=
  let r := followAfterDecision s m
  let found := s.follow.state == .COAST && r.1.state == .TRACK && s.follow.lost
  let s1 := setOnsets (s.listen.queue.filter (fun o => later o.time m.closes)) { s with follow := r.1 }
  let s2 := decisionFlags m r.2.2.1 r.2.1 found s1
  (checkLost s2, changed s.follow r.1)

/-! ### One event's entries, windows and departures -/

/-- A window made or computed in this event whose decision time has come (R67). -/
def atOnce (s : State) (fresh : Bool) : Option MatchWindow :=
  if fresh then
    match s.follow.window with
    | some m => if due s m.decides then some m else none
    | none => none
  else none

/-- Every entry that the event admits (R96); then the Follower looks once, for a window or for a PENDING one
again (R65, R68); then the departures (R97). A window made too late is decided at once, and what its
decision brings is judged in the same way (R67, R70; log 20, 21). -/
def progress : Nat → State → State
  | 0, s => s
  | n + 1, s =>
    let r := admitSteps Config.cascadeBound s
    let l := lookForWindow r.2 r.1
    match atOnce l.1 l.2 with
    | some m =>
      let d := decideWindow m l.1
      progress n (if d.2 then retime d.1 else d.1)
    | none => leaveWindow l.1

/-- What an event brings with it once its own effects stand. -/
def settle (s : State) : State := progress Config.cascadeBound s

/-- R63: a change of the anchor or the period made known. -/
def makeKnown (s : State) : State := settle (retime s)

/-- R70: the decision event, with the search that ends it and the change it makes known. -/
def takeDecision (m : MatchWindow) (s : State) : State :=
  let d := decideWindow m s
  if d.2 then makeKnown d.1 else settle d.1

/-! ### Rebase and start (R79, R83) -/

/-- R83: what a rebase writes in the Follower. -/
def rebasedFollow (t : Time) (p : HymnPos) (f : Follow) : Follow :=
  { f with anchorTime := t, anchor := p, rebased := true, prevUsed := none, cursor := p,
           window :=
             match f.window with
             | some m => if m.phase = .PENDING then none else some m
             | none => none }

/-- R82, R83: a rebase asked by the Player, made known to the Key Scheduler. -/
def rebase (t : Time) (p : HymnPos) (s : State) : State :=
  if s.follow.state = .OFF then s else retime { s with follow := rebasedFollow t p s.follow }

/-- R79: the entry to LEAD. -/
def startFollow (position : HymnPos) (nominal : Nat) (s : State) : State :=
  let t := timePlus s.now (s.params.firmLead + largestSpeech s.organ)
  { s with follow :=
      { followAfterReset with
        state := .LEAD, anchorTime := t, anchor := position, period := nominal, lastMatch := t,
        cursor := position } }

end Sys2Proof.Machine
end

