-- ==== Sys2Proof/Machine/StopQueue.lean ====
section
/-! DEFINITION. The Stop Queue and the settle watch: what a latch hands to the Keyline Controller
(R155, R157). -/

namespace Sys2Proof.Machine

/-- R155: the targets of a registration, each with the state asked for, none for UNCHANGED: the stop
groups by division and group, then the expression targets by division (log 17). Stops at or above the stop
count are off. -/
def presentedTargets (o : Organ) (r : Registration) : List (Target × Option Nat) :=
  allDivisions.flatMap (fun d =>
      (List.range (stopGroups (divRec o d))).map (fun g =>
        (Target.stopGroup d g, some (groupStates ((divGet r.stops d).getD 0#32 &&& stopMask (divRec o d).stopCount) g))))
    ++ (allDivisions.filter (fun d => hasExpression (divRec o d))).map (fun d =>
        (Target.expression d,
          match divGet r.expression d with
          | some (.level n) => some n
          | _ => none))

/-- The eight key states of a group of the Sounding Map, key 8 × group in the least significant
bit; keys beyond the key count read as up (R163). -/
def groupKeys (o : Organ) (m : SoundingMap) (d : Division) (g : Nat) : Nat :=
  (List.range 8).foldl
    (fun acc i =>
      if 8 * g + i < (divRec o d).keyCount && keyDown m d (8 * g + i) then acc + 2 ^ i else acc) 0

/-- The state of a target as it stands in the Sounding Map. -/
def targetState (o : Organ) (m : SoundingMap) : Target → Nat
  | .keyGroup d g => groupKeys o m d g
  | .stopGroup d g => groupStates (divGet m.stops d &&& stopMask (divRec o d).stopCount) g
  | .expression d => divGet m.expression d

/-- A handed target replaces its entry in its place, or joins at the newest end. -/
def putEntry (e : StopEntry) (q : List StopEntry) : List StopEntry :=
  if q.any (fun x => x.target == e.target) then q.map (fun x => if x.target == e.target then e else x)
  else q ++ [e]

/-- R155: one presented target's effect on the queue. -/
def presentTarget (o : Organ) (m : SoundingMap) (now : Time) (q : List StopEntry)
    (t : Target × Option Nat) : List StopEntry :=
  match t.2 with
  | none => q
  | some v =>
    if v = targetState o m t.1 then q.filter (fun x => x.target != t.1) else putEntry ⟨t.1, v, now⟩ q

/-- A presented target is handed when it differs from the map (R155). -/
def handed (o : Organ) (m : SoundingMap) (t : Target × Option Nat) : Bool :=
  match t.2 with
  | none => false
  | some v => v != targetState o m t.1

/-- R91, R155, R157: a latch that prepares section `sec` presents registration `r`. -/
def presentRegistration (sec : Nat) (r : Registration) (s : State) : State :=
  let targets := presentedTargets s.organ r
  let watch : Option Watch :=
    if targets.any (handed s.organ s.map) then some ⟨sec, timePlus s.now s.params.stopSettle⟩ else none
  { s with keyline := { s.keyline with
      stopQueue := targets.foldl (presentTarget s.organ s.map s.now) s.keyline.stopQueue,
      watch := watch } }

end Sys2Proof.Machine
end

