-- ==== Sys2Proof/Machine/Plan.lean ====
section
/-! DEFINITION. The Verse Plan: its building, latching and passing over, the reservation, the
amendment, and how the plan is reported (R88 to R95). -/

namespace Sys2Proof.Machine

/-! ### Building (R89, R90) -/

/-- An entry with the defaults of R89. -/
def defaultEntry (pl : Plan) (v : Nat) : PlanEntry :=
  ⟨v, .PLAY, none, pl.transposition, pl.gap, false, none⟩

/-- The entry of verse `v`: its override, or the defaults. -/
def chosenEntry (pl : Plan) (overrides : List PlanEntry) (v : Nat) : PlanEntry :=
  (overrides.find? (fun e => e.verse == v)).getD (defaultEntry pl v)

/-- The verses 1 to `n`. -/
def versesTo (n : Nat) : List Nat := (List.range n).map (· + 1)

/-- R89: the plan of a START_HYMN whose fields are in range. -/
def buildPlan (f : StartFields) (overrides : List PlanEntry) : Plan :=
  let options : Plan :=
    { intro := f.intro == 1, amen := f.amen == 1, cued := f.startKind == 1,
      gap := ⟨f.gapLength, f.gapKind == 1⟩, join := f.join == 1, transposition := f.transposition,
      entries := [] }
  { options with entries := (versesTo f.verseCount).map (chosenEntry options overrides) }

def verseCount (pl : Plan) : Nat := pl.entries.length

/-- The lowest-numbered verse whose mode is not OMIT (R88). -/
def openingEntry (pl : Plan) : Option PlanEntry := pl.entries.find? (fun e => e.mode != .OMIT)

/-- R90, R101: the section that follows `sec`, and the gap before it. -/
def nextSection (introGap : Nat) (pl : Plan) (sec : Nat) : Option (Nat × Gap) :=
  if sec = Config.amenSection then none
  else
    match pl.entries.find? (fun e => decide (sec < e.verse) && e.mode != .OMIT) with
    | some e =>
      if sec = 0 then some (e.verse, ⟨introGap, false⟩)
      else
        match pl.entries.find? (fun x => x.verse == sec) with
        | some x => some (e.verse, x.gap)
        | none => some (e.verse, pl.gap)
    | none => if pl.amen then some (Config.amenSection, pl.gap) else none

/-! ### Latching and passing over (R91, R92) -/

def setEntries (f : PlanEntry → PlanEntry) (p : Player) : Player :=
  { p with plan := p.plan.map (fun pl => { pl with entries := pl.entries.map f }) }

/-- R91, sixth effect: a HELD reservation that names `v` becomes LOST. -/
def loseReservation (v : Nat) (s : State) : State :=
  match s.player.reservation with
  | .HELD r =>
    if r = v then
      raise (.reservationLost v) { s with player := { s.player with reservation := .LOST } }
    else s
  | _ => s

/-- R92: one OMIT verse is passed over. -/
def passOver (v : Nat) (s : State) : State :=
  loseReservation v
    { s with player := setEntries (fun e => if e.verse = v then { e with latched := true } else e) s.player }

/-- The OMIT verses below `v` that are not yet latched, in order. -/
def omitted (pl : Plan) (v : Nat) : List Nat :=
  (pl.entries.filter (fun e => decide (e.verse < v) && e.mode == .OMIT && !e.latched)).map (·.verse)

/-- R92: the OMIT verses below section `v` are passed over. -/
def passOverBelow (v : Nat) (s : State) : State :=
  match s.player.plan with
  | some pl => (omitted pl v).foldl (fun acc x => passOver x acc) s
  | none => s

/-- The registration that the latch of an entry puts in force (R91). -/
def registrationFor (s : State) (e : PlanEntry) : Option (Nat × Registration) :=
  match applies s.organ e.registration e.verse with
  | some r => some r
  | none => s.player.registration

/-- The channels of a registration under a transposition (R91). -/
def channelsOf (r : Registration) (transposition : Int) : PerVoice VoiceChannel :=
  voiceMap (fun d => ⟨d, transposition⟩) r.routing

/-- R91: verse `v` is latched, `sec` being the section that the latch prepares (R157). -/
def latch (sec v : Nat) (s : State) : State :=
  match planEntry s.player v with
  | none => s
  | some e =>
    let s1 :=
      match registrationFor s e with
      | some r =>
        presentRegistration sec r.2
          { s with player := { s.player with registration := some r,
                                             channels := channelsOf r.2 e.transposition } }
      | none => s
    let index := s1.player.registration.map (·.1)
    let mark (x : PlanEntry) : PlanEntry :=
      if x.verse = v then { x with latched := true, recorded := index } else x
    loseReservation v { s1 with player := setEntries mark s1.player }

/-- R95, R101: what the entry to the GAP before section `sec` fixes. -/
def fixSection (sec : Nat) (s : State) : State :=
  let s1 := passOverBelow sec s
  match planEntry s1.player sec with
  | some e => if e.latched then s1 else latch sec sec s1
  | none => s1

/-! ### The reservation and the amendment (R93, R94) -/

/-- The lowest-numbered verse whose entry is not latched. -/
def firstUnlatched (p : Player) : Option Nat :=
  match p.plan with
  | some pl => (pl.entries.find? (fun e => !e.latched)).map (·.verse)
  | none => none

/-- The verse count after an amendment that gives `n`. -/
def amendedCount (pl : Plan) (n : Option Nat) : Nat := n.getD (verseCount pl)

/-- R94: the plan amended. -/
def amendPlan (pl : Plan) (n : Option Nat) (amen : Option Bool) (changed : List PlanEntry) : Plan :=
  let pick (v : Nat) : PlanEntry :=
    match changed.find? (fun e => e.verse == v) with
    | some e => e
    | none => (pl.entries.find? (fun e => e.verse == v)).getD (defaultEntry pl v)
  { pl with entries := (versesTo (amendedCount pl n)).map pick, amen := amen.getD pl.amen }

/-! ### Reports (R92, R93) -/

def playerStateNumber : PlayerState → Nat
  | .IDLE => 0
  | .START_WAIT => 1
  | .INTRO => 2
  | .VERSE => 3
  | .FERMATA => 4
  | .GAP => 5
  | .AMEN => 6
  | .ENDING => 7
  | .STOPPING => 8

/-- INTRO, VERSE or AMEN with the section number. -/
def sectionBytes (sec : Nat) : List Byte :=
  u8 (if sec = 0 then 0 else if sec = Config.amenSection then 2 else 1) ++ u8 sec

def gapBytes (g : Gap) : List Byte := u16 g.length ++ yn g.cued

def entryBytes (e : PlanEntry) : List Byte :=
  u8 e.verse ++ u8 (modeNumber e.mode) ++ u8 (e.registration.getD Config.registrationCount)
    ++ i8 e.transposition ++ gapBytes e.gap ++ yn e.latched ++ opt u8 e.recorded

/-- The hymn options, the verse count and every entry (log 10). -/
def planBytes (pl : Plan) : List Byte :=
  yn pl.intro ++ yn pl.amen ++ yn pl.cued ++ gapBytes pl.gap ++ yn pl.join
    ++ listBytes entryBytes pl.entries

/-- The reservation in a report of the plan (R92): one byte, 0 for NONE, 1 for HELD and 2 for LOST, and behind a
1 alone the verse v_r, with no presence byte (DESIGN CHOICE, log 58). -/
def reservationBytes : Reservation → List Byte
  | .NONE => u8 0
  | .HELD v => u8 1 ++ u8 v
  | .LOST => u8 2

/-- The plan as GET_PLAN gives it (R92). -/
def planReport (p : Player) : List Byte :=
  u8 (playerStateNumber p.state) ++ opt sectionBytes p.sec ++ opt planBytes p.plan
    ++ reservationBytes p.reservation ++ opt u8 (firstUnlatched p)

/-- RESERVE_PLAN (R93). Behind v_r the reply carries the whole report of GET_PLAN, with the Player state, the
section state, the reservation as it now stands and the first unlatched verse (DEDUCED, log 54). -/
def answerReservePlan (s : State) : Answer :=
  if s.player.state = .IDLE ∨ s.player.state = .STOPPING then refuse s .WRONG_STATE
  else
    match firstUnlatched s.player with
    | none => refuse s .TOO_LATE
    | some v =>
      let p := { s.player with reservation := .HELD v }
      ⟨.OK, u8 v ++ planReport p, { s with player := p }⟩

/-- R94, third test: the field that is out of range, by its position in the request (entries 0, verse count
1, Amen option 2). Of several out of range the model names the first in that order (DESIGN CHOICE, log 57). -/
def amendProblem (f : AmendFields) : Option Nat :=
  let entriesOk :=
    decide (f.entries.length ≤ 12) &&
      match asEntries f.entries with
      | some es => distinctVerses es
      | none => false
  let countOk :=
    match asOptional f.verseCount with
    | some (some n) => decide (1 ≤ n) && decide (n ≤ 12)
    | some none => true
    | none => false
  let amenOk :=
    match asOptional f.amen with
    | some (some n) => isYesNo n
    | some none => true
    | none => false
  if !entriesOk then some 0 else if !countOk then some 1 else if !amenOk then some 2 else none

/-- The Amen step count of the playing tune is above 0. -/
def tuneHasAmen (s : State) : Bool :=
  match playingHeader s with
  | some h => decide (0 < h.amenSteps)
  | none => false

/-- R94, the tests after the fields' own, for a request whose fields lie in range. -/
def answerAmendFields (r : Nat) (pl : Plan) (n : Option Nat) (amen : Option Bool)
    (changed : List PlanEntry) (s : State) : Answer :=
  if changed.any (fun e => decide (e.verse < r)) then refuse s .TOO_LATE (u8 r)
  else if (match n with
      | some c => decide (c + 1 < r)
      | none => false) then refuse s .BAD_FIELD
  else if changed.any (fun e => decide (amendedCount pl n < e.verse)) then refuse s .BAD_FIELD
  else if amen = some true ∧ tuneHasAmen s = false then refuse s .BAD_FIELD
  else
    let pl' := amendPlan pl n amen changed
    ⟨.OK, planBytes pl',
      { s with player := { s.player with plan := some pl', reservation := .NONE } }⟩

/-- AMEND_PLAN (R94). -/
def answerAmendPlan (f : AmendFields) (s : State) : Answer :=
  match s.player.reservation with
  | .NONE => refuse s .NO_RESERVATION
  | .LOST => refuse s .TOO_LATE (opt u8 (firstUnlatched s.player))
  | .HELD r =>
    match amendProblem f with
    | some p => badField s p
    | none =>
      match s.player.plan, asOptional f.verseCount, asOptional f.amen, asEntries f.entries with
      | some pl, some n, some a, some es =>
        answerAmendFields r pl n (a.map (fun x => x == 1)) es s
      | _, _, _, _ => refuse s .BAD_FIELD

/-- GET_PLAN (R92). -/
def answerGetPlan (s : State) : Answer := ⟨.OK, planReport s.player, s⟩

end Sys2Proof.Machine
end

