-- ==== Sys2Proof/Machine/Walk.lean ====
section
/-! DEFINITION. Walking the hymn: section states, section ends, gaps, fermatas, cued waits and the
Go latch (R98 to R111). -/

namespace Sys2Proof.Machine

/-! ### Section states (R100) -/

/-- The Player state of section `sec`. -/
def sectionState (sec : Nat) : PlayerState :=
  if sec = 0 then .INTRO else if sec = Config.amenSection then .AMEN else .VERSE

def inSection (p : Player) : Bool := p.state == .INTRO || p.state == .VERSE || p.state == .AMEN

/-- R100: the entry to a section state other than from FERMATA. -/
def enterSection (sec : Nat) (s : State) : State :=
  let p := { s.player with state := sectionState sec, sec := some sec, wait := none, gap := none }
  raise (.verse sec ((s.player.registration.map (·.1)).getD 0) (sectionMode p sec)) { s with player := p }

/-- The fence lifted by the rebase it waits for, which is asked with it (R98). -/
def liftAndRebase (t : Time) (p : HymnPos) (s : State) : State :=
  rebase t p { s with player := { s.player with fence := .NONE } }

/-! ### Cued waits (R107 to R110) -/

/-- R107: a cued wait begins. The rule writes kind, resume position, minimum end and sub-phase. The wait start,
which the entry to WAITING writes, and the breath end, which the entry to BREATH writes, hold now until then
(DESIGN CHOICE, log 59); so do the model's own two fields of the BREATH (log 24). -/
def beginWait (k : WaitKind) (resume : HymnPos) (minimum : Int) (s : State) : State :=
  let w : Wait :=
    { kind := k, phase := .MINIMUM, resume := resume, minimumEnd := timePlus s.now minimum,
      start := s.now, breathEnd := s.now, began := s.now, byOnset := false }
  { s with player := { s.player with wait := some w } }

/-- R108: the wait `w` resumes, with the rebased time `t`. -/
def resumeWait (w : Wait) (t : Time) (byOnset : Bool) (s : State) : State :=
  let breathing : Wait := { w with phase := .BREATH, breathEnd := t, began := s.now, byOnset := byOnset }
  let s1 := liftAndRebase t w.resume { s with player := { s.player with wait := some breathing } }
  settle (if w.kind = .fermata then s1 else beginWalk w.resume.sec s1)

/-- The rebased time of a resume by GO, by max wait or by a void wait (R108). -/
def breathTime (s : State) : Time := timePlus s.now s.params.breath

/-- The wait record in a given sub-phase. -/
def waitIn (p : Player) (x : WaitPhase) : Option Wait :=
  match p.wait with
  | some w => if w.phase = x then some w else none
  | none => none

/-- R107: the wait is void. -/
def voidWait (w : Wait) (s : State) : State :=
  let s1 := { s with player := { s.player with goLatch := false, lastOutcome := some .void } }
  resumeWait w (breathTime s) false (raise (.wait .void w.kind w.resume) s1)

/-- R107: the wait enters WAITING. The breath end stays as the wait's beginning left it (log 59). -/
def enterWaiting (w : Wait) (s : State) : State :=
  let waiting : Wait := { w with phase := .WAITING, start := s.now }
  raise (.wait .waiting w.kind w.resume)
    { s with player := { s.player with wait := some waiting, lastOutcome := some .waiting } }

/-- The release of a CUED fermata at the end of its minimum (R106). -/
def releaseAtMinimum (w : Wait) (s : State) : State :=
  match s.player.fermata with
  | some f => if w.kind = .fermata then settle (decideRelease f.step w.minimumEnd s) else s
  | none => s

/-- R107: the minimum end arrives. -/
def endMinimum (w : Wait) (s : State) : State :=
  let s1 := releaseAtMinimum w s
  if s1.player.goLatch then voidWait w s1 else enterWaiting w s1

/-- R109: the breath end arrives. -/
def endBreath (w : Wait) (s : State) : State :=
  match w.kind with
  | .fermata =>
    { s with player := { s.player with state := sectionState (s.player.sec.getD 0), wait := none,
                                       fermata := none } }
  | .gap | .start => enterSection w.resume.sec s

/-- R108: the time at which the max wait expires, none without a limit. -/
def maxWaitEnd (s : State) (w : Wait) : Option Time :=
  if s.params.maxWait = 0 then none else some (timePlus w.start s.params.maxWait)

/-- R109: an onset in a BREATH that no onset began pulls the resume earlier. -/
def pullBreath (w : Wait) (t : Time) (s : State) : State :=
  let pulled : Wait := { w with breathEnd := t }
  settle (rebase t w.resume { s with player := { s.player with wait := some pulled } })

/-- R108, R109: a CHOIR onset timed `t` is made known to the Player: the part after, and whether the
onset ended a WAITING or a BREATH. -/
def knowOnset (t : Time) (s : State) : State × Bool :=
  let resumed := timePlus t (-(s.params.choirLag : Int))
  if joinOn s.player then
    match s.player.wait with
    | some w =>
      match w.phase with
      | .MINIMUM => (s, false)
      | .WAITING => (resumeWait w resumed true s, true)
      | .BREATH =>
        if !w.byOnset && !later w.began t && later w.breathEnd resumed then (pullBreath w resumed s, true)
        else (s, false)
    | none => (s, false)
  else (s, false)

/-! ### Fermatas (R104 to R106) -/

/-- The fermata step of the section whose sound time has arrived (R100, R104). -/
def fermataDue (s : State) : Option WindowStep :=
  if inSection s.player then
    s.player.window.find? (fun w =>
      w.fermata.isSome && w.release.isNone && some w.sec == s.player.sec && soundArrived s w)
  else none

/-- R104: the hold. -/
def holdOf (s : State) (factor dur : Nat) : Int :=
  min (roundDiv (factor * dur * s.follow.period : Nat) 76800) s.params.fermataCap

/-- R104: the resume position of a fermata in section `sec`. -/
def resumePosition (s : State) (sec : Nat) : HymnPos :=
  match s.player.readAhead with
  | some r => if r.sec = sec then ⟨sec, r.pos⟩ else ⟨sec, endPosition s sec⟩
  | none => ⟨sec, endPosition s sec⟩

/-- R145: every key that is down has its cipher deadline set to now + cipher limit. -/
def renewKeys (deadline : Time) (m : SoundingMap) : SoundingMap :=
  { m with keys := ⟨m.keys.cells.map (fun c =>
      if c.2.holders.isEmpty then c else (c.1, { c.2 with deadline := deadline }))⟩ }

/-- R104: the entry to FERMATA for step `w`. -/
def enterFermata (w : WindowStep) (f : Fermata) (s : State) : State :=
  let h := holdOf s f.factor w.dur
  let back := timePlus s.now (h + s.params.breath)
  let resume := resumePosition s w.sec
  let rec_ : FermataRecord := { step := w, kind := f.kind, sound := s.now, hold := h, back := back }
  let s1 := { s with player := { s.player with state := .FERMATA, fermata := some rec_ },
                     map := renewKeys (timePlus s.now s.params.cipherLimit) s.map }
  match f.kind with
  | .TIMED => settle (liftAndRebase back resume (decideRelease w (timePlus s.now h) s1))
  | .CUED => beginWait .fermata resume h s1

/-- R105: the rebased time of a TIMED fermata has arrived. -/
def fermataBackDue (s : State) : Bool :=
  match s.player.state, s.player.fermata with
  | .FERMATA, some f => f.kind == .TIMED && due s f.back
  | _, _ => false

/-- R105: the return to the section state. -/
def returnFromFermata (s : State) : State :=
  { s with player := { s.player with state := sectionState (s.player.sec.getD 0), fermata := none } }

/-! ### Section ends and gaps (R101, R102) -/

/-- The section end time has arrived, with no fermata due before it (R100). -/
def sectionEndDue (s : State) : Bool :=
  inSection s.player && (fermataDue s).isNone &&
    match s.player.sec with
    | some n => n == s.follow.anchor.sec && due s (predict s.follow (endPosition s n))
    | none => false

/-- R97: what leaves the window at the end of section `sec`: the steps still unplanned, and fermata
steps whose key-ups still wait. -/
def staysPastEnd (sec : Nat) (w : WindowStep) : Bool :=
  !(w.sec == sec && (!w.planned || (w.fermata.isSome && !w.released)))

/-- The timed length of a gap (R102). -/
def gapUnits (period length : Nat) : Int := roundDiv (length * period : Nat) 19200

/-- R102: the entry to the gap before section `next`. -/
def enterGap (next : Nat) (g : Gap) (s : State) : State :=
  let units := gapUnits s.follow.period g.length
  let stop := timePlus s.now units
  let record : GapRecord := ⟨next, if g.cued then none else some stop⟩
  let s1 := { s with player := { s.player with state := .GAP, gap := some record } }
  if g.cued then beginWait .gap ⟨next, 0⟩ units s1
  else settle (beginWalk next (liftAndRebase stop ⟨next, 0⟩ s1))

/-- R101: section `sec` ends. -/
def endSection (sec : Nat) (s : State) : State :=
  let s1 := { s with player := { s.player with window := s.player.window.filter (staysPastEnd sec),
                                               readAhead := none } }
  match s1.player.plan.bind (fun pl => nextSection s.params.introGap pl sec) with
  | some (next, g) => enterGap next g (fixSection next s1)
  | none =>
    let s2 := passOverBelow Config.amenSection s1
    { s2 with player := { s2.player with state := .ENDING } }

/-- R102: the end time of a TIMED gap has arrived. -/
def gapDue (s : State) : Option Nat :=
  match s.player.state, s.player.gap with
  | .GAP, some g =>
    match g.timedEnd with
    | some t => if due s t then some g.next else none
    | none => none
  | _, _ => none

/-! ### What follows at once -/

/-- The Player's next transition that is due in the state it stands in, taken in the order: idle,
a wait's minimum, its breath, a gap, a fermata's return, a fermata, a section end (R100, log 21). -/
def nextAtOnce (s : State) : Option State :=
  if idleDue s then some (becomeIdle s)
  else
    match waitIn s.player .MINIMUM, waitIn s.player .BREATH, gapDue s, fermataDue s, s.player.sec with
    | some w, _, _, _, _ => if due s w.minimumEnd then some (endMinimum w s) else none
    | _, some w, _, _, _ => if due s w.breathEnd then some (endBreath w s) else none
    | _, _, some n, _, _ => some (enterSection n s)
    | _, _, _, fd, sec =>
      if fermataBackDue s then some (returnFromFermata s)
      else
        match fd, sec with
        | some w, _ => w.fermata.map (fun f => enterFermata w f s)
        | none, some n => if sectionEndDue s then some (endSection n s) else none
        | none, none => none

/-- The Player's transitions that act at once after one of them. -/
def chain : Nat → State → State
  | 0, s => s
  | n + 1, s =>
    match nextAtOnce s with
    | some t => chain n t
    | none => s

/-- A transition of the Player with everything that acts at once after it. Where two rebases come of one event
(a gap of length 0 or a resume behind now, then a TIMED fermata or a section end that is due at once), the
Follower looks after each, for R65 names each rebase and yet one look in an event: a window that the first
look leaves OPEN or DECIDING stands, made without the steps that the second rebase admits (DESIGN CHOICE,
log 51). -/
def follows (s : State) : State := chain Config.atOnceBound s

/-! ### START_HYMN (R88, R89) -/

/-- R88, sixth test: the field that is out of range, by its position in the request. Of several out of range
the model names the first in the order of the request's fields (DESIGN CHOICE, log 57). -/
def startProblem (f : StartFields) : Option Nat :=
  if ¬ (1 ≤ f.verseCount ∧ f.verseCount ≤ 12) then some 1
  else if !isYesNo f.intro then some 2
  else if !isYesNo f.amen then some 3
  else if !isYesNo f.startKind then some 4
  else if 1536 < f.gapLength then some 5
  else if !isYesNo f.gapKind then some 6
  else if !isYesNo f.join then some 7
  else if ¬ (-12 ≤ f.transposition ∧ f.transposition ≤ 12) then some 8
  else
    match asEntries f.overrides with
    | some es =>
      if f.overrides.length ≤ 12 ∧ distinctVerses es = true
          ∧ es.all (fun e => decide (e.verse ≤ f.verseCount)) = true then none
      else some 9
    | none => some 9

/-- The hymn position at which the hymn of plan `pl` begins, its opening verse being `opening` (R89). -/
def hymnStart (pl : Plan) (opening : Nat) : HymnPos := ⟨if pl.intro then 0 else opening, 0⟩

/-- R89: what an accepted START_HYMN of slot `n` with header `h` sets: the plan and the opening verse's
latch, the slot PLAYING, and the Follower's first anchor and period, made known as a change (R79, R63). -/
def openHymn (n : Nat) (h : Header) (pl : Plan) (opening : Nat) (s : State) : State :=
  let p : Player := { playerAfterReset with plan := some pl, slot := some n }
  let s1 := latch (hymnStart pl opening).sec opening (passOverBelow opening { s with player := p })
  let s2 := { s1 with store := setSlotState n .PLAYING s1.store }
  raise (.hymn .started n h.number) (retime (startFollow (hymnStart pl opening) h.nominal s2))

/-- R89, R110: the hymn opened, then START_WAIT, or the first section and its walking. -/
def startHymn (n : Nat) (h : Header) (pl : Plan) (opening : Nat) (s : State) : State :=
  let start := hymnStart pl opening
  let t := openHymn n h pl opening s
  if pl.cued then
    follows (beginWait .start start 0
      { t with player := { t.player with state := .START_WAIT, fence := .CLOSED } })
  else follows (settle (beginWalk start.sec (enterSection start.sec t)))

/-- The slot is READY and its record (R88). -/
def readySlot (st : Store) (n : Nat) : Option Slot :=
  match slotRec st n with
  | some sl => if sl.state = .READY then some sl else none
  | none => none

/-- START_HYMN (R88, R89). -/
def answerStartHymn (f : StartFields) (s : State) : Answer :=
  if ¬ f.slot < Config.slotCount then refuse s .BAD_FIELD
  else if s.player.state ≠ .IDLE then refuse s .WRONG_STATE
  else if s.keyline.state = .OFF then refuse s .WRONG_STATE
  else if s.store.clearEnd.isSome then refuse s .BUSY
  else
    match readySlot s.store f.slot with
    | none => refuse s .NOT_FOUND
    | some sl =>
      match startProblem f, asEntries f.overrides with
      | some p, _ => badField s p
      | none, none => refuse s .BAD_FIELD
      | none, some es =>
        let pl := buildPlan f es
        if pl.intro && sl.header.intro.isNone then refuse s .BAD_FIELD
        else if pl.amen && sl.header.amenSteps == 0 then refuse s .BAD_FIELD
        else
          match openingEntry pl with
          | none => refuse s .BAD_FIELD
          | some e =>
            match applies s.organ e.registration e.verse with
            | none => refuse s .BAD_FIELD
            | some _ =>
              let t := startHymn f.slot sl.header pl e.verse s
              ⟨.OK, (t.player.plan.map planBytes).getD [], t⟩

/-! ### GO (R111) -/

def answerGo (s : State) : Answer :=
  if s.player.state = .IDLE ∨ s.player.state = .STOPPING then refuse s .WRONG_STATE
  else
    match waitIn s.player .WAITING with
    | some w => ⟨.OK, [], follows (resumeWait w (breathTime s) false s)⟩
    | none =>
      if s.player.goLatch then refuse s .ALREADY_LATCHED
      else ⟨.LATCHED, [], { s with player := { s.player with goLatch := true } }⟩

/-! ### STOP_HYMN (R112, R113) -/

/-- The verse count and Amen option in force. -/
def stopFields (s : State) : List Byte :=
  match s.player.plan with
  | some pl => u8 (verseCount pl) ++ yn pl.amen
  | none => []

/-- STOP_HYMN of mode END_OF_VERSE; the Amen byte is 0 for KEEP, 1 for DROP (R112). -/
def answerStopEndOfVerse (amen : Nat) (s : State) : Answer :=
  if !isYesNo amen then refuse s .BAD_FIELD
  else if s.player.state = .IDLE ∨ s.player.state = .STOPPING then refuse s .WRONG_STATE
  else
    match endOfVerse (amen == 1) s with
    | none => refuse s .TOO_LATE
    | some t => ⟨.OK, stopFields t, t⟩

/-- STOP_HYMN of mode NOW (R113, log 14). -/
def answerStopNow (s : State) : Answer :=
  if s.player.state = .IDLE ∨ s.player.state = .STOPPING then refuse s .WRONG_STATE
  else ⟨.OK, [], idleIfDone (stopNow s)⟩

/-- STOP_HYMN by its mode byte (R112). -/
def answerStopHymn (mode amen : Nat) (s : State) : Answer :=
  match mode with
  | 0 => answerStopEndOfVerse amen s
  | 1 => answerStopNow s
  | _ => refuse s .BAD_FIELD

end Sys2Proof.Machine
end

