-- ==== Sys2Proof/Machine/Keyline.lean ====
section
/-! DEFINITION. The Keyline Controller: the Sounding Map and the Leak Mask at a composition, the
cipher guard, frames, echoes, FAULT, SWEEP, ALL_OFF and the keyline enable (chapters 7 and 8). -/

namespace Sys2Proof.Machine

/-! ### The Leak Mask (R140 to R143) -/

/-- R142: the later of a deadline held and a new one, at composition time `f`. -/
def laterOf (f held new : Time) : Time :=
  if 1 ≤ timeDiff held f ∧ timeDiff held f ≤ Config.leakReach then timeMax held new else new

/-- R140: a key of division `d` has gone down. -/
def leakDown (o : Organ) (f : Time) (d : Division) (k : Nat) (l : Table LeakEntry) : Table LeakEntry :=
  let r := divRec o d
  if r.leakTracking then
    let c := keyClass o d k
    let e := leakEntry l c
    l.set noLeak c { e with held := e.held + 1,
                            fresh := laterOf f e.fresh (timePlus f (r.acoustic + Config.freshUnits)) }
  else l

/-- R141: a key of division `d` has gone up. -/
def leakUp (o : Organ) (f : Time) (d : Division) (k : Nat) (l : Table LeakEntry) : Table LeakEntry :=
  let r := divRec o d
  if r.leakTracking then
    let c := keyClass o d k
    let e := leakEntry l c
    if e.held = 1 then
      l.set noLeak c { e with held := 0, tail := laterOf f e.tail (timePlus f r.leakTail) }
    else l.set noLeak c { e with held := e.held - 1 }
  else l

/-- R143: every held count 0, every tail deadline `tail`, fresh deadlines kept. -/
def silenceLeak (tail : Time) (l : Table LeakEntry) : Table LeakEntry :=
  (List.range 12).foldl (fun acc c => acc.set noLeak c ⟨0, tail, (leakEntry l c).fresh⟩) l

/-- R143: the map and the mask emptied at now. -/
def silenceMap (s : State) : State :=
  { s with map := { s.map with keys := ⟨[]⟩ },
           leak := silenceLeak (timePlus s.now (largestTail s.organ)) s.leak }

/-! ### A composition (R134 to R137, R144, R152 to R154) -/

/-- A composition in progress: the part as it moves, the key groups given a slot in order, the keys
that went up in it, the keys with an event left behind (true behind a slip), the events left in the
schedule and, of those, the slipped ones. -/
structure Comp where
  state : State
  slots : List (Division × Nat)
  wentUp : List (Division × Nat)
  blocked : List (Division × Nat × Bool)
  kept : List KeyEvent
  slipped : List KeyEvent

/-- The key group of a key. -/
def groupOf (d : Division) (k : Nat) : Division × Nat := (d, k / 8)

def setKey (m : SoundingMap) (d : Division) (k : Nat) (e : KeyEntry) : SoundingMap :=
  { m with keys := m.keys.set noKey (keyId d k) e }

/-- R134: a DOWN of voice `v` taken at `f`. -/
def takeDown (f : Time) (v : Voice) (d : Division) (k : Nat) (s : State) : State :=
  let e := keyEntry s.map d k
  let m := setKey s.map d k ⟨addVoice v e.holders, timePlus f s.params.cipherLimit⟩
  { s with map := m, leak := if e.holders.isEmpty then leakDown s.organ f d k s.leak else s.leak }

/-- R135: an UP of voice `v` taken at `f`; ignored when the voice does not hold the key. -/
def takeUp (f : Time) (v : Voice) (d : Division) (k : Nat) (s : State) : State :=
  let e := keyEntry s.map d k
  if e.holders.contains v then
    let left := dropVoice v e.holders
    { s with map := setKey s.map d k { e with holders := left },
             leak := if left.isEmpty then leakUp s.organ f d k s.leak else s.leak }
  else s

/-- R135: a RENEW of voice `v` taken at `f`; ignored when the voice does not hold the key. -/
def takeRenew (f : Time) (v : Voice) (d : Division) (k : Nat) (s : State) : State :=
  let e := keyEntry s.map d k
  if e.holders.contains v then
    { s with map := setKey s.map d k { e with deadline := timePlus f s.params.cipherLimit } }
  else s

/-- What taking an event would do to its key: some true when it goes down, some false when it goes
up, none for no change (R134, R135). -/
def keyChange (m : SoundingMap) (e : KeyEvent) : Option Bool :=
  let h := (keyEntry m e.division e.key).holders
  match e.kind with
  | .DOWN => if h.isEmpty then some true else none
  | .UP => if h.contains e.voice && (dropVoice e.voice h).isEmpty then some false else none
  | .RENEW => none

/-- R157: a DOWN of the watched section is compared with the settle time. -/
def judgeWatch (e : KeyEvent) (s : State) : State :=
  match s.keyline.watch with
  | some w =>
    if e.kind = .DOWN ∧ e.sec = w.sec then
      let t := { s with keyline := { s.keyline with watch := none } }
      if later w.settle e.time then raise (.regLate w.sec e.time w.settle) t else t
    else s
  | none => s

/-- An event taken into the frame. -/
def applyEvent (f : Time) (e : KeyEvent) (s : State) : State :=
  let t := judgeWatch e s
  match e.kind with
  | .DOWN => takeDown f e.voice e.division e.key t
  | .UP => takeUp f e.voice e.division e.key t
  | .RENEW => takeRenew f e.voice e.division e.key t

/-- The event taken, its group given a slot when asked, its key noted when it went up. -/
def takeEvent (f : Time) (e : KeyEvent) (slots : List (Division × Nat)) (c : Comp) : Comp :=
  { c with state := applyEvent f e c.state, slots := slots,
           wentUp := if keyChange c.state.map e = some false then (e.division, e.key) :: c.wentUp
                     else c.wentUp }

/-- The event left in the schedule, slipped or held back. -/
def leaveEvent (e : KeyEvent) (slip : Bool) (c : Comp) : Comp :=
  { c with blocked := c.blocked ++ [(e.division, e.key, slip)], kept := c.kept ++ [e],
           slipped := if slip then c.slipped ++ [e] else c.slipped }

/-- Why the events of a key stay behind: an earlier one held back (false) or slipped (true). -/
def behind (c : Comp) (e : KeyEvent) : Option Bool :=
  (c.blocked.find? (fun b => b.1 == e.division && b.2.1 == e.key)).map (·.2.2)

/-- R154, R159: one due event in a composition with `limit` change slots, none for no limit. -/
def composeEvent (f : Time) (limit : Option Nat) (c : Comp) (e : KeyEvent) : Comp :=
  if e.kind = .DOWN ∧ c.wentUp.contains (e.division, e.key) = true ∧ behind c e ≠ some true then
    leaveEvent e false c
  else
    match behind c e with
    | some slip => leaveEvent e slip c
    | none =>
      if (keyChange c.state.map e).isNone then takeEvent f e c.slots c
      else
        let g := groupOf e.division e.key
        if c.slots.contains g then takeEvent f e c.slots c
        else
          match limit with
          | none => takeEvent f e c.slots c
          | some n => if c.slots.length < n then takeEvent f e (c.slots ++ [g]) c else leaveEvent e true c

/-- R144: one key released by the cipher guard. -/
def cipherRelease (f : Time) (c : Comp) (x : Division × Nat × KeyEntry) : Comp :=
  let s := c.state
  let released : State :=
    { s with map := setKey s.map x.1 x.2.1 { x.2.2 with holders := [] },
             leak := leakUp s.organ f x.1 x.2.1 s.leak }
  { c with state := raise (.cipher x.1 x.2.1 x.2.2.holders f) released,
           wentUp := (x.1, x.2.1) :: c.wentUp }

/-- R144: the keys due for release, in order of division and key number. -/
def cipherDue (m : SoundingMap) (f : Time) : List (Division × Nat × KeyEntry) :=
  (downKeys m).filter (fun x => arrived x.2.2.deadline f)

/-- The groups of a list of keys, each once, in order. -/
def groupsOf (l : List (Division × Nat × KeyEntry)) : List (Division × Nat) :=
  (l.map (fun x => groupOf x.1 x.2.1)).eraseDups

def emptyComp (s : State) : Comp := ⟨s, [], [], [], [], []⟩

/-- The composition's cipher releases at `f`. -/
def composeReleases (f : Time) (s : State) : Comp :=
  (cipherDue s.map f).foldl (cipherRelease f) (emptyComp s)

/-- R153: the owed groups: the release carry list, then those of this composition. -/
def owedGroups (carry : List (Division × Nat)) (new : List (Division × Nat)) : List (Division × Nat) :=
  carry ++ new.filter (fun g => !carry.contains g)

/-- R154: the slips of a composition reported. -/
def reportSlips (f : Time) (slipped : List KeyEvent) (s : State) : State :=
  match slipped with
  | [] => { s with keyline := { s.keyline with slips := 0 } }
  | e :: _ =>
    let n := min 255 slipped.length
    raise (.keylineSlip f n e.division e.key e.time) { s with keyline := { s.keyline with slips := n } }

/-! ### Stop entries (R138, R156) -/

/-- The stop states with those of group `g` replaced. -/
def setGroup (b : BitVec 32) (g v : Nat) : BitVec 32 :=
  (b &&& ~~~(255#32 <<< (8 * g))) ||| (BitVec.ofNat 32 (v % 256) <<< (8 * g))

/-- R138: a stop or expression entry applied to the map. -/
def applyStop (o : Organ) (m : SoundingMap) (e : StopEntry) : SoundingMap :=
  match e.target with
  | .stopGroup d g =>
    let states := setGroup (divGet m.stops d) g e.value &&& stopMask (divRec o d).stopCount
    { m with stops := divSet m.stops d states }
  | .expression d => { m with expression := divSet m.expression d e.value }
  | .keyGroup _ _ => m

/-- R156: entries due at `f` taken in queue order while slots remain: those taken and those left. -/
def takeStops (f : Time) : Nat → List StopEntry → List StopEntry × List StopEntry
  | _, [] => ([], [])
  | room, e :: rest =>
    if arrived e.notBefore f ∧ 0 < room then
      let r := takeStops f (room - 1) rest
      (e :: r.1, r.2)
    else
      let r := takeStops f room rest
      (r.1, e :: r.2)

/-- The taken entries applied and the rest left in the queue. -/
def composeStops (f : Time) (room : Nat) (s : State) : State × List Target :=
  let r := takeStops f room s.keyline.stopQueue
  ({ s with map := r.1.foldl (applyStop s.organ) s.map, keyline := { s.keyline with stopQueue := r.2 } },
    r.1.map (·.target))

/-! ### Refresh (R158) -/

/-- The key groups of the present divisions, by division and then group. -/
def allGroups (o : Organ) : List (Division × Nat) :=
  allDivisions.flatMap (fun d => (List.range (keyGroups (divRec o d))).map (fun g => (d, g)))

/-- R158: the refresh rotation. -/
def rotation (o : Organ) : List Target :=
  (allGroups o).map (fun g => Target.keyGroup g.1 g.2)
    ++ allDivisions.flatMap (fun d => (List.range (stopGroups (divRec o d))).map (Target.stopGroup d))
    ++ (allDivisions.filter (fun d => hasExpression (divRec o d))).map Target.expression

/-- `n` targets from the cursor on, and the cursor after them. -/
def refreshFrom (rot : List Target) (cursor n : Nat) : List Target × Nat :=
  ((List.range n).filterMap (fun i => rot[(cursor + i) % rot.length]?),
    if rot.isEmpty then cursor else (cursor + n) % rot.length)

/-! ### Frames (R163) -/

/-- A slot of a frame: its target, its state and the refresh mark. -/
structure FrameSlot where
  target : Target
  value : Nat
  refresh : Bool
  deriving DecidableEq, Repr

/-- The three bytes of a slot. -/
def slotBytes (x : FrameSlot) : List Byte :=
  let first (kind : Nat) (d : Division) : Nat :=
    64 * kind + (if x.refresh then 32 else 0) + 4 * divisionNumber d
  match x.target with
  | .keyGroup d g => u8 (first 0 d) ++ u8 g ++ u8 x.value
  | .stopGroup d g => u8 (first 1 d) ++ u8 g ++ u8 x.value
  | .expression d => u8 (first 2 d) ++ u8 0 ++ u8 x.value

/-- The bytes of a frame. -/
def frameBytes (number : Nat) (slots : List FrameSlot) : List Byte :=
  let body := u8 number ++ u8 slots.length ++ slots.flatMap slotBytes
  u8 0xA6 ++ body ++ checkBytes body

/-- Slots that carry their targets' states as they stand in the map. -/
def slotsFor (o : Organ) (m : SoundingMap) (refresh : Bool) (ts : List Target) : List FrameSlot :=
  ts.map (fun t => ⟨t, targetState o m t, refresh⟩)

/-- The refresh slots that end a frame, and the cursor moved (R158). -/
def addRefresh (n : Nat) (s : State) : State × List FrameSlot :=
  let r := refreshFrom (rotation s.organ) s.keyline.cursor n
  ({ s with keyline := { s.keyline with cursor := r.2 } }, slotsFor s.organ s.map true r.1)

/-- What a composition gives: the part after it and the frame's slots. -/
abbrev Composed := State × List FrameSlot

/-- The events that a composition leaves, put back in the schedule. -/
def keepEvents (f : Time) (c : Comp) (k : Schedule) : Schedule :=
  { k with events := orderSchedule (c.kept ++ laterEvents k f) }

/-- R152 to R158: the composition of a RUNNING frame. -/
def composeRunning (f : Time) (s : State) : Composed :=
  let due := dueEvents s.keys f
  let c0 := composeReleases f s
  let owed := owedGroups s.keyline.carry (groupsOf (cipherDue s.map f))
  let c := due.foldl (composeEvent f (some Config.changeSlots))
    { c0 with slots := owed.take Config.changeSlots }
  let carry := (owed.drop Config.changeSlots).filter (fun g => !c.slots.contains g)
  let s1 := { c.state with keys := keepEvents f c c.state.keys,
                           keyline := { c.state.keyline with carry := carry } }
  let r := composeStops f (Config.changeSlots - c.slots.length) (reportSlips f c.slipped s1)
  let ref := addRefresh 1 r.1
  (ref.1,
    slotsFor ref.1.organ ref.1.map false (c.slots.map (fun g => Target.keyGroup g.1 g.2))
      ++ slotsFor ref.1.organ ref.1.map false r.2 ++ ref.2)

/-- R159: the composition of a FAULT frame. -/
def composeFault (f : Time) (s : State) : Composed :=
  let c := (dueEvents s.keys f).foldl (composeEvent f none) (composeReleases f s)
  let s1 := { c.state with keys := keepEvents f c c.state.keys,
                           keyline := { c.state.keyline with slips := 0 } }
  let r := composeStops f s1.keyline.stopQueue.length s1
  addRefresh (min Config.frameSlots (rotation s.organ).length) r.1

/-- R160: the composition of a SWEEP frame. -/
def composeSweep (s : State) : Composed :=
  let sent := s.keyline.sweep.take Config.changeSlots
  let s1 := { s with keyline := { s.keyline with sweep := s.keyline.sweep.drop Config.changeSlots } }
  let ref := addRefresh 1 s1
  (ref.1, sent.map (fun g => ⟨Target.keyGroup g.1 g.2, 0, false⟩) ++ ref.2)

/-! ### Echoes (R150, R151) -/

/-- R150: the outcome of the judgement of the frame numbered `n`. -/
def echoOutcome (n : Nat) (held : Option Echo) : EchoOutcome :=
  match held with
  | none => .MISSING
  | some e => if e.number = n then (if e.ok then .GOOD else .CHECK_BAD) else .WRONG_NUMBER

/-- R150: the counts after an outcome. -/
def countEcho (x : EchoOutcome) (k : Keyline) : Keyline :=
  let boards :=
    match k.heldEcho with
    | some e => some e.boards
    | none => k.lastBoards
  if x = .GOOD then
    { k with errors := 0, goods := min 255 (k.goods + 1), lastOutcome := some x, lastBoards := boards }
  else
    { k with errors := min 255 (k.errors + 1), goods := 0, lastOutcome := some x, lastBoards := boards }

/-- The entry to FAULT (R151, R160). -/
def enterFault (number : Nat) (x : EchoOutcome) (s : State) : State :=
  raise (.keylineFault number x s.keyline.lastBoards)
    { s with keyline := { s.keyline with state := .FAULT, goods := 0, carry := [] } }

/-- R151, R160: the Keyline state after the judgement of frame `number` with outcome `x`. -/
def stateAfterJudgement (number : Nat) (x : EchoOutcome) (s : State) : State :=
  match s.keyline.state with
  | .OFF => s
  | .RUNNING =>
    if x ≠ .GOOD ∧ s.params.echoLimit ≤ s.keyline.errors then enterFault number x s else s
  | .FAULT =>
    if x = .GOOD ∧ s.params.recoverCount ≤ s.keyline.goods then
      raise (.keylineRestored number s.keyline.lastBoards)
        { s with keyline := { s.keyline with state := .RUNNING, errors := 0 } }
    else s
  | .SWEEP =>
    if s.keyline.sweep.isEmpty then
      if s.params.echoLimit ≤ s.keyline.errors then enterFault number x s
      else
        let t := { s with keyline := { s.keyline with state := .RUNNING } }
        if s.keyline.originFault then raise (.keylineRestored number s.keyline.lastBoards) t else t
    else s

/-- R149, first stage: the echo of the previous frame is judged. -/
def judgeEcho (s : State) : State :=
  match s.keyline.awaited with
  | none => s
  | some n =>
    let x := echoOutcome n s.keyline.heldEcho
    stateAfterJudgement n x { s with keyline := countEcho x s.keyline }

/-- An echo record read from its bytes: none when its length, start code or check is wrong (R163). -/
def readEcho (bs : List Byte) : Option Echo :=
  match bs with
  | [start, number, result, boards, lo, hi] =>
    if start = 0x5B ∧ checkBytes [number, result, boards] = [lo, hi] then
      some ⟨number.toNat, result == 0, boards.toNat⟩
    else none
  | _ => none

/-- R150: a received echo is held or discarded. -/
def holdEcho (e : Echo) (k : Keyline) : Keyline :=
  if k.state = .OFF then k
  else
    match k.awaited with
    | none => k
    | some n =>
      match k.heldEcho with
      | none => { k with heldEcho := some e }
      | some h => if e.number = n ∧ h.number ≠ n then { k with heldEcho := some e } else k

/-- An echo record arrives (R150). -/
def receiveEcho (bs : List Byte) (s : State) : State :=
  match readEcho bs with
  | some e => { s with keyline := holdEcho e s.keyline }
  | none => s

/-! ### Frame starts (R149) -/

/-- The interval brought into force and the next frame start set. -/
def setNextStart (f : Time) (k : Keyline) : Keyline :=
  let interval := k.pendingInterval.getD k.interval
  { k with interval := interval, pendingInterval := none, nextStart := some (timePlus f interval) }

/-- R149, third stage, by the state in force. -/
def compose (f : Time) (s : State) : Composed :=
  match s.keyline.state with
  | .RUNNING => composeRunning f s
  | .FAULT => composeFault f s
  | .SWEEP => composeSweep s
  | .OFF => (s, [])

/-- R149, fourth stage. -/
def sendFrame (slots : List FrameSlot) (k : Keyline) : Keyline :=
  { k with lastFrame := frameBytes k.frameNumber slots, awaited := some k.frameNumber,
           heldEcho := none, frameNumber := (k.frameNumber + 1) % 256 }

/-- R149: the frame start now, up to the sending of the frame. -/
def frameStages (s : State) : State :=
  let s1 := judgeEcho { s with keyline := setNextStart s.now s.keyline }
  let s2 := { s1 with keys := firmPass s.now s1.params.firmLead s1.keys }
  let c := compose s.now s2
  { c.1 with keyline := sendFrame c.2 c.1.keyline }

/-- The Keyline transmit pair: the frame last sent on it, or, before a first frame and while the part is held
in reset, idle at the level of a stop bit (R163, R185). -/
def transmitPair (s : State) : LineOutput Byte :=
  lineOutput s (if s.keyline.lastFrame = [] then none else some s.keyline.lastFrame)

/-- R149, R117, R103: a frame start, with what the places it frees bring. -/
def frameStart (s : State) : State :=
  let t := frameStages s
  let u := if t.keys.events.length < s.keys.events.length then settle (placesFreed t) else t
  idleIfDone u

/-- The next frame start has arrived. -/
def frameDue (s : State) : Bool :=
  s.keyline.state != .OFF &&
    match s.keyline.nextStart with
    | some t => due s t
    | none => false

/-! ### SWEEP, ALL_OFF and the keyline enable (R160 to R162) -/

/-- R160: the entry to SWEEP. -/
def enterSweep (o : Organ) (k : Keyline) : Keyline :=
  { k with state := .SWEEP, sweep := allGroups o,
           originFault := if k.state = .SWEEP then k.originFault else k.state == .FAULT,
           errors := 0, goods := 0, carry := [] }

/-- R161: the Keyline at an ALL_OFF. -/
def allOffKeyline (o : Organ) (k : Keyline) : Keyline :=
  if k.state = .OFF then { k with watch := none } else { enterSweep o k with watch := none }

/-- R114, R130, R143, R161, R57, R82: ALL_OFF. -/
def allOff (s : State) : State :=
  let s1 := silenceMap { s with keys := cancelAll s.keys }
  let s2 := { s1 with keyline := allOffKeyline s1.organ s1.keyline, follow := followOff s1.follow }
  emptyOnsets (if s2.player.state = .IDLE then s2 else idleIfDone (
    if s2.player.state = .STOPPING then s2 else stopNow s2))

def answerAllOff (s : State) : Answer := ⟨.OK, [], allOff s⟩

/-- R162: the enable turned on. -/
def enableOn (s : State) : State :=
  if s.keyline.state = .OFF then
    let k := enterSweep s.organ s.keyline
    { s with params := { s.params with enable := true },
             keyline := { k with cursor := 0, awaited := none,
                                 nextStart := some (timePlus s.now k.interval) } }
  else s

/-- R162: whether the enable may be turned off. -/
def mayDisable (s : State) : Bool := s.player.state == .IDLE && !anyDown s.map

/-- R162: the enable turned off. -/
def enableOff (s : State) : State :=
  if s.keyline.state = .OFF then s
  else
    let k : Keyline :=
      { s.keyline with state := .OFF, nextStart := none, awaited := none, heldEcho := none, errors := 0,
                       goods := 0, stopQueue := [], carry := [], sweep := [], watch := none }
    { s with params := { s.params with enable := false }, keyline := k }

end Sys2Proof.Machine
end

