-- ==== Sys2Proof/Machine/Parameters.lean ====
section
/-! DEFINITION. The parameters: reading, bounds, writing and what acts at once (chapter 11, R146). -/

namespace Sys2Proof.Machine

/-- A yes/no value as a number. -/
def boolNumber (b : Bool) : Nat := if b then 1 else 0

/-- Table 11.1: the value held of a parameter but the frame interval. -/
def paramOf (p : Params) : Nat → Nat
  | 1 => p.choirLag
  | 2 => p.halfWidth
  | 3 => p.phaseGain
  | 4 => p.periodGain
  | 5 => p.matchLimit
  | 6 => p.lockCount
  | 7 => p.missLimit
  | 8 => p.lostAfter
  | 9 => boolNumber p.finishVerse
  | 10 => p.horizon
  | 11 => p.firmLead
  | 12 => p.breath
  | 13 => p.maxWait
  | 14 => p.fermataCap
  | 15 => p.introGap
  | 17 => p.echoLimit
  | 18 => p.recoverCount
  | 19 => p.cipherLimit
  | 20 => p.stopSettle
  | 21 => boolNumber p.enable
  | 22 => p.margin
  | 23 => p.refractory
  | 24 => p.smin
  | 25 => p.leakLimit
  | 26 => boolNumber p.acceptMixed
  | 27 => p.rejectSet.toNat
  | 28 => p.critical
  | _ => 0

/-- The frame interval's number (Table 11.1). -/
def frameIntervalNumber : Nat := 16

/-- The value held of every parameter. -/
def paramValue (s : State) (n : Nat) : Nat :=
  if n = frameIntervalNumber then s.keyline.interval else paramOf s.params n

/-- Table 11.1: the default. -/
def paramDefault (n : Nat) : Nat :=
  if n = frameIntervalNumber then keylineAfterReset.interval else paramOf paramDefaults n

/-- R182: the larger of the frame interval in force and the pending one. -/
def largerInterval (k : Keyline) : Nat := max k.interval (k.pendingInterval.getD 0)

/-- Table 11.1 and R182: the lowest and highest value that a SET_PARAM would take. -/
def paramBounds (s : State) : Nat → Nat × Nat
  | 1 => (0, 4000)
  | 2 => (200, 2500)
  | 3 => (0, 255)
  | 4 => (0, 255)
  | 5 => (1, 100)
  | 6 => (1, 8)
  | 7 => (1, 8)
  | 8 => (20000, 300000)
  | 9 => (0, 1)
  | 10 => (96, 768)
  | 11 => (max 100 (2 * largerInterval s.keyline), 1000)
  | 12 => (0, 10000)
  | 13 => (0, 600000)
  | 14 => (10000, s.params.cipherLimit - 10000)
  | 15 => (0, 1536)
  | 16 => (10, min 80 (s.params.firmLead / 2))
  | 17 => (1, 8)
  | 18 => (1, 8)
  | 19 => (40000, 300000)
  | 20 => (0, 5000)
  | 21 => (0, 1)
  | 22 => (4, 128)
  | 23 => (3, 25)
  | 24 => (0, 255)
  | 25 => (1, 255)
  | 26 => (0, 1)
  | 27 => (0, 4095)
  | 28 => (4, 32)
  | _ => (0, 0)

/-- A parameter but the frame interval and the keyline enable, written. -/
def putParam (n v : Nat) (p : Params) : Params :=
  match n with
  | 1 => { p with choirLag := v }
  | 2 => { p with halfWidth := v }
  | 3 => { p with phaseGain := v }
  | 4 => { p with periodGain := v }
  | 5 => { p with matchLimit := v }
  | 6 => { p with lockCount := v }
  | 7 => { p with missLimit := v }
  | 8 => { p with lostAfter := v }
  | 9 => { p with finishVerse := v == 1 }
  | 10 => { p with horizon := v }
  | 11 => { p with firmLead := v }
  | 12 => { p with breath := v }
  | 13 => { p with maxWait := v }
  | 14 => { p with fermataCap := v }
  | 15 => { p with introGap := v }
  | 17 => { p with echoLimit := v }
  | 18 => { p with recoverCount := v }
  | 19 => { p with cipherLimit := v, fermataCap := min p.fermataCap (v - 10000) }
  | 20 => { p with stopSettle := v }
  | 22 => { p with margin := v }
  | 23 => { p with refractory := v }
  | 24 => { p with smin := v }
  | 25 => { p with leakLimit := v }
  | 26 => { p with acceptMixed := v == 1 }
  | 27 => { p with rejectSet := BitVec.ofNat 12 v }
  | 28 => { p with critical := v }
  | _ => p

/-- R146: a down key's deadline beyond now + the new limit is set to it. -/
def pullIn (bound : Time) (e : KeyEntry) : KeyEntry :=
  if !e.holders.isEmpty && later e.deadline bound then { e with deadline := bound } else e

def pullInDeadlines (s : State) : State :=
  let bound := timePlus s.now s.params.cipherLimit
  { s with map := { s.map with keys := ⟨s.map.keys.cells.map (fun c => (c.1, pullIn bound c.2))⟩ } }

/-- R68: a changed Lc or W and a PENDING window. -/
def reconsiderWindow (s : State) : State :=
  match s.follow.window with
  | some m =>
    if m.phase = .PENDING then
      let t := recompute s
      match atOnce t true with
      | some x => takeDecision x t
      | none => t
    else s
  | none => s

/-- R108: WAITING, with the max wait expired. -/
def maxWaitDue (s : State) : Option Wait :=
  match waitIn s.player .WAITING with
  | some w =>
    match maxWaitEnd s w with
    | some t => if due s t then some w else none
    | none => none
  | none => none

/-- R108: the max wait expires. -/
def expireMaxWait (w : Wait) (s : State) : State := follows (resumeWait w (breathTime s) false s)

/-- What a new value brings about at once (R183, Table 11.2). -/
def actAtOnce (n : Nat) (s : State) : State :=
  match n with
  | 1 | 2 => reconsiderWindow s
  | 8 => checkLost s
  | 13 =>
    match maxWaitDue s with
    | some w => expireMaxWait w s
    | none => s
  | 19 => pullInDeadlines s
  | _ => s

/-- R181: a value taken for parameter `n`. -/
def takeParam (n v : Nat) (s : State) : State :=
  if n = frameIntervalNumber then { s with keyline := { s.keyline with pendingInterval := some v } }
  else if n = 21 then (if v = 1 then enableOn s else enableOff s)
  else
    let t := { s with params := putParam n v s.params }
    if n = 28 then judgeBacklog t else if paramValue s n = v then t else actAtOnce n t

/-- Enumerated, yes/no and off/on parameters, and the reject set: not clamped (R181). -/
def isChoice (n : Nat) : Bool := n == 9 || n == 21 || n == 26 || n == 27

/-- R181: the tests, the first that fails. -/
def paramRefused (n : Nat) (v : Int) (s : State) : Option Result :=
  if ¬ (1 ≤ n ∧ n ≤ 28) then some .BAD_FIELD
  else if n = 11 ∧ s.player.state ≠ .IDLE then some .WRONG_STATE
  else if n = 21 ∧ v = 0 ∧ s.keyline.state ≠ .OFF ∧ mayDisable s = false then some .WRONG_STATE
  else if isChoice n = true ∧ ¬ (0 ≤ v ∧ v ≤ (paramBounds s n).2) then some .BAD_FIELD
  else none

/-- The clamped value (R181). -/
def clampParam (n : Nat) (v : Int) (s : State) : Nat :=
  (clampInt (paramBounds s n).1 (paramBounds s n).2 v).toNat

/-- SET_PARAM (R181 to R183). -/
def answerSetParam (n : Nat) (v : Int) (s : State) : Answer :=
  match paramRefused n v s with
  | some r => refuse s r
  | none =>
    let x := clampParam n v s
    let t := takeParam n x s
    ⟨if (x : Int) = v then .OK else .CLAMPED,
      u8 n ++ i32 x ++ (if n = 19 then u32 t.params.fermataCap else []), t⟩

/-- GET_PARAM (R184). -/
def answerGetParam (n : Nat) (s : State) : Answer :=
  if ¬ (1 ≤ n ∧ n ≤ 28) then refuse s .BAD_FIELD
  else
    ⟨.OK,
      u8 n ++ i32 (paramValue s n)
        ++ (if n = frameIntervalNumber then opt (fun x : Nat => i32 x) s.keyline.pendingInterval else [])
        ++ i32 (paramDefault n) ++ i32 (paramBounds s n).1 ++ i32 (paramBounds s n).2, s⟩

end Sys2Proof.Machine
end

