-- ==== Sys2Proof/Machine/Reports.lean ====
section
/-! DEFINITION. IDENTIFY, the status and follow reports, and the requests of the Flag and Notice
Unit (R171, R175 to R179). -/

namespace Sys2Proof.Machine

/-- IDENTIFY (R171). -/
def answerIdentify (s : State) : Answer :=
  ⟨.OK,
    u16 Config.productNumber ++ u8 Config.interfaceRevision ++ u8 s.link.rate.toNat
      ++ u8 Config.slotCount ++ u16 Config.poolEntries ++ u8 Config.registrationCount ++ u8 5
      ++ u16 Config.schedulePlaces ++ u8 Config.onsetPlaces ++ u8 Config.noticePlaces
      ++ timeBytes s.now ++ u8 (match s.link.lastReset with | .FULL => 0 | .CONSOLE => 1), s⟩

/-! ### Numbers of the reported names (R170) -/

def discardNumber : Discard → Nat
  | .none => 0
  | .LENGTH => 1
  | .CHECK => 2
  | .TIMEOUT => 3
  | .FRAMING => 4
  | .OVERRUN => 5

def waitPhaseNumber : WaitPhase → Nat
  | .MINIMUM => 0
  | .WAITING => 1
  | .BREATH => 2

/-- The last wait outcome: none 0, VOID 1, WAITING 2 (log 10). -/
def lastOutcomeNumber : Option WaitOutcome → Nat
  | none => 0
  | some .void => 1
  | some .waiting => 2

/-- The last echo outcome: none 0, then GOOD, MISSING, WRONG_NUMBER, CHECK_BAD (log 10). -/
def lastEchoNumber : Option EchoOutcome → Nat
  | none => 0
  | some x => echoOutcomeNumber x

def followStateNumber : FollowState → Nat
  | .OFF => 0
  | .LEAD => 1
  | .TRACK => 2
  | .COAST => 3

def windowPhaseNumber : WindowPhase → Nat
  | .PENDING => 0
  | .OPEN => 1
  | .DECIDING => 2

def keylineStateNumber : KeylineState → Nat
  | .OFF => 0
  | .SWEEP => 1
  | .RUNNING => 2
  | .FAULT => 3

/-! ### GET_STATUS (R179) -/

/-- R37: the registration index latched for each verse of the plan, in verse order, absent for a verse not
latched or latched with none; an empty list with no plan. R179 has no place for them in its order: that
they stand as a counted list behind the fields R179 lists is the model's reading (DEDUCED, log 43). -/
def latchedBytes (p : Player) : List Byte :=
  match p.plan with
  | some pl => listBytes (fun e : PlanEntry => opt u8 e.recorded) pl.entries
  | none => listBytes (fun e : PlanEntry => opt u8 e.recorded) []

/-- R92, R111: the Player's fields. -/
def playerStatus (p : Player) : List Byte :=
  u8 (playerStateNumber p.state) ++ opt sectionBytes p.sec ++ opt u8 p.slot ++ yn p.goLatch
    ++ opt (fun w : Wait => u8 (waitKindNumber w.kind) ++ u8 (waitPhaseNumber w.phase)) p.wait
    ++ u8 (lastOutcomeNumber p.lastOutcome)

/-- The current position with its section (R62), the section sent first (DEDUCED, log 42). -/
def currentBytes (now : Time) (f : Follow) : List Byte := u8 f.anchor.sec ++ u16 (currentPosition now f)

/-- R86: the Follower's fields of the status report; the lost indication off 0, on 1 (log 10). -/
def followStatus (s : State) : List Byte :=
  u8 (followStateNumber s.follow.state) ++ u8 (reportedTempo s.follow) ++ currentBytes s.now s.follow
    ++ yn s.follow.lost

/-- A channel's state: PRESENT 0, LOST 1. -/
def channelByte (c : ChannelState) : List Byte := yn (!c.present)

/-- R59: the Listening Unit's fields; backlog off 0, on 1 (log 10). -/
def listenStatus (l : Listen) : List Byte :=
  channelByte l.a ++ channelByte l.b ++ u16 l.floor ++ u8 l.queue.length ++ yn l.backlog

/-- R132: the Key Scheduler's fields. -/
def scheduleStatus (k : Schedule) : List Byte :=
  u16 k.events.length ++ u16 (k.events.filter (·.firm)).length
    ++ opt (fun e : KeyEvent => timeBytes e.time) k.events.head? ++ timeBytes k.boundary

/-- R147: one division's fields. -/
def divisionStatus (m : SoundingMap) (d : Division) : List Byte :=
  let down := (downKeys m).filter (fun x => x.1 == d)
  u8 down.length ++ u16 (down.foldl (fun acc x => acc + x.2.2.holders.length) 0)
    ++ stopBytes (divGet m.stops d) 32 ++ u8 (divGet m.expression d)

/-- R147: the earliest cipher deadline among the keys that are down; among keys that share it, that of the
lowest division and key number (DESIGN CHOICE, log 41). -/
def earliestDeadline (m : SoundingMap) : Option (Division × Nat × KeyEntry) :=
  (downKeys m).foldl
    (fun acc x =>
      match acc with
      | none => some x
      | some y => if later y.2.2.deadline x.2.2.deadline then some x else acc)
    none

def mapStatus (m : SoundingMap) : List Byte :=
  allDivisions.flatMap (divisionStatus m)
    ++ opt (fun x : Division × Nat × KeyEntry =>
        timeBytes x.2.2.deadline ++ u8 (divisionNumber x.1) ++ u8 x.2.1) (earliestDeadline m)

/-- R164: the Keyline Controller's fields. -/
def keylineStatus (s : State) : List Byte :=
  let k := s.keyline
  u8 (keylineStateNumber k.state) ++ yn s.params.enable ++ u8 k.interval ++ opt u8 k.pendingInterval
    ++ u8 k.frameNumber ++ u8 k.errors ++ u8 k.goods ++ u8 (lastEchoNumber k.lastOutcome)
    ++ opt u8 k.lastBoards ++ u8 k.stopQueue.length ++ u8 k.carry.length ++ u8 k.slips

/-- The fields of the status report, in order (R179), and behind them R37's (log 43). The global enable and
the notices-dropped indication are 0 for off and 1 for on (log 10). -/
def statusBytes (s : State) : List Byte :=
  timeBytes s.now
    ++ flagSetBytes (upSet s.flags) ++ yn s.flags.global ++ flagSetBytes s.flags.enables.toNat
    ++ u8 s.flags.queue.length ++ yn s.flags.dropped
    ++ u8 s.link.errors ++ u8 (discardNumber s.link.lastDiscard)
    ++ storeStateByte s.store ++ storeFaultBytes s.store
    ++ playerStatus s.player ++ followStatus s ++ listenStatus s.listen ++ scheduleStatus s.keys
    ++ mapStatus s.map ++ keylineStatus s ++ latchedBytes s.player

/-- GET_STATUS: the reply sets the link error count to 0 once it has read it (R167, R179). -/
def answerGetStatus (s : State) : Answer :=
  ⟨.OK, statusBytes s, { s with link := { s.link with errors := 0 } }⟩

/-! ### GET_FOLLOW (R179) -/

/-- R66, R67: a match window record with its state, which is sent last (DEDUCED, log 56). -/
def windowBytes (m : MatchWindow) : List Byte :=
  posBytes m.point ++ u16 m.index ++ timeBytes m.expected ++ u16 m.halfWidth ++ timeBytes m.opens
    ++ timeBytes m.closes ++ timeBytes m.decides ++ u8 (windowPhaseNumber m.phase)

/-- The period step; SKIPPED is the number beyond its range (log 10). -/
def periodStepBytes : PeriodStep → List Byte
  | .applied us => i32 us
  | .SKIPPED => i32 Config.skippedCode

/-- R86: the last decision record. -/
def decisionBytes (d : Decision) : List Byte :=
  posBytes d.point ++ u16 d.index ++ timeBytes d.time ++ u8 (if d.onset.isSome then 0 else 1) ++ yn d.late
    ++ opt (fun o : Onset => timeBytes o.time ++ u8 o.strength ++ u8 (onsetClassNumber o.cls)) d.onset
    ++ u8 d.surplus ++ u8 d.stale ++ opt i16 d.error ++ i16 d.phase ++ periodStepBytes d.step
    ++ yn d.clamped ++ u8 (followStateNumber d.after)

/-- The channels of an onset: A 0, B 1, both 2. -/
def channelsNumber (o : Onset) : Nat := if o.onA && o.onB then 2 else if o.onB then 1 else 0

/-- R48: an onset record. -/
def onsetBytes (o : Onset) : List Byte :=
  timeBytes o.time ++ u8 o.strength ++ o.profile.flatMap u8 ++ u8 o.dominant ++ u8 o.share
    ++ u8 (onsetClassNumber o.cls) ++ u8 (channelsNumber o)

/-- R139: a Leak Mask entry. -/
def leakBytes (e : LeakEntry) : List Byte := u16 e.held ++ timeBytes e.tail ++ timeBytes e.fresh

/-- The fields of the follow report, in order (R86, R179); the rebased and the lost indication off 0, on 1
(log 10). -/
def followBytes (s : State) : List Byte :=
  let f := s.follow
  timeBytes s.now ++ u8 (followStateNumber f.state) ++ timeBytes f.anchorTime ++ posBytes f.anchor
    ++ u32 f.period ++ u8 (reportedTempo f) ++ currentBytes s.now f ++ yn f.rebased ++ u8 f.matched
    ++ u8 f.missed ++ timeBytes f.lastMatch ++ yn f.lost ++ opt windowBytes f.window
    ++ opt decisionBytes f.lastDecision ++ listBytes onsetBytes s.listen.queue
    ++ (List.range 12).flatMap (fun c => leakBytes (leakEntry s.leak c))

/-- GET_FOLLOW (R179). -/
def answerGetFollow (s : State) : Answer := ⟨.OK, followBytes s, s⟩

/-! ### SET_NOTICES, FETCH_NOTICES, ACK_FLAGS (R175, R177, R178) -/

/-- A sent set of flags: no bit beyond flag 18 (R170, R174). -/
def isFlagSet (n : Nat) : Bool := decide (n < 2 ^ 18)

/-- SET_NOTICES (R175). The global enable is sent and reported as 0 for off and 1 for on (log 10). -/
def answerSetNotices (global enables : Nat) (s : State) : Answer :=
  if !(isYesNo global && isFlagSet enables) then refuse s .BAD_FIELD
  else
    ⟨.OK, yn (global == 1) ++ flagSetBytes enables,
      { s with flags := enableNotices (global == 1) (BitVec.ofNat 18 enables) s.flags }⟩

/-- FETCH_NOTICES (R177). The notices-dropped indication is 0 for clear and 1 for set (log 10). -/
def answerFetchNotices (s : State) : Answer :=
  ⟨.OK,
    yn s.flags.dropped ++ listBytes noticeBytes (s.flags.queue.take Config.fetchCount)
      ++ u8 (s.flags.queue.drop Config.fetchCount).length,
    { s with flags := fetchFlags s.flags }⟩

/-- Every flag of a set put down (R178). -/
def lowerFlags (set : Nat) (f : Flags) : Flags :=
  allFlags.foldl (fun acc g => if set.testBit (flagNumber g - 1) then lowerFlag g acc else acc) f

/-- ACK_FLAGS (R178, R20). -/
def answerAckFlags (set : Nat) (s : State) : Answer :=
  if !isFlagSet set then refuse s .BAD_FIELD
  else
    let f := lowerFlags set s.flags
    ⟨.OK, flagSetBytes (upSet f),
      { s with flags := f,
               store := if set.testBit (flagNumber .FAULTY_STEP - 1) then clearStoreFault s.store
                        else s.store }⟩

end Sys2Proof.Machine
end

