-- ==== Sys2Proof/Machine/Link.lean ====
section
/-! DEFINITION. The Console Link Interface: the receive assembly, the request queue, the transmit
path, the owners' answers, and the console reset (chapter 9). -/

namespace Sys2Proof.Machine

/-! ### The owners (9.5) -/

/-- What the owner of a request answers (R173). -/
def answer (r : Request) (s : State) : Answer :=
  match r with
  | .identify => answerIdentify s
  | .getStatus => answerGetStatus s
  | .getFollow => answerGetFollow s
  | .setParam n v => answerSetParam n v s
  | .getParam n => answerGetParam n s
  | .setDivision d f => answerSetDivision d f s
  | .getDivision d => answerGetDivision d s
  | .setRegistration i r => answerSetRegistration i r s
  | .getRegistration i => answerGetRegistration i s
  | .tuneBegin n h => answerTuneBegin n h s
  | .tuneSteps n i l => answerTuneSteps n i l s
  | .tuneEnd n => answerTuneEnd n s
  | .tuneErase n => answerTuneErase n s
  | .tuneRead n i c => answerTuneRead n i c s
  | .getDirectory n => answerGetDirectory n s
  | .clearStore => answerClearStore s
  | .startHymn f => answerStartHymn f s
  | .go => answerGo s
  | .stopHymn m a => answerStopHymn m a s
  | .allOff => answerAllOff s
  | .reservePlan => answerReservePlan s
  | .amendPlan f => answerAmendPlan f s
  | .getPlan => answerGetPlan s
  | .setNotices g e => answerSetNotices g e s
  | .fetchNotices => answerFetchNotices s
  | .ackFlags f => answerAckFlags f s
  | .reset => ⟨.OK, [], s⟩

/-- The kind number of a request (9.5). -/
def kindOf : Request → Nat
  | .identify => 0x01
  | .getStatus => 0x02
  | .getFollow => 0x03
  | .setParam .. => 0x04
  | .getParam .. => 0x05
  | .setDivision .. => 0x06
  | .getDivision .. => 0x07
  | .setRegistration .. => 0x08
  | .getRegistration .. => 0x09
  | .tuneBegin .. => 0x0A
  | .tuneSteps .. => 0x0B
  | .tuneEnd .. => 0x0C
  | .tuneErase .. => 0x0D
  | .tuneRead .. => 0x0E
  | .getDirectory .. => 0x0F
  | .clearStore => 0x10
  | .startHymn .. => 0x11
  | .go => 0x12
  | .stopHymn .. => 0x13
  | .allOff => 0x14
  | .reservePlan => 0x15
  | .amendPlan .. => 0x16
  | .getPlan => 0x17
  | .setNotices .. => 0x18
  | .fetchNotices => 0x19
  | .ackFlags .. => 0x1A
  | .reset => 0x1B

/-! ### Replies (R169) -/

/-- A reply: the kind with the reply mark, the tag, the result code and the fields. -/
def replyTo (kind tag : Byte) (r : Result) (fields : List Byte) : Reply :=
  ⟨kind ||| 0x80, tag, u8 (resultCode r) ++ fields⟩

/-- The frame in which a reply is sent (R166). -/
def replyFrame (r : Reply) : List Byte := linkFrame r.kind r.tag r.body

/-- What a taken request is answered: by the interface, or by its owner. -/
def answerQueued (q : Queued) (s : State) : Answer :=
  match q.content with
  | .request r => answer r s
  | .badKind => refuse s .BAD_KIND
  | .badLength => refuse s .BAD_LENGTH

/-- The reply to RESET brings the console reset (R172). -/
def isReset (q : Queued) : Bool :=
  match q.content with
  | .request .reset => true
  | _ => false

/-! ### The request queue (R168) -/

/-- A request taken: it is in hand, and its reply goes into transmission. -/
def takeRequest (q : Queued) (s : State) : State :=
  let a := answerQueued q s
  let out : Sending := ⟨replyFrame (replyTo q.kind q.tag a.result a.fields), true, isReset q⟩
  { a.state with link := { a.state.link with inHand := true, sending := some out } }

/-- The oldest waiting request is taken when nothing is in transmission and no BUSY reply waits. -/
def pump (s : State) : State :=
  match s.link.queue with
  | [] => s
  | q :: _ => if s.link.sending.isNone ∧ s.link.busy.isEmpty ∧ s.link.inHand = false then takeRequest q s else s

/-- R167: a discard counted. -/
def discard (x : Discard) (l : Link) : Link :=
  { l with errors := min 255 (l.errors + 1), lastDiscard := x }

/-- R168: a complete frame. -/
def submit (q : Queued) (s : State) : State :=
  if s.link.queue.length < Config.requestPlaces then
    pump { s with link := { s.link with queue := s.link.queue ++ [q] } }
  else if s.link.busy.length < Config.requestPlaces then
    { s with link := { s.link with busy := s.link.busy ++ [replyTo q.kind q.tag .BUSY []] } }
  else { s with link := discard .OVERRUN s.link }

/-- The complete frame of a request with the given tag. -/
def request (tag : Byte) (r : Request) (s : State) : State :=
  submit ⟨BitVec.ofNat 8 (kindOf r), tag, .request r⟩ s

/-! ### The console reset (R172) -/

/-- The link after a console reset. -/
def linkAfterConsoleReset (l : Link) : Link :=
  { linkAfterReset l.rate with lastReset := .CONSOLE }

/-- R23: the store after a console reset: a PLAYING slot becomes READY, the fault record is cleared. -/
def storeAfterConsoleReset (st : Store) : Store :=
  let ready (sl : Slot) : Slot := if sl.state = .PLAYING then { sl with state := .READY } else sl
  clearStoreFault { st with slots := ⟨st.slots.cells.map (fun c => (c.1, c.2.map ready))⟩ }

/-- R148, R161: the Keyline after a console reset. -/
def keylineAfterConsoleReset (o : Organ) (k : Keyline) : Keyline :=
  { allOffKeyline o k with stopQueue := [], carry := [], errors := 0, goods := 0 }

/-- The console reset of every block (R172). -/
def consoleReset (s : State) : State :=
  let t := silenceMap s
  { t with link := linkAfterConsoleReset s.link, store := storeAfterConsoleReset s.store,
           listen := listenAfterReset s.now s.listen.analyses, follow := followAfterReset, player := playerAfterReset,
           keys := keysAfterReset, keyline := keylineAfterConsoleReset s.organ s.keyline,
           flags := flagsAfterReset }

/-! ### The transmit path (R168) -/

/-- The reply that has just been sent leaves, and with it the request it answered. -/
def finishReply (x : Sending) (l : Link) : Link :=
  if x.ofHand then { l with sending := none, queue := l.queue.drop 1, inHand := false }
  else { l with sending := none }

/-- The next reply is sent: the oldest BUSY reply, or that of the oldest waiting request. -/
def nextReply (s : State) : State :=
  match s.link.busy with
  | b :: rest => { s with link := { s.link with sending := some ⟨replyFrame b, false, false⟩, busy := rest } }
  | [] => pump s

/-- R168, R172: the last byte of the reply in transmission has been sent. -/
def replyDone (s : State) : State :=
  match s.link.sending with
  | none => s
  | some x =>
    if x.resets then consoleReset s else nextReply { s with link := finishReply x s.link }

/-! ### The two lines (R165) -/

/-- R165: a byte on a line, level by level in the order sent: the start bit, low; the eight data bits, the
least significant first; the stop bit, high; no parity. -/
def byteLevels (b : Byte) : List Bool := false :: (List.range 8).map b.getLsbD ++ [stopLevel]

/-- The byte that data bits spell, the least significant first. -/
def byteOfBits (bits : List Bool) : Byte :=
  BitVec.ofNat 8 (bits.foldr (fun b n => 2 * n + b.toNat) 0)

/-- What the receive line gives at a byte time (R165). -/
inductive LineEvent where
  | byte (b : Byte)
  | framingError
  deriving DecidableEq, Repr

/-- R165: the levels of one byte time read from its start bit on: a byte, or a framing error where the stop
bit is found low, as it is at each byte time of a line held low. Levels that do not begin with a start
bit, or that are not ten, are no byte time and give nothing (DEDUCED, log 50). -/
def lineEvent (levels : List Bool) : Option LineEvent :=
  match levels with
  | false :: rest =>
    match rest.drop 8 with
    | [true] => some (.byte (byteOfBits (rest.take 8)))
    | [false] => some .framingError
    | _ => none
  | _ => none

/-- The Console Link transmit line: the levels of the frame in transmission byte by byte, or, with none in
transmission and while the part is held in reset, idle at the level of a stop bit (R165, R168, R185). -/
def transmitLine (s : State) : LineOutput Bool :=
  lineOutput s (s.link.sending.map (fun x => x.frame.flatMap byteLevels))

/-! ### The receive assembly (R167) -/

/-- The length that two bytes give. -/
def frameLength (bs : List Byte) : Nat :=
  match bs with
  | lo :: hi :: _ => lo.toNat + 256 * hi.toNat
  | _ => 0

def hunt (l : Link) : Link := { l with assembly := .HUNTING }

/-- A frame whose last check byte has arrived: `bs` is everything after the start marker. -/
def closeFrame (bs : List Byte) (s : State) : State :=
  let n := frameLength bs + 2
  if checkBytes (bs.take n) = bs.drop n then
    match (bs.take n).drop 2 with
    | kind :: tag :: body => submit ⟨kind, tag, parseRequest kind body⟩ { s with link := hunt s.link }
    | _ => { s with link := hunt s.link }
  else { s with link := discard .CHECK (hunt s.link) }

/-- A byte added to a frame in assembly. -/
def assemble (bs : List Byte) (b : Byte) (s : State) : State :=
  let all := bs ++ [b]
  if all.length = 2 ∧ (frameLength all < 2 ∨ Config.maxFrameLength < frameLength all) then
    { s with link := discard .LENGTH (hunt s.link) }
  else if 2 < all.length ∧ all.length = frameLength all + 4 then closeFrame all s
  else { s with link := { s.link with assembly := .ASSEMBLING all s.now } }

/-- The incomplete frame's gap has run out at now (R167). -/
def frameTimeoutDue (s : State) : Bool :=
  match s.link.assembly with
  | .ASSEMBLING _ last => due s (timePlus last Config.frameGapUnits)
  | .HUNTING => false

/-- R167: a frame in assembly is discarded with kind TIMEOUT. -/
def expireFrame (s : State) : State := { s with link := discard .TIMEOUT (hunt s.link) }

/-- A byte examined while HUNTING: 0xC3 begins ASSEMBLING, any other is dropped. -/
def huntByte (b : Byte) (s : State) : State :=
  if b = 0xC3 then { s with link := { s.link with assembly := .ASSEMBLING [] s.now } } else s

/-- R167: what the receive line gives. A gap that ran out before now discards the frame first. -/
def receiveLine (e : LineEvent) (s : State) : State :=
  match s.link.assembly, e with
  | .HUNTING, .byte b => huntByte b s
  | .HUNTING, .framingError => s
  | .ASSEMBLING bs last, .byte b =>
    if later s.now (timePlus last Config.frameGapUnits) then huntByte b (expireFrame s)
    else assemble bs b s
  | .ASSEMBLING _ last, .framingError =>
    if later s.now (timePlus last Config.frameGapUnits) then expireFrame s
    else { s with link := discard .FRAMING (hunt s.link) }

/-- R165, R167: the levels of a byte time on the receive line. -/
def receiveLevels (levels : List Bool) (s : State) : State :=
  match lineEvent levels with
  | some e => receiveLine e s
  | none => s

end Sys2Proof.Machine
end

