-- ==== Sys2Proof/Machine/ConsoleRequests.lean ====
section
/-! DEFINITION. Requests of the interface, the parameters, the reports and the notices. -/

namespace Sys2Proof.Machine

/-- IDENTIFY (R171). -/
def execIdentify (dt : Nat) (tag : Byte) (s : State) : Host.Outcome State Fault Refusal :=
  onService dt (request tag .identify) s

/-- GET_STATUS (R179). -/
def execGetStatus (dt : Nat) (tag : Byte) (s : State) : Host.Outcome State Fault Refusal :=
  onService dt (request tag .getStatus) s

/-- GET_FOLLOW (R179). -/
def execGetFollow (dt : Nat) (tag : Byte) (s : State) : Host.Outcome State Fault Refusal :=
  onService dt (request tag .getFollow) s

/-- SET_PARAM (R181 to R183). -/
def execSetParam (dt : Nat) (tag : Byte) (n : Nat) (v : Int) (s : State) : Host.Outcome State Fault Refusal :=
  onService dt (request tag (.setParam n v)) s

/-- KEYLINE_ENABLE_ON (R162): SET_PARAM of the keyline enable, on. -/
def execKeylineEnableOn (dt : Nat) (tag : Byte) (s : State) : Host.Outcome State Fault Refusal :=
  onService dt (request tag (.setParam 21 1)) s

/-- KEYLINE_ENABLE_OFF (R162): SET_PARAM of the keyline enable, off. -/
def execKeylineEnableOff (dt : Nat) (tag : Byte) (s : State) : Host.Outcome State Fault Refusal :=
  onService dt (request tag (.setParam 21 0)) s

/-- GET_PARAM (R184). -/
def execGetParam (dt : Nat) (tag : Byte) (n : Nat) (s : State) : Host.Outcome State Fault Refusal :=
  onService dt (request tag (.getParam n)) s

/-- RESET (R172). -/
def execReset (dt : Nat) (tag : Byte) (s : State) : Host.Outcome State Fault Refusal :=
  onService dt (request tag .reset) s

/-- SET_NOTICES (R175). -/
def execSetNotices (dt : Nat) (tag : Byte) (g e : Nat) (s : State) : Host.Outcome State Fault Refusal :=
  onService dt (request tag (.setNotices g e)) s

/-- FETCH_NOTICES (R177). -/
def execFetchNotices (dt : Nat) (tag : Byte) (s : State) : Host.Outcome State Fault Refusal :=
  onService dt (request tag .fetchNotices) s

/-- ACK_FLAGS (R178). -/
def execAckFlags (dt : Nat) (tag : Byte) (f : Nat) (s : State) : Host.Outcome State Fault Refusal :=
  onService dt (request tag (.ackFlags f)) s

end Sys2Proof.Machine
end

