-- ==== Sys2Proof/Machine/HearingEvents.lean ====
section
/-! DEFINITION. Events of the Listening Unit and the Beat Follower. -/

namespace Sys2Proof.Machine

/-- R53, R55, R108, R109: a declared onset is filtered, queued and made known. -/
def hearOnset (o : Onset) (s : State) : State :=
  if accepted s o then
    let t := joinOnset o s
    if o.cls = .CHOIR then
      let k := knowOnset o.time t
      if k.2 then follows k.1 else k.1
    else t
  else s

/-- R40 to R57: a hop completes now. -/
def completeHop (a b : HopInput) (s : State) : State :=
  let r := detect s a b
  let t := { s with listen := r.2 }
  match r.1 with
  | some o => hearOnset o t
  | none => t

/-- INPUT_LOST (R39, R40). -/
def execInputLost (dt : Nat) (c : Channel) (s : State) : Host.Outcome State Fault Refusal :=
  onService dt (loseChannel c) s

/-- HOP_COMPLETE (R40): a hop completes at the last of its pacing channel's samples or, while none paces,
when the hop timer runs out; with other samples it is no completion, and only time passes (log 3). -/
def execHopComplete (dt : Nat) (a b : HopInput) (s : State) : Host.Outcome State Fault Refusal :=
  onService dt (fun t => if hopDue a b t then completeHop a b t else t) s

/-- The window in a later state. -/
def windowPhase (x : WindowPhase) (m : MatchWindow) (s : State) : State :=
  { s with follow := { s.follow with window := some { m with phase := x } } }

/-- R67: the open time arrives. -/
def openWindow (s : State) : State :=
  match s.follow.window with
  | some m => if m.phase = .PENDING ∧ due s m.opens = true then windowPhase .OPEN m s else s
  | none => s

/-- R67: the close time arrives. -/
def closeWindow (s : State) : State :=
  match s.follow.window with
  | some m => if m.phase ≠ .DECIDING ∧ due s m.closes = true then windowPhase .DECIDING m s else s
  | none => s

/-- R67, R69: the decision time arrives. -/
def decideNow (s : State) : State :=
  match s.follow.window with
  | some m => if due s m.decides then takeDecision m s else s
  | none => s

/-- WINDOW_OPEN (R67). -/
def execWindowOpen (dt : Nat) (s : State) : Host.Outcome State Fault Refusal :=
  onService dt openWindow s

/-- WINDOW_CLOSE (R67). -/
def execWindowClose (dt : Nat) (s : State) : Host.Outcome State Fault Refusal :=
  onService dt closeWindow s

/-- WINDOW_DECISION (R69 to R78). -/
def execWindowDecision (dt : Nat) (s : State) : Host.Outcome State Fault Refusal :=
  onService dt decideNow s

/-- LOST_TIME (R80, R81). -/
def execLostTime (dt : Nat) (s : State) : Host.Outcome State Fault Refusal :=
  onService dt checkLost s

end Sys2Proof.Machine
end

