-- ==== Sys2Proof/Machine/HymnRequests.lean ====
section
/-! DEFINITION. Requests of the hymn (R88 to R114). -/

namespace Sys2Proof.Machine

/-- START_HYMN (R88, R89). -/
def execStartHymn (dt : Nat) (tag : Byte) (f : StartFields) (s : State) : Host.Outcome State Fault Refusal :=
  onService dt (request tag (.startHymn f)) s

/-- GO (R111). -/
def execGo (dt : Nat) (tag : Byte) (s : State) : Host.Outcome State Fault Refusal :=
  onService dt (request tag .go) s

/-- STOP_HYMN of mode END_OF_VERSE (R112). -/
def execStopHymnEndOfVerse (dt : Nat) (tag : Byte) (amen : Nat) (s : State) : Host.Outcome State Fault Refusal :=
  onService dt (request tag (.stopHymn 0 amen)) s

/-- STOP_HYMN of mode NOW (R113). -/
def execStopHymnNow (dt : Nat) (tag : Byte) (amen : Nat) (s : State) : Host.Outcome State Fault Refusal :=
  onService dt (request tag (.stopHymn 1 amen)) s

/-- ALL_OFF (R114, R130, R143, R161). -/
def execAllOff (dt : Nat) (tag : Byte) (s : State) : Host.Outcome State Fault Refusal :=
  onService dt (request tag .allOff) s

/-- RESERVE_PLAN (R93). -/
def execReservePlan (dt : Nat) (tag : Byte) (s : State) : Host.Outcome State Fault Refusal :=
  onService dt (request tag .reservePlan) s

/-- AMEND_PLAN (R94). -/
def execAmendPlan (dt : Nat) (tag : Byte) (f : AmendFields) (s : State) : Host.Outcome State Fault Refusal :=
  onService dt (request tag (.amendPlan f)) s

/-- GET_PLAN (R92). -/
def execGetPlan (dt : Nat) (tag : Byte) (s : State) : Host.Outcome State Fault Refusal :=
  onService dt (request tag .getPlan) s

end Sys2Proof.Machine
end

