-- ==== Sys2Proof/Machine/KeylineEvents.lean ====
section
/-! DEFINITION. Events of the Keyline Controller. -/

namespace Sys2Proof.Machine

/-- FRAME_START (R149). -/
def execFrameStart (dt : Nat) (s : State) : Host.Outcome State Fault Refusal :=
  onService dt (fun t => if frameDue t then frameStart t else t) s

/-- ECHO_RECEIVED (R150). -/
def execEchoReceived (dt : Nat) (bs : List Byte) (s : State) : Host.Outcome State Fault Refusal :=
  onService dt (receiveEcho bs) s

end Sys2Proof.Machine
end

