-- ==== Sys2Proof/Machine/LinkCommands.lean ====
section
/-! DEFINITION. The commands of the Console Link (R165 to R172). -/

namespace Sys2Proof.Machine

/-- BYTE_RECEIVED (R165, R167): one byte time of the receive line. -/
def execByteReceived (dt : Nat) (levels : List Bool) (s : State) : Host.Outcome State Fault Refusal :=
  onService dt (receiveLevels levels) s

/-- RECEIVE_FRAME (R168, R169): a complete frame with a good check. -/
def execReceiveFrame (dt : Nat) (kind tag : Byte) (body : List Byte) (s : State) : Host.Outcome State Fault Refusal :=
  onService dt (submit ⟨kind, tag, parseRequest kind body⟩) s

/-- FRAME_TIMEOUT (R167). -/
def execFrameTimeout (dt : Nat) (s : State) : Host.Outcome State Fault Refusal :=
  onService dt (fun t => if frameTimeoutDue t then expireFrame t else t) s

/-- REPLY_SENT (R168, R172). -/
def execReplySent (dt : Nat) (s : State) : Host.Outcome State Fault Refusal :=
  onService dt replyDone s

end Sys2Proof.Machine
end

