-- ==== Sys2Proof/Machine/Resets.lean ====
section
/-! DEFINITION. The resets (R172, R185). -/

namespace Sys2Proof.Machine

/-- FULL_RESET (R185): the full reset takes effect, with the levels of the rate straps; the commands
that wait still wait. -/
def execFullReset (straps : BitVec 2) (s : State) : Host.Outcome State Fault Refusal :=
  .next { afterFullReset straps s.listen.analyses with pending := s.pending }

/-- CONSOLE_RESET (R172): the console reset takes effect. -/
def execConsoleReset (dt : Nat) (s : State) : Host.Outcome State Fault Refusal :=
  onService dt consoleReset s

/-- R185: the part is held in reset by a long enough pulse on the reset pin, or by its supply. -/
def holdInReset (c : ResetCause) (s : State) : State :=
  match c with
  | .pin ns => if ns < 1000 then s else { s with heldInReset := true }
  | .supply => { s with heldInReset := true }

/-- HELD_IN_RESET (R185). -/
def execHeldInReset (dt : Nat) (c : ResetCause) (s : State) : Host.Outcome State Fault Refusal :=
  onService dt (holdInReset c) s

end Sys2Proof.Machine
end

