-- ==== Sys2Proof/Machine/StoreRequests.lean ====
section
/-! DEFINITION. Requests of the organ and the store, and the end of a clearing. -/

namespace Sys2Proof.Machine

/-- SET_DIVISION (R26 to R28). -/
def execSetDivision (dt : Nat) (tag : Byte) (d : Nat) (f : DivisionFields) (s : State) : Host.Outcome State Fault Refusal :=
  onService dt (request tag (.setDivision d f)) s

/-- GET_DIVISION (R29). -/
def execGetDivision (dt : Nat) (tag : Byte) (d : Nat) (s : State) : Host.Outcome State Fault Refusal :=
  onService dt (request tag (.getDivision d)) s

/-- SET_REGISTRATION (R33, R34). -/
def execSetRegistration (dt : Nat) (tag : Byte) (i : Nat) (r : Wire RegistrationFields) (s : State) : Host.Outcome State Fault Refusal :=
  onService dt (request tag (.setRegistration i r)) s

/-- GET_REGISTRATION (R37). -/
def execGetRegistration (dt : Nat) (tag : Byte) (i : Nat) (s : State) : Host.Outcome State Fault Refusal :=
  onService dt (request tag (.getRegistration i)) s

/-- TUNE_BEGIN (R11, R12). -/
def execTuneBegin (dt : Nat) (tag : Byte) (n : Nat) (h : HeaderFields) (s : State) : Host.Outcome State Fault Refusal :=
  onService dt (request tag (.tuneBegin n h)) s

/-- TUNE_STEPS (R13, R14). -/
def execTuneSteps (dt : Nat) (tag : Byte) (n i : Nat) (l : List StepFields) (s : State) : Host.Outcome State Fault Refusal :=
  onService dt (request tag (.tuneSteps n i l)) s

/-- TUNE_END (R15). -/
def execTuneEnd (dt : Nat) (tag : Byte) (n : Nat) (s : State) : Host.Outcome State Fault Refusal :=
  onService dt (request tag (.tuneEnd n)) s

/-- TUNE_ERASE (R16). -/
def execTuneErase (dt : Nat) (tag : Byte) (n : Nat) (s : State) : Host.Outcome State Fault Refusal :=
  onService dt (request tag (.tuneErase n)) s

/-- TUNE_READ (R19). -/
def execTuneRead (dt : Nat) (tag : Byte) (n i c : Nat) (s : State) : Host.Outcome State Fault Refusal :=
  onService dt (request tag (.tuneRead n i c)) s

/-- GET_DIRECTORY (R21). -/
def execGetDirectory (dt : Nat) (tag : Byte) (n : Nat) (s : State) : Host.Outcome State Fault Refusal :=
  onService dt (request tag (.getDirectory n)) s

/-- CLEAR_STORE (R22). -/
def execClearStore (dt : Nat) (tag : Byte) (s : State) : Host.Outcome State Fault Refusal :=
  onService dt (request tag .clearStore) s

/-- CLEARING_END (R22). -/
def execClearingEnd (dt : Nat) (s : State) : Host.Outcome State Fault Refusal :=
  onService dt endClearing s

end Sys2Proof.Machine
end

