-- ==== Sys2Proof/Machine/WalkEvents.lean ====
section
/-! DEFINITION. Events of the Hymn Player. -/

namespace Sys2Proof.Machine

/-- R96: the entry time of the read-ahead step has arrived. -/
def enterDue (s : State) : State := if (entryDue s).isSome then settle s else s

/-- R97: a step leaves the window now. -/
def someLeaves (s : State) : Bool := s.player.window.any (leaves s)

def leaveDue (s : State) : State := if someLeaves s then settle s else s

/-- R104: the sound time of the fermata step has arrived. -/
def fermataNow (s : State) : State :=
  match fermataDue s with
  | some w =>
    match w.fermata with
    | some f => follows (enterFermata w f s)
    | none => s
  | none => s

/-- R105: the rebased time of a TIMED fermata has arrived. -/
def fermataBackNow (s : State) : State :=
  if fermataBackDue s then follows (returnFromFermata s) else s

/-- R101: the section end time has arrived. -/
def sectionEndNow (s : State) : State :=
  match s.player.sec with
  | some n => if sectionEndDue s then follows (endSection n s) else s
  | none => s

/-- R102: the end of a TIMED gap has arrived. -/
def gapEndNow (s : State) : State :=
  match gapDue s with
  | some n => follows (enterSection n s)
  | none => s

/-- R107: the minimum end has arrived. -/
def minimumEndNow (s : State) : State :=
  match waitIn s.player .MINIMUM with
  | some w => if due s w.minimumEnd then follows (endMinimum w s) else s
  | none => s

/-- R108: the max wait has expired. -/
def maxWaitNow (s : State) : State :=
  match maxWaitDue s with
  | some w => expireMaxWait w s
  | none => s

/-- R109: the breath end has arrived. -/
def breathEndNow (s : State) : State :=
  match waitIn s.player .BREATH with
  | some w => if due s w.breathEnd then follows (endBreath w s) else s
  | none => s

/-- STEP_ENTRY (R96). -/
def execStepEntry (dt : Nat) (s : State) : Host.Outcome State Fault Refusal :=
  onService dt enterDue s

/-- STEP_SOUND_TIME (R97). -/
def execStepSoundTime (dt : Nat) (s : State) : Host.Outcome State Fault Refusal :=
  onService dt leaveDue s

/-- FERMATA_SOUND_TIME (R104). -/
def execFermataSoundTime (dt : Nat) (s : State) : Host.Outcome State Fault Refusal :=
  onService dt fermataNow s

/-- FERMATA_REBASED_TIME (R105). -/
def execFermataRebasedTime (dt : Nat) (s : State) : Host.Outcome State Fault Refusal :=
  onService dt fermataBackNow s

/-- SECTION_END (R101). -/
def execSectionEnd (dt : Nat) (s : State) : Host.Outcome State Fault Refusal :=
  onService dt sectionEndNow s

/-- GAP_END (R102). -/
def execGapEnd (dt : Nat) (s : State) : Host.Outcome State Fault Refusal :=
  onService dt gapEndNow s

/-- MINIMUM_END (R107). -/
def execMinimumEnd (dt : Nat) (s : State) : Host.Outcome State Fault Refusal :=
  onService dt minimumEndNow s

/-- MAX_WAIT_EXPIRY (R108). -/
def execMaxWaitExpiry (dt : Nat) (s : State) : Host.Outcome State Fault Refusal :=
  onService dt maxWaitNow s

/-- BREATH_END (R109). -/
def execBreathEnd (dt : Nat) (s : State) : Host.Outcome State Fault Refusal :=
  onService dt breathEndNow s

end Sys2Proof.Machine
end

