-- ==== Sys2Proof/Machine/Dispatch.lean ====
section
/-! DEFINITION. What each command does: one arm per constructor of Instr. -/

namespace Sys2Proof.Machine

/-- A command's effect on everything but the queue of waiting commands. -/
def exec (i : Instr) (s : State) : Host.Outcome State Fault Refusal :=
  match i with
  | .fullReset straps => Sys2Proof.Machine.execFullReset straps s
  | .consoleReset dt => Sys2Proof.Machine.execConsoleReset dt s
  | .receiveFrame dt kind tag body => Sys2Proof.Machine.execReceiveFrame dt kind tag body s
  | .frameTimeout dt => Sys2Proof.Machine.execFrameTimeout dt s
  | .replySent dt => Sys2Proof.Machine.execReplySent dt s
  | .identify dt tag => Sys2Proof.Machine.execIdentify dt tag s
  | .getStatus dt tag => Sys2Proof.Machine.execGetStatus dt tag s
  | .getFollow dt tag => Sys2Proof.Machine.execGetFollow dt tag s
  | .setParam dt tag n v => Sys2Proof.Machine.execSetParam dt tag n v s
  | .keylineEnableOn dt tag => Sys2Proof.Machine.execKeylineEnableOn dt tag s
  | .keylineEnableOff dt tag => Sys2Proof.Machine.execKeylineEnableOff dt tag s
  | .getParam dt tag n => Sys2Proof.Machine.execGetParam dt tag n s
  | .setDivision dt tag d f => Sys2Proof.Machine.execSetDivision dt tag d f s
  | .getDivision dt tag d => Sys2Proof.Machine.execGetDivision dt tag d s
  | .setRegistration dt tag n r => Sys2Proof.Machine.execSetRegistration dt tag n r s
  | .getRegistration dt tag n => Sys2Proof.Machine.execGetRegistration dt tag n s
  | .tuneBegin dt tag n h => Sys2Proof.Machine.execTuneBegin dt tag n h s
  | .tuneSteps dt tag n k l => Sys2Proof.Machine.execTuneSteps dt tag n k l s
  | .tuneEnd dt tag n => Sys2Proof.Machine.execTuneEnd dt tag n s
  | .tuneErase dt tag n => Sys2Proof.Machine.execTuneErase dt tag n s
  | .tuneRead dt tag n k c => Sys2Proof.Machine.execTuneRead dt tag n k c s
  | .getDirectory dt tag n => Sys2Proof.Machine.execGetDirectory dt tag n s
  | .clearStore dt tag => Sys2Proof.Machine.execClearStore dt tag s
  | .clearingEnd dt => Sys2Proof.Machine.execClearingEnd dt s
  | .startHymn dt tag f => Sys2Proof.Machine.execStartHymn dt tag f s
  | .go dt tag => Sys2Proof.Machine.execGo dt tag s
  | .stopHymnEndOfVerse dt tag a => Sys2Proof.Machine.execStopHymnEndOfVerse dt tag a s
  | .stopHymnNow dt tag a => Sys2Proof.Machine.execStopHymnNow dt tag a s
  | .allOff dt tag => Sys2Proof.Machine.execAllOff dt tag s
  | .reservePlan dt tag => Sys2Proof.Machine.execReservePlan dt tag s
  | .amendPlan dt tag f => Sys2Proof.Machine.execAmendPlan dt tag f s
  | .getPlan dt tag => Sys2Proof.Machine.execGetPlan dt tag s
  | .setNotices dt tag g e => Sys2Proof.Machine.execSetNotices dt tag g e s
  | .fetchNotices dt tag => Sys2Proof.Machine.execFetchNotices dt tag s
  | .ackFlags dt tag f => Sys2Proof.Machine.execAckFlags dt tag f s
  | .reset dt tag => Sys2Proof.Machine.execReset dt tag s
  | .inputLost dt c => Sys2Proof.Machine.execInputLost dt c s
  | .hopComplete dt a b => Sys2Proof.Machine.execHopComplete dt a b s
  | .windowOpen dt => Sys2Proof.Machine.execWindowOpen dt s
  | .windowClose dt => Sys2Proof.Machine.execWindowClose dt s
  | .windowDecision dt => Sys2Proof.Machine.execWindowDecision dt s
  | .lostTime dt => Sys2Proof.Machine.execLostTime dt s
  | .stepEntry dt => Sys2Proof.Machine.execStepEntry dt s
  | .stepSoundTime dt => Sys2Proof.Machine.execStepSoundTime dt s
  | .fermataSoundTime dt => Sys2Proof.Machine.execFermataSoundTime dt s
  | .fermataRebasedTime dt => Sys2Proof.Machine.execFermataRebasedTime dt s
  | .sectionEnd dt => Sys2Proof.Machine.execSectionEnd dt s
  | .gapEnd dt => Sys2Proof.Machine.execGapEnd dt s
  | .minimumEnd dt => Sys2Proof.Machine.execMinimumEnd dt s
  | .maxWaitExpiry dt => Sys2Proof.Machine.execMaxWaitExpiry dt s
  | .breathEnd dt => Sys2Proof.Machine.execBreathEnd dt s
  | .frameStart dt => Sys2Proof.Machine.execFrameStart dt s
  | .echoReceived dt bs => Sys2Proof.Machine.execEchoReceived dt bs s
  | .heldInReset dt c => Sys2Proof.Machine.execHeldInReset dt c s
  | .byteReceived dt levels => Sys2Proof.Machine.execByteReceived dt levels s

end Sys2Proof.Machine
end

