-- ==== Sys2Proof/Machine/Step.lean ====
section
/-! DEFINITION. One step of the part: the command at the front of the queue, or, when none waits, the
next timed event that is due, or one unit of service time. -/

namespace Sys2Proof.Machine

/-- The hop input of a channel that gives nothing. -/
def silentInput : HopInput := ⟨false, []⟩

/-- A timed event of the part when its time has come. -/
def whenDue (b : Bool) (c : Instr) : List Instr := if b then [c] else []

/-- The state of the match window waits for its open (0), close (1) or decision (2) time, which has
arrived (R67). -/
def windowDue (s : State) : Option Instr :=
  match s.follow.window with
  | none => none
  | some m =>
    match m.phase with
    | .PENDING => if due s m.opens then some (.windowOpen 0) else none
    | .OPEN => if due s m.closes then some (.windowClose 0) else none
    | .DECIDING => if due s m.decides then some (.windowDecision 0) else none

/-- The wait's minimum or breath has come to its end. -/
def waitDue (s : State) (x : WaitPhase) (t : Wait → Time) : Bool :=
  match waitIn s.player x with
  | some w => due s (t w)
  | none => false

/-- The store's clearing has come to its end. -/
def clearingDue (s : State) : Bool :=
  match s.store.clearEnd with
  | some t => due s t
  | none => false

/-- The timed events that are due, in the order in which an idle part takes them (log 2); a step whose entry
time a raised horizon has put in the past is among them (log 40). -/
def dueNow (s : State) : List Instr :=
  whenDue (frameTimeoutDue s) (.frameTimeout 0)
    ++ whenDue (clearingDue s) (.clearingEnd 0)
    ++ whenDue ((pacing s.listen).isNone && hopDue silentInput silentInput s) (.hopComplete 0 silentInput silentInput)
    ++ (windowDue s).toList
    ++ whenDue (lostDue s) (.lostTime 0)
    ++ whenDue (entryDue s).isSome (.stepEntry 0)
    ++ whenDue (someLeaves s) (.stepSoundTime 0)
    ++ whenDue (fermataDue s).isSome (.fermataSoundTime 0)
    ++ whenDue (fermataBackDue s) (.fermataRebasedTime 0)
    ++ whenDue (sectionEndDue s) (.sectionEnd 0)
    ++ whenDue (gapDue s).isSome (.gapEnd 0)
    ++ whenDue (waitDue s .MINIMUM (·.minimumEnd)) (.minimumEnd 0)
    ++ whenDue (maxWaitDue s).isSome (.maxWaitExpiry 0)
    ++ whenDue (waitDue s .BREATH (·.breathEnd)) (.breathEnd 0)
    ++ whenDue (frameDue s) (.frameStart 0)

/-- The part with no command waiting: held in reset it stands still; otherwise the first timed event
that is due happens, or one unit of service time passes (DESIGN CHOICE, log 2). -/
def idle (s : State) : Host.Outcome State Fault Refusal :=
  if s.heldInReset then .next s
  else
    match dueNow s with
    | c :: _ => exec c s
    | [] => .next (elapse 1 s)

/-- One step (log 1, log 2). -/
def step (s : State) : Host.Outcome State Fault Refusal :=
  match s.pending with
  | c :: rest => exec c { s with pending := rest }
  | [] => idle s

/-- The command that the word spells, put at the front of the queue. -/
def State.withFetchWord (s : State) (nbits w : Nat) : State :=
  match decodeTableWord nbits w with
  | some c => { s with pending := c :: s.pending }
  | none => s

end Sys2Proof.Machine
end

