-- ==== Sys2Proof/Machine/Encode.lean ====
section
/-! DEFINITION. How the console lays a request out: its body by R170, and its frame by R166. The part
itself only reads requests; the statements use these. -/

namespace Sys2Proof.Machine

/-- An optional field: its presence byte, then the field when present (R170, log 8). -/
def wireBytes {α : Type} (f : α → List Byte) : Wire α → List Byte
  | .absent => u8 0
  | .present a => u8 1 ++ f a
  | .invalid n => u8 n

/-- Three bytes, low byte first (R174). -/
def u24 (n : Nat) : List Byte := u16 n ++ u8 (n / 65536)

def voicesBytes (p : PerVoice Nat) : List Byte :=
  u8 p.s ++ (u8 p.a ++ (u8 p.t ++ (u8 p.b ++ (u8 p.ped ++ u8 p.desc))))

def divisionsBytes {α : Type} (f : α → List Byte) (p : PerDivision α) : List Byte :=
  f p.d1 ++ (f p.d2 ++ (f p.d3 ++ (f p.d4 ++ f p.d5)))

/-- R24's order. -/
def divisionFieldBytes (f : DivisionFields) : List Byte :=
  u8 f.present ++ (u8 f.lowest ++ (u8 f.keyCount ++ (u16 f.speech ++ (u16 f.release ++ (u16 f.acoustic
    ++ (u8 f.leakTracking ++ (u16 f.leakTail ++ (u8 f.stopCount ++ u8 f.enclosed))))))))

/-- R31's order. -/
def registrationFieldBytes (f : RegistrationFields) : List Byte :=
  u8 f.first ++ (u8 f.last ++ (u8 f.repeats ++ (u8 f.base ++ (voicesBytes f.routing
    ++ (divisionsBytes (fun l => l.flatMap u8) f.stops ++ (divisionsBytes u8 f.expression ++ u8 f.lift))))))

/-- R5's order. -/
def headerFieldBytes (h : HeaderFields) : List Byte :=
  u16 h.number ++ (u8 h.beats ++ (u32 h.nominal ++ (u32 h.pmin ++ (u32 h.pmax ++ (u16 h.verseSteps
    ++ (u8 h.amenSteps ++ (wireBytes (fun r => u16 r.first ++ u16 r.last) h.intro ++ u16 h.entries)))))))

/-- R9's order. -/
def stepFieldBytes (f : StepFields) : List Byte :=
  u16 f.position ++ (u16 f.duration ++ (u8 f.follow
    ++ (wireBytes (fun x => u8 x.kind ++ u8 x.factor) f.fermata ++ listBytes noteFieldBytes f.notes)))

/-- R88's order of an override's fields. -/
def overrideBytes (e : EntryFields) : List Byte :=
  u8 e.verse ++ (u8 e.mode ++ (i8 e.transposition ++ (u16 e.gapLength ++ (u8 e.gapKind
    ++ u8 e.registration))))

/-- R90's order of a plan entry's fields. -/
def entryFieldBytes (e : EntryFields) : List Byte :=
  u8 e.verse ++ (u8 e.mode ++ (u8 e.registration ++ (i8 e.transposition ++ (u16 e.gapLength
    ++ u8 e.gapKind))))

/-- R88's order. -/
def startFieldBytes (f : StartFields) : List Byte :=
  u8 f.slot ++ (u8 f.verseCount ++ (u8 f.intro ++ (u8 f.amen ++ (u8 f.startKind ++ (u16 f.gapLength
    ++ (u8 f.gapKind ++ (u8 f.join ++ (i8 f.transposition ++ listBytes overrideBytes f.overrides))))))))

/-- R94's order. -/
def amendFieldBytes (f : AmendFields) : List Byte :=
  listBytes entryFieldBytes f.entries ++ (wireBytes u8 f.verseCount ++ wireBytes u8 f.amen)

/-- The body of a request as the console sends it (R170). -/
def requestBytes : Request → List Byte
  | .identify | .getStatus | .getFollow | .clearStore | .go | .allOff | .reservePlan | .getPlan
  | .fetchNotices | .reset => []
  | .setParam n v => u8 n ++ i32 v
  | .getParam n => u8 n
  | .setDivision d f => u8 d ++ divisionFieldBytes f
  | .getDivision d => u8 d
  | .setRegistration i r => u8 i ++ wireBytes registrationFieldBytes r
  | .getRegistration i => u8 i
  | .tuneBegin n h => u8 n ++ headerFieldBytes h
  | .tuneSteps n i l => u8 n ++ (u16 i ++ listBytes stepFieldBytes l)
  | .tuneEnd n => u8 n
  | .tuneErase n => u8 n
  | .tuneRead n i c => u8 n ++ (u16 i ++ u8 c)
  | .getDirectory n => u8 n
  | .startHymn f => startFieldBytes f
  | .stopHymn m a => u8 m ++ u8 a
  | .amendPlan f => amendFieldBytes f
  | .setNotices g e => u8 g ++ u24 e
  | .ackFlags f => u24 f

end Sys2Proof.Machine
end

