-- ==== Sys2Proof/WellFormed.lean ====
section
/-! DEFINITION. Which commands are well formed: every field fits the bytes that R170 gives it, lists
fit their count bytes, records have the lengths that R9, R33, R41 and R43 give, and the time that
passes is one that R1 can compare. Whether a value lies in its range is the owner's test, not this
one. -/

namespace Sys2Proof.WellFormed

/-- A field of one, two, three or four bytes (R170). -/
def byteField (n : Nat) : Bool := decide (n < 256)
def wordField (n : Nat) : Bool := decide (n < 65536)
def setField (n : Nat) : Bool := decide (n < 16777216)
def longField (n : Nat) : Bool := decide (n < 4294967296)

/-- A field of one or four bytes in two's complement (R170). -/
def signedByte (n : Int) : Bool := decide (-128 ≤ n) && decide (n ≤ 127)
def signedLong (n : Int) : Bool := decide (-2147483648 ≤ n) && decide (n ≤ 2147483647)

/-- A list whose count fits one byte (R170). -/
def countField {α : Type} (l : List α) : Bool := decide (l.length < 256)

/-- An optional field: present with a good field, absent, or a presence byte outside its values. -/
def wireField {α : Type} (f : α → Bool) : Wire α → Bool
  | .absent => true
  | .present a => f a
  | .invalid n => decide (2 ≤ n) && byteField n

/-- Units that may pass before a command: an interval that service times can compare (R1). -/
def interval (dt : Nat) : Bool := decide (dt < 2147483648)

def noteFields (n : NoteFields) : Bool := byteField n.voice && byteField n.pitch && byteField n.tieOn

def fermataFields (f : FermataFields) : Bool := byteField f.kind && byteField f.factor

def stepFields (f : StepFields) : Bool :=
  wordField f.position && wordField f.duration && byteField f.follow && wireField fermataFields f.fermata
    && countField f.notes && f.notes.all noteFields

def rangeFields (r : RangeFields) : Bool := wordField r.first && wordField r.last

def headerFields (h : HeaderFields) : Bool :=
  wordField h.number && byteField h.beats && longField h.nominal && longField h.pmin && longField h.pmax
    && wordField h.verseSteps && byteField h.amenSteps && wireField rangeFields h.intro
    && wordField h.entries

def divisionFields (f : DivisionFields) : Bool :=
  byteField f.present && byteField f.lowest && byteField f.keyCount && wordField f.speech
    && wordField f.release && wordField f.acoustic && byteField f.leakTracking && wordField f.leakTail
    && byteField f.stopCount && byteField f.enclosed

def voices (f : Nat → Bool) (p : PerVoice Nat) : Bool :=
  f p.s && f p.a && f p.t && f p.b && f p.ped && f p.desc

def divisions {α : Type} (f : α → Bool) (p : PerDivision α) : Bool :=
  f p.d1 && f p.d2 && f p.d3 && f p.d4 && f p.d5

/-- 32 stop states, one byte each (R33). -/
def stopStates (l : List Nat) : Bool := decide (l.length = 32) && l.all byteField

def registrationFields (f : RegistrationFields) : Bool :=
  byteField f.first && byteField f.last && byteField f.repeats && byteField f.base
    && voices byteField f.routing && divisions stopStates f.stops && divisions byteField f.expression
    && byteField f.lift

def entryFields (e : EntryFields) : Bool :=
  byteField e.verse && byteField e.mode && byteField e.registration && signedByte e.transposition
    && wordField e.gapLength && byteField e.gapKind

def startFields (f : StartFields) : Bool :=
  byteField f.slot && byteField f.verseCount && byteField f.intro && byteField f.amen
    && byteField f.startKind && wordField f.gapLength && byteField f.gapKind && byteField f.join
    && signedByte f.transposition && countField f.overrides && f.overrides.all entryFields

def amendFields (f : AmendFields) : Bool :=
  countField f.entries && f.entries.all entryFields && wireField byteField f.verseCount
    && wireField byteField f.amen

/-- What an audio input carried in a hop: 16 data bits in the low half of every word-clock period (R38). -/
def hopInput (i : HopInput) : Bool := i.periods.all (fun p => decide (p.low.length = 16))

/-- The request's fields are well formed. -/
def request : Request → Bool
  | .identify | .getStatus | .getFollow | .clearStore | .go | .allOff | .reservePlan | .getPlan
  | .fetchNotices | .reset => true
  | .setParam n v => byteField n && signedLong v
  | .getParam n => byteField n
  | .setDivision d f => byteField d && divisionFields f
  | .getDivision d => byteField d
  | .setRegistration i r => byteField i && wireField registrationFields r
  | .getRegistration i => byteField i
  | .tuneBegin n h => byteField n && headerFields h
  | .tuneSteps n i l => byteField n && wordField i && countField l && l.all stepFields
  | .tuneEnd n => byteField n
  | .tuneErase n => byteField n
  | .tuneRead n i c => byteField n && wordField i && byteField c
  | .getDirectory n => byteField n
  | .startHymn f => startFields f
  | .stopHymn m a => byteField m && byteField a
  | .amendPlan f => amendFields f
  | .setNotices g e => byteField g && setField e
  | .ackFlags f => setField f

/-- The command is well formed. -/
def command : Instr → Bool
  | .fullReset _ => true
  | .consoleReset dt => interval dt
  | .receiveFrame dt _ _ body => interval dt && decide (body.length ≤ Config.maxBody)
  | .frameTimeout dt => interval dt
  | .replySent dt => interval dt
  | .identify dt _ => interval dt
  | .getStatus dt _ => interval dt
  | .getFollow dt _ => interval dt
  | .setParam dt _ n v => interval dt && request (.setParam n v)
  | .keylineEnableOn dt _ => interval dt
  | .keylineEnableOff dt _ => interval dt
  | .getParam dt _ n => interval dt && request (.getParam n)
  | .setDivision dt _ d f => interval dt && request (.setDivision d f)
  | .getDivision dt _ d => interval dt && request (.getDivision d)
  | .setRegistration dt _ i r => interval dt && request (.setRegistration i r)
  | .getRegistration dt _ i => interval dt && request (.getRegistration i)
  | .tuneBegin dt _ n h => interval dt && request (.tuneBegin n h)
  | .tuneSteps dt _ n i l => interval dt && request (.tuneSteps n i l)
  | .tuneEnd dt _ n => interval dt && request (.tuneEnd n)
  | .tuneErase dt _ n => interval dt && request (.tuneErase n)
  | .tuneRead dt _ n i c => interval dt && request (.tuneRead n i c)
  | .getDirectory dt _ n => interval dt && request (.getDirectory n)
  | .clearStore dt _ => interval dt
  | .clearingEnd dt => interval dt
  | .startHymn dt _ f => interval dt && request (.startHymn f)
  | .go dt _ => interval dt
  | .stopHymnEndOfVerse dt _ a => interval dt && byteField a
  | .stopHymnNow dt _ a => interval dt && byteField a
  | .allOff dt _ => interval dt
  | .reservePlan dt _ => interval dt
  | .amendPlan dt _ f => interval dt && request (.amendPlan f)
  | .getPlan dt _ => interval dt
  | .setNotices dt _ g e => interval dt && request (.setNotices g e)
  | .fetchNotices dt _ => interval dt
  | .ackFlags dt _ f => interval dt && request (.ackFlags f)
  | .reset dt _ => interval dt
  | .inputLost dt _ => interval dt
  | .hopComplete dt a b => interval dt && hopInput a && hopInput b
  | .windowOpen dt => interval dt
  | .windowClose dt => interval dt
  | .windowDecision dt => interval dt
  | .lostTime dt => interval dt
  | .stepEntry dt => interval dt
  | .stepSoundTime dt => interval dt
  | .fermataSoundTime dt => interval dt
  | .fermataRebasedTime dt => interval dt
  | .sectionEnd dt => interval dt
  | .gapEnd dt => interval dt
  | .minimumEnd dt => interval dt
  | .maxWaitExpiry dt => interval dt
  | .breathEnd dt => interval dt
  | .frameStart dt => interval dt
  | .echoReceived dt _ => interval dt
  | .heldInReset dt _ => interval dt
  | .byteReceived dt levels => interval dt && levels.length == 10 && levels.head? == some false

end Sys2Proof.WellFormed
end

