-- ==== Sys2Proof/Safety.lean ====
section
/-! DEFINITION. What a sound state of the part is, in the terms the statements use: capacities, the
canonical form of its tables, the free runs and extents of the pool, and the bonds between blocks. -/

namespace Sys2Proof.Machine

/-- The step pool is in canonical form (log 13). -/
def Memory.wf (p : Table PoolEntry) : Bool := p.wf .blank

/-- Every sparse table of the part is in canonical form. -/
def tablesCanonical (s : State) : Bool :=
  Memory.wf s.store.pool && s.store.slots.wf none && s.organ.registrations.wf none
    && s.map.keys.wf noKey && s.leak.wf noLeak && s.flags.raised.wf none

/-- The request queue, the BUSY list, the Notice Queue, the Onset Queue and the Key Schedule hold no
more than their places (R54, R116, R168, R176). -/
def withinCapacity (s : State) : Bool :=
  decide (s.link.queue.length ≤ Config.requestPlaces) && decide (s.link.busy.length ≤ Config.requestPlaces)
    && decide (s.flags.queue.length ≤ Config.noticePlaces)
    && decide (s.listen.queue.length ≤ Config.onsetPlaces)
    && decide (s.keys.events.length ≤ Config.schedulePlaces)

/-- Free runs in pool order within the pool, none empty and no two adjacent (R6). -/
def runsMaximal : List (Nat × Nat) → Bool
  | [] => true
  | [(b, m)] => decide (0 < m) && decide (b + m ≤ Config.poolEntries)
  | (b, m) :: (c, n) :: rest => decide (0 < m) && decide (b + m < c) && runsMaximal ((c, n) :: rest)

/-- The extents that the slots own: start and declared entries (R6). -/
def extents (st : Store) : List (Nat × Nat) :=
  st.slots.cells.filterMap (fun c => c.2.map (fun sl => (sl.start, sl.header.entries)))

/-- How many runs of a list hold pool entry `e`. -/
def owners (e : Nat) (runs : List (Nat × Nat)) : Nat :=
  runs.countP (fun r => decide (r.1 ≤ e) && decide (e < r.1 + r.2))

/-- Every pool entry is free or belongs to the extent of exactly one slot, every extent holds an
entry, and the free runs are maximal (R6). -/
def PoolDivided (st : Store) : Prop :=
  (∀ e, e < Config.poolEntries → owners e (st.freeRuns ++ extents st) = 1)
    ∧ (∀ x ∈ extents st, 0 < x.2 ∧ x.1 + x.2 ≤ Config.poolEntries)
    ∧ runsMaximal st.freeRuns = true

/-- The Follower is OFF exactly while no hymn is active or a hymn is STOPPING (R79, R82). -/
def followsHymn (s : State) : Bool :=
  (s.player.state == .IDLE || s.player.state == .STOPPING) == (s.follow.state == .OFF)

/-- While the Keyline is OFF no key is down (R148, R162). -/
def silentWhenOff (s : State) : Bool := s.keyline.state != .OFF || !anyDown s.map

end Sys2Proof.Machine
end

