-- ==== Sys2Proof/Certificates/Slice0/Obligations.lean ====
section
/-! DEFINITION. The statements for the provers: what the numbered rules say a command or an operation
does, each as a proposition. -/

namespace Sys2Proof.Claims

open Sys2Proof.Machine

/-- The part takes commands and its Console Link has nothing queued, in hand, in transmission or to
be answered BUSY (R168). -/
def LinkIdle (s : State) : Prop :=
  s.heldInReset = false ∧ s.link.queue = [] ∧ s.link.inHand = false ∧ s.link.sending = none
    ∧ s.link.busy = []

/-- The part takes commands. -/
def InService (s : State) : Prop := s.heldInReset = false

/-- The queued request of a row. -/
def queuedRow (r : Request) (tag : Byte) : Queued := ⟨BitVec.ofNat 8 (kindOf r), tag, .request r⟩

/-- The reply to a row's request: its kind with the reply mark, its tag, the result and the fields
(R169). -/
def replyOf (r : Request) (tag : Byte) (x : Result) (fields : List Byte) : Reply :=
  ⟨BitVec.ofNat 8 (kindOf r) ||| 0x80#8, tag, u8 (resultCode x) ++ fields⟩

/-- The link with request `r` in hand and the frame of its reply in transmission (R166, R168). -/
def linkAnswering (r : Request) (tag : Byte) (x : Result) (fields : List Byte) (l : Link) : Link :=
  { l with queue := [queuedRow r tag], inHand := true,
           sending := some ⟨replyFrame (replyOf r tag x fields), true, decide (r = .reset)⟩ }

/-- The part `t` with request `r` in hand and its reply in transmission. -/
def replied (r : Request) (tag : Byte) (x : Result) (fields : List Byte) (t : State) : State :=
  { t with link := linkAnswering r tag x fields t.link }

/-- R87, last column; and the model's own gap record, none (log 24). -/
def PlayerAtReset (p : Player) : Prop :=
  p.state = .IDLE ∧ p.sec = none ∧ p.slot = none ∧ p.plan = none ∧ p.registration = none
    ∧ (∀ v, voiceGet p.channels v = ⟨none, 0⟩) ∧ p.window = [] ∧ p.readAhead = none ∧ p.fence = .NONE
    ∧ p.goLatch = false ∧ p.reservation = .NONE ∧ p.wait = none ∧ p.fermata = none ∧ p.gap = none
    ∧ p.lastOutcome = none

/-- R148: the values after a full reset. -/
def KeylineAtReset (k : Keyline) : Prop :=
  k.state = .OFF ∧ k.interval = 20 ∧ k.pendingInterval = none ∧ k.nextStart = none ∧ k.frameNumber = 0
    ∧ k.awaited = none ∧ k.heldEcho = none ∧ k.errors = 0 ∧ k.goods = 0 ∧ k.lastOutcome = none
    ∧ k.lastBoards = none ∧ k.stopQueue = [] ∧ k.cursor = 0 ∧ k.carry = [] ∧ k.sweep = []
    ∧ k.watch = none ∧ k.slips = 0

/-- The row that sends a request. -/
def rowOf (dt : Nat) (tag : Byte) : Request → Instr
  | .identify => .identify dt tag
  | .getStatus => .getStatus dt tag
  | .getFollow => .getFollow dt tag
  | .setParam n v => .setParam dt tag n v
  | .getParam n => .getParam dt tag n
  | .setDivision d f => .setDivision dt tag d f
  | .getDivision d => .getDivision dt tag d
  | .setRegistration i r => .setRegistration dt tag i r
  | .getRegistration i => .getRegistration dt tag i
  | .tuneBegin n h => .tuneBegin dt tag n h
  | .tuneSteps n i l => .tuneSteps dt tag n i l
  | .tuneEnd n => .tuneEnd dt tag n
  | .tuneErase n => .tuneErase dt tag n
  | .tuneRead n i c => .tuneRead dt tag n i c
  | .getDirectory n => .getDirectory dt tag n
  | .clearStore => .clearStore dt tag
  | .startHymn f => .startHymn dt tag f
  | .go => .go dt tag
  | .stopHymn m a => if m = 1 then .stopHymnNow dt tag a else .stopHymnEndOfVerse dt tag a
  | .allOff => .allOff dt tag
  | .reservePlan => .reservePlan dt tag
  | .amendPlan f => .amendPlan dt tag f
  | .getPlan => .getPlan dt tag
  | .setNotices g e => .setNotices dt tag g e
  | .fetchNotices => .fetchNotices dt tag
  | .ackFlags f => .ackFlags dt tag f
  | .reset => .reset dt tag

/-- R165: a byte on a line of the Console Link, with the stop bit as given: the start bit, low, the eight data
bits, the least significant first, and the stop bit, high in a good byte. -/
def serial (b : Byte) (stop : Bool) : List Bool :=
  [false, b.getLsbD 0, b.getLsbD 1, b.getLsbD 2, b.getLsbD 3, b.getLsbD 4, b.getLsbD 5, b.getLsbD 6,
   b.getLsbD 7, stop]

/-- The byte times of a run of bytes, `dt` units before each. -/
def byteRun (dt : Nat) (bs : List Byte) : List Instr := bs.map (fun b => .byteReceived dt (serial b true))

/-- A run of commands, one after the other. -/
def runAll : List Instr → State → Host.Outcome State Fault Refusal
  | [], s => .next s
  | c :: rest, s =>
    match exec c s with
    | .next t => runAll rest t
    | .fault f => .fault f
    | .refused r => .refused r

/-- Table 11.1: the parameters whose range is fixed and whose new value acts on no state at once, with
their bounds. -/
def plainBounds : Nat → Option (Nat × Nat)
  | 3 => some (0, 255)
  | 4 => some (0, 255)
  | 5 => some (1, 100)
  | 6 => some (1, 8)
  | 7 => some (1, 8)
  | 10 => some (96, 768)
  | 12 => some (0, 10000)
  | 15 => some (0, 1536)
  | 17 => some (1, 8)
  | 18 => some (1, 8)
  | 20 => some (0, 5000)
  | 22 => some (4, 128)
  | 23 => some (3, 25)
  | 24 => some (0, 255)
  | 25 => some (1, 255)
  | _ => none

/-- Requests that only report: answered OK whatever the part's state, and changing nothing. -/
def reports : Request → Bool
  | .identify | .getFollow | .getPlan => true
  | .getParam n => decide (1 ≤ n) && decide (n ≤ 28)
  | .getDivision d => decide (1 ≤ d) && decide (d ≤ 5)
  | .getRegistration i => decide (i < 16)
  | .getDirectory n => decide (n < 32)
  | _ => false

/-- The enables of flag `g` under a SET_NOTICES. -/
def enabledBy (global enables : Nat) (g : Flag) : Bool :=
  global == 1 && enables.testBit (flagNumber g - 1)

/-- R24, R27: the record that a SET_DIVISION leaves, each numeric field clamped and the key count kept
within the pitches up to 127. -/
def limitedDivision (f : DivisionFields) : DivisionRec :=
  let lowest := min f.lowest 127
  { present := f.present == 1, lowest := lowest,
    keyCount := min (min (max f.keyCount 1) 64) (128 - lowest),
    speech := min f.speech 2500, release := min f.release 1000, acoustic := min f.acoustic 3000,
    leakTracking := f.leakTracking == 1, leakTail := min f.leakTail 60000,
    stopCount := min f.stopCount 32, enclosed := f.enclosed == 1 }

/-- A numeric field of the request differs from the record's. -/
def divisionChanged (f : DivisionFields) (r : DivisionRec) : Bool :=
  decide (r.lowest ≠ f.lowest ∨ r.keyCount ≠ f.keyCount ∨ r.speech ≠ f.speech ∨ r.release ≠ f.release
    ∨ r.acoustic ≠ f.acoustic ∨ r.leakTail ≠ f.leakTail ∨ r.stopCount ≠ f.stopCount)

/-- The yes/no bytes of a SET_DIVISION are 0 or 1. -/
def yesNoValid (f : DivisionFields) : Prop := f.present ≤ 1 ∧ f.leakTracking ≤ 1 ∧ f.enclosed ≤ 1

/-- R33: the fields of a SET_REGISTRATION pass its tests. -/
def registrationValid (o : Organ) (f : RegistrationFields) : Prop :=
  1 ≤ f.first ∧ f.first ≤ f.last ∧ f.last ≤ 12 ∧ 1 ≤ f.repeats ∧ f.repeats ≤ 4 ∧ f.base < f.repeats
    ∧ (∀ n ∈ voiceList f.routing, n = 6 ∨ ∃ d, divisionOf n = some d ∧ (divRec o d).present = true)
    ∧ ∀ d, ∀ b ∈ divGet f.stops d, b ≤ 1

/-- R5, R12: every field of a TUNE_BEGIN header lies in its range. -/
def headerValid (h : HeaderFields) : Prop :=
  h.number ≤ 9999 ∧ 1 ≤ h.beats ∧ h.beats ≤ 12 ∧ 300000 ≤ h.pmin ∧ h.pmin ≤ h.nominal
    ∧ h.nominal ≤ h.pmax ∧ h.pmax ≤ 1500000 ∧ 1 ≤ h.verseSteps ∧ h.verseSteps ≤ 1024
    ∧ h.amenSteps ≤ 64
    ∧ (h.intro = .absent ∨ ∃ r, h.intro = .present r ∧ r.first ≤ r.last ∧ r.last + 1 ≤ h.verseSteps)
    ∧ h.verseSteps + h.amenSteps ≤ h.entries ∧ h.entries ≤ 9 * (h.verseSteps + h.amenSteps)

/-- Lengths of free runs. -/
def runLengths (runs : List (Nat × Nat)) : List Nat := runs.map Prod.snd

/-- The store takes requests about slot `n` (R11 to R23). -/
def SlotServed (s : State) (n : Nat) : Prop := n < 32 ∧ s.store.clearEnd = none

/-- The largest position + duration of some written steps (R10). -/
def endOf (ws : List Written) : Nat := (ws.map (fun w => w.position + w.duration)).foldl max 0

/-- R9, R14: every field of a sent step lies in its range, and no two of its notes share voice and pitch. -/
def stepInRange (f : StepFields) : Prop :=
  f.position ≤ 65535 ∧ 1 ≤ f.duration ∧ f.position + f.duration ≤ 65535 ∧ f.follow ≤ 1
    ∧ (f.fermata = .absent
        ∨ ∃ x, f.fermata = .present x ∧ x.kind ≤ 1 ∧ 4 ≤ x.factor ∧ x.factor ≤ 32)
    ∧ f.notes.length ≤ 8 ∧ (∀ n ∈ f.notes, n.voice ≤ 5 ∧ n.pitch ≤ 127 ∧ n.tieOn ≤ 1)
    ∧ f.notes.Pairwise (fun a b => ¬ (a.voice = b.voice ∧ a.pitch = b.pitch))

/-- R14: step `j` of a TUNE_STEPS list for the LOADING slot `sl` is valid: in range, and, unless it begins the
verse part or the Amen part, behind the step before it: for the first of the list the last position
written, else the step before in the list. -/
def stepValid (sl : Slot) (l : List StepFields) (j : Nat) : Prop :=
  ∃ f, l[j]? = some f ∧ stepInRange f
    ∧ (sl.stepsWritten + j ≠ 0 → sl.stepsWritten + j ≠ sl.header.verseSteps →
        (j = 0 → ∀ p, sl.lastPosition = some p → p < f.position)
        ∧ ∀ i g, j = i + 1 → l[i]? = some g → g.position < f.position)

/-- R9: the pool entries of a list of steps, one for each step and one for each of its notes. -/
def entriesOf (l : List StepFields) : Nat := (l.map (fun f => 1 + f.notes.length)).sum

/-- R9, R170: the step record `r` has the fields of the sent step `f`. -/
def recordsStep (f : StepFields) (r : StepRec) : Prop :=
  r.position = f.position ∧ r.duration = f.duration ∧ r.follow = (f.follow == 1)
    ∧ (f.fermata = .absent → r.fermata = none)
    ∧ (∀ x, f.fermata = .present x →
        r.fermata = some ⟨if x.kind = 0 then .TIMED else .CUED, x.factor⟩)
    ∧ List.Forall₂ (fun a b => voiceNumber b.voice = a.voice ∧ b.pitch = a.pitch ∧ b.tieOn = (a.tieOn == 1))
        f.notes r.notes

/-- A slot's state, header, extent start and counts (R5). -/
def slotCounts (x : Slot) : SlotState × Header × Nat × Nat × Nat :=
  (x.state, x.header, x.start, x.stepsWritten, x.entriesWritten)

/-- A START_HYMN that passes every test of R88 in state `s`: the slot's record, the overrides, the
opening entry and the registration that applies to it. -/
def Startable (f : StartFields) (s : State) (sl : Slot) (es : List PlanEntry) (e : PlanEntry)
    (r : Nat × Registration) : Prop :=
  f.slot < 32 ∧ s.player.state = .IDLE ∧ s.keyline.state ≠ .OFF ∧ s.store.clearEnd = none
    ∧ slotRec s.store f.slot = some sl ∧ sl.state = .READY
    ∧ startProblem f = none ∧ asEntries f.overrides = some es
    ∧ (f.intro = 1 → sl.header.intro ≠ none) ∧ (f.amen = 1 → 0 < sl.header.amenSteps)
    ∧ openingEntry (buildPlan f es) = some e ∧ applies s.organ e.registration e.verse = some r

/-- The hymn position at which a hymn begins (R89). -/
def startPosition (f : StartFields) (e : PlanEntry) : HymnPos := ⟨if f.intro = 1 then 0 else e.verse, 0⟩

/-- No step is held in the Lookahead Window and none is read ahead. -/
def NothingAhead (p : Player) : Prop := p.window = [] ∧ p.readAhead = none

/-- A hymn is active (R88). -/
def HymnActive (s : State) : Prop := s.player.state ≠ .IDLE ∧ s.player.state ≠ .STOPPING

/-- The wait `w` resumed at `now` by GO or by the max wait, with breath `b` (R108). -/
def breathing (w : Wait) (now : Time) (b : Nat) : Wait :=
  { w with phase := .BREATH, breathEnd := timePlus now b, began := now, byOnset := false }

/-- The onset is a candidate of window `m` (R69). -/
def inWindow (m : MatchWindow) (o : Onset) : Bool := !later m.opens o.time && !later o.time m.closes

/-- The events of the part's own blocks, which no sender of requests makes: hearing, following, walking,
keying and the clearing. -/
def blockEvent : Instr → Bool
  | .clearingEnd _ | .inputLost .. | .hopComplete .. | .windowOpen _ | .windowClose _
  | .windowDecision _ | .lostTime _ | .stepEntry _ | .stepSoundTime _ | .fermataSoundTime _
  | .fermataRebasedTime _ | .sectionEnd _ | .gapEnd _ | .minimumEnd _ | .maxWaitExpiry _
  | .breathEnd _ | .frameStart _ | .echoReceived .. => true
  | _ => false

/-- The section state of section `n` (R100). -/
def stateOfSection (n : Nat) : PlayerState := if n = 0 then .INTRO else if n = 13 then .AMEN else .VERSE

/-- A PROVISIONAL event at or before the boundary made FIRM, at now when its time is past (R125). -/
def firmed (now boundary : Time) (e : KeyEvent) : KeyEvent :=
  if e.firm = false ∧ later e.time boundary = false then
    { e with firm := true, time := if later now e.time = true then now else e.time }
  else e

/-- R127: the key time of a PROVISIONAL event by its position under the anchor and period in force. -/
def retimed (f : Follow) (o : Organ) (e : KeyEvent) : KeyEvent :=
  if e.firm = true then e
  else
    match e.basis, e.kind with
    | .fixed, _ => e
    | .position p _, .DOWN =>
      { e with time := timePlus (predict f p) (-((divRec o e.division).speech : Int)) }
    | .position p _, .RENEW => { e with time := predict f p }
    | .position p none, .UP =>
      { e with time := timePlus (predict f p) (-((divRec o e.division).release : Int)) }
    | .position p (some q), .UP =>
      let own := timePlus (predict f p) (-((divRec o e.division).release : Int))
      let strike := timePlus (predict f q) (-((divRec o e.division).speech : Int))
      { e with time := timeMin own strike }

/-- FIRM events stand before PROVISIONAL ones. -/
def FirmFirst (l : List KeyEvent) : Prop :=
  ∃ a b, l = a ++ b ∧ (∀ e ∈ a, e.firm = true) ∧ (∀ e ∈ b, e.firm = false)

/-- R116: the place of an event's kind at one key time: UP, then RENEW, then DOWN. -/
def kindPlace : KeyKind → Nat
  | .UP => 0
  | .RENEW => 1
  | .DOWN => 2

/-- R116: `b` may stand behind `a` in schedule order: no earlier key time, and at the same one the kinds and
then the insertion numbers in their order. -/
def MayFollow (a b : KeyEvent) : Prop :=
  (a.time ≠ b.time → later a.time b.time = false)
    ∧ (a.time = b.time → kindPlace a.kind < kindPlace b.kind
        ∨ (a.kind = b.kind ∧ (a.number - b.number).toInt ≤ 0))

/-- Each event may follow the one before it. Signed differences order no more than neighbours when the times
or the insertion numbers lie more than half their range apart. -/
def NeighboursInOrder (l : List KeyEvent) : Prop :=
  ∀ i a b, l[i]? = some a → l[i + 1]? = some b → MayFollow a b

/-- R116: FIRM events stand first, each class is in schedule order, and every PROVISIONAL event lies behind
the firm boundary. -/
def ScheduleInOrder (k : Schedule) : Prop :=
  (∃ a b, k.events = a ++ b ∧ (∀ e ∈ a, e.firm = true) ∧ (∀ e ∈ b, e.firm = false)
      ∧ NeighboursInOrder a ∧ NeighboursInOrder b)
    ∧ ∀ e ∈ k.events, e.firm = false → later e.time k.boundary = true

/-- A kind of cued wait and the Player state it belongs to (R87, R107). -/
def waitState : WaitKind → PlayerState
  | .fermata => .FERMATA
  | .gap => .GAP
  | .start => .START_WAIT

/-- The wait and fermata records stand only in the states they belong to, a cued wait never beside a
TIMED fermata, and the Follower is OFF exactly in IDLE and STOPPING (R84, R87). -/
def PlayerBound (s : State) : Prop :=
  (∀ w, s.player.wait = some w → s.player.state = waitState w.kind)
    ∧ (∀ f, s.player.fermata = some f → s.player.state = .FERMATA ∧ (s.player.wait ≠ none → f.kind = .CUED))
    ∧ ((s.player.state = .IDLE ∨ s.player.state = .STOPPING) ↔ s.follow.state = .OFF)

/-- The verses of a plan are 1 to its verse count, at most 12 (R89). -/
def PlanNumbered (pl : Plan) : Prop :=
  pl.entries.map (·.verse) = (List.range pl.entries.length).map (· + 1) ∧ pl.entries.length ≤ 12

/-- The plan, where there is one, is numbered so, through every amendment and cut (R94, R112). -/
def PlanSound (s : State) : Prop := ∀ pl, s.player.plan = some pl → PlanNumbered pl

/-- A HELD reservation names a verse of the plan whose entry is not latched (R93). -/
def ReservationOpen (s : State) : Prop :=
  ∀ v, s.player.reservation = .HELD v →
    ∃ pl, s.player.plan = some pl ∧ ∃ e ∈ pl.entries, e.verse = v ∧ e.latched = false

/-- R96: `a` comes of part `s` by `n` entries and departures, all that one event admits: as long as the
read-ahead step is due it enters, and where it is not, the window being full, it is once the earliest step
that leaves has left. -/
def AdmittedIn : Nat → State → State → Prop
  | 0, s, a => a = s ∧ entryDue s = none ∧ entryDue (leaveFirst s) = none
  | n + 1, s, a =>
    (∃ r, entryDue s = some r ∧ AdmittedIn n (enterStep r s) a)
      ∨ (entryDue s = none ∧ (entryDue (leaveFirst s)).isSome = true ∧ AdmittedIn n (leaveFirst s) a)

/-- R65, R68, R97: an event lets every step enter that it admits; then the Follower looks once, for a window
where it holds none, and computes a PENDING one again where a step has entered; then the steps whose time
has come leave. A window that is to be decided at once is left to R67. -/
def EventLooksOnce : Prop :=
  ∀ (n : Nat) (s a : State), n ≤ 4000 → AdmittedIn n s a →
    let looked :=
      match a.follow.window with
      | none => seekWindow a
      | some m => if m.phase = WindowPhase.PENDING ∧ 0 < n then recompute a else a
    ((∃ m, a.follow.window = some m ∧ (m.phase ≠ .PENDING ∨ n = 0))
      ∨ ∀ m, looked.follow.window = some m → later m.decides s.now = true) →
    settle s = { looked with player := { looked.player with
      window := looked.player.window.filter (fun w => !leaves looked w) } }

/-- What a held step keeps of the step read (R96). -/
def stepFields (w : WindowStep) : HymnPos × Nat × Nat × Bool × Option Fermata × List Note :=
  (⟨w.sec, w.pos⟩, w.index, w.dur, w.follow, w.fermata, w.notes)

/-- The same fields of a read-ahead step. -/
def aheadFields (r : ReadAhead) : HymnPos × Nat × Nat × Bool × Option Fermata × List Note :=
  (⟨r.sec, r.pos⟩, r.index, r.record.duration, r.record.follow, r.record.fermata, r.record.notes)

/-- A match window stands whose open time has come, so that a rebase or an entry does not replace it
(R68, R83). -/
def WindowStands (f : Follow) : Prop := f.state ≠ .OFF ∧ ∃ m, f.window = some m ∧ m.phase ≠ .PENDING

/-- The Follower after a rebase of `f` to (t, p) (R83). -/
def RebasedTo (t : Time) (p : HymnPos) (f g : Follow) : Prop :=
  g.anchorTime = t ∧ g.anchor = p ∧ g.rebased = true ∧ g.period = f.period ∧ g.state = f.state
    ∧ g.matched = f.matched ∧ g.missed = f.missed

/-- R98: the fence has been lifted in `t`, and only an entry has set it since: it is NONE, or it stands at a step
of section `sec`, the last one read of it or a fermata step in the window whose index is `i` or more. -/
def FenceLifted (sec i : Nat) (t : State) : Prop :=
  t.player.fence = .NONE
    ∨ ∃ q, t.player.fence = .upTo q ∧ q.sec = sec
        ∧ (t.player.readAhead = none
          ∨ ∃ x ∈ t.player.window, stepPos x = q ∧ i ≤ x.index ∧ x.fermata ≠ none)

/-- A rebase of `s` to position `p`, at now or later, decides no window in its own event: one stands, or the
period, Lc and W lie in their ranges and no step ahead lies in a section behind `p`, so that a window made for
one is decided later than now (R12, R65 to R67, R182). -/
def QuietAt (p : HymnPos) (s : State) : Prop :=
  WindowStands s.follow
    ∨ (s.follow.state ≠ .OFF ∧ s.follow.period ≤ 1500000 ∧ s.params.choirLag ≤ 4000
        ∧ s.params.halfWidth ≤ 2500
        ∧ (∀ x ∈ s.player.window, posBefore ⟨x.sec, x.pos⟩ p = true ∨ (x.sec = p.sec ∧ x.pos ≤ 65535))
        ∧ ∀ r, s.player.readAhead = some r → r.sec = p.sec ∧ r.pos ≤ 65535)

/-- The hold of a fermata of factor `k` over `dur` su at period `p` (R104). -/
def holdAt (k dur p cap : Nat) : Int := min (roundDiv (k * dur * p : Nat) (4 * 19200)) cap

/-- Each key is released by an UP whose time is fixed at `t`. -/
def ReleasedAt (t : Time) (keys : List (Voice × Division × Nat)) (k : Schedule) : Prop :=
  ∀ x ∈ keys, ∃ e ∈ k.events, e.kind = .UP ∧ (e.voice, e.division, e.key) = x ∧ e.basis = .fixed
    ∧ e.time = t

/-- R90, R101: section `k` follows section `n` behind gap `g`, the introduction's gap being `introGap`. -/
def SectionAfter (introGap : Nat) (pl : Plan) (n k : Nat) (g : Gap) : Prop :=
  n < 13
    ∧ ((∃ e ∈ pl.entries, e.verse = k ∧ n < k ∧ e.mode ≠ .OMIT
          ∧ (∀ x ∈ pl.entries, n < x.verse → x.mode ≠ .OMIT → k ≤ x.verse)
          ∧ ((n = 0 ∧ g = ⟨introGap, false⟩) ∨ ∃ x ∈ pl.entries, x.verse = n ∧ 0 < n ∧ g = x.gap))
      ∨ (k = 13 ∧ pl.amen = true ∧ g = pl.gap ∧ ∀ x ∈ pl.entries, n < x.verse → x.mode = .OMIT))

/-- R91, R92: a plan entry after the OMIT verses below section `k` have been passed over and verse `k`
has been latched with registration index `r`. -/
def passedOrLatched (k : Nat) (r : Option Nat) (e : PlanEntry) : PlanEntry :=
  if e.verse = k then (if e.latched = true then e else { e with latched := true, recorded := r })
  else if e.verse < k ∧ e.mode = .OMIT then { e with latched := true }
  else e

/-- R92: the OMIT verses below section `k` of plan `pl`, the one that stands in `s`, have been passed over: their
entries are latched with no registration, and a HELD reservation that names one not latched before is LOST,
with RESERVATION_LOST raised. -/
def overPassed (k : Nat) (pl : Plan) (s : State) : State :=
  let passed (r : Reservation) : State := { s with player := { s.player with
    reservation := r,
    plan := some { pl with entries := pl.entries.map (fun e =>
      if e.verse < k ∧ e.mode = .OMIT then { e with latched := true } else e) } } }
  match s.player.reservation with
  | .HELD r =>
    if ∃ e ∈ pl.entries, e.verse = r ∧ r < k ∧ e.mode = .OMIT ∧ e.latched = false then
      raise (.reservationLost r) (passed .LOST)
    else passed (.HELD r)
  | r => passed r

/-- No fermata step's sound time and no section end time has come, and no cued wait runs (R100). -/
def NothingDue (s : State) : Prop :=
  s.player.wait = none ∧ fermataDue s = none ∧ sectionEndDue s = false

/-- The part `s` in the section state of section `n`, its fermata and its wait over (R105, R109). -/
def backInSection (n : Nat) (s : State) : State :=
  { s with player := { s.player with state := stateOfSection n, fermata := none, wait := none } }

/-- The part `s` in the section state of section `k`, entered from a gap or from START_WAIT (R100, R102, R109). -/
def sectionEntered (k : Nat) (s : State) : State :=
  raise (.verse k ((s.player.registration.map (·.1)).getD 0) (sectionMode s.player k))
    { s with player := { s.player with state := stateOfSection k, sec := some k, wait := none, gap := none } }

/-- R107: the wait `w` has entered WAITING in `s`. -/
def nowWaiting (w : Wait) (s : State) : State :=
  raise (.wait .waiting w.kind w.resume) { s with player := { s.player with
    wait := some { w with phase := .WAITING, start := s.now }, lastOutcome := some .waiting } }

/-- R107: the wait `w` is void in `s`, where its resume has still to come. -/
def nowVoid (w : Wait) (s : State) : State :=
  raise (.wait .void w.kind w.resume) { s with player := { s.player with
    goLatch := false, lastOutcome := some .void } }

/-- R108, R109: the wait `w` having resumed with breath `b`, the part standing at `r`, how its event `ends`: in
the BREATH; or, where the breath is 0 and ends at once and nothing more is due, in the section behind the
wait. -/
def GoesOn (b : Nat) (w : Wait) (r : State) (ends : State → Prop) : Prop :=
  (0 < b → ends r)
  ∧ (b = 0 → w.kind = .fermata → ∀ n, r.player.sec = some n → NothingDue (backInSection n r) →
      ends (backInSection n r))
  ∧ (b = 0 → w.kind ≠ .fermata → NothingDue (sectionEntered w.resume.sec r) →
      ends (sectionEntered w.resume.sec r))

/-- Every key entry but that of key `k` of division `d` is the same in both maps. -/
def OtherKeysStay (a b : SoundingMap) (d : Division) (k : Nat) : Prop :=
  ∀ d' k', k' < 64 → (d' ≠ d ∨ k' ≠ k) → keyEntry b d' k' = keyEntry a d' k'

/-- R142: the later of the deadline held `x` and a new one `y`, at composition time `f`. -/
def laterDeadline (f x y : Time) : Time :=
  if timeDiff x f < 1 ∨ 70000 < timeDiff x f then y else if 0 < timeDiff y x then y else x

/-- Every cell of the key table is a key of a division (R133). -/
def keysInRange (m : SoundingMap) : Bool := m.keys.cells.all (fun c => decide (64 ≤ c.1) && decide (c.1 < 384))

/-- R150: the outcome of the judgement of frame `n`. -/
def outcomeOf (n : Nat) : Option Echo → EchoOutcome
  | none => .MISSING
  | some e => if e.number ≠ n then .WRONG_NUMBER else if e.ok = true then .GOOD else .CHECK_BAD

/-- Number of the down keys of class `c` in the divisions whose leak tracking is on (R139). -/
def downOfClass (s : State) (c : Nat) : Nat :=
  (downKeys s.map).countP (fun x =>
    (divRec s.organ x.1).leakTracking && keyClass s.organ x.1 x.2.1 == c)

/-- R139: each held count is the number of the down keys of its class in the divisions with leak
tracking on; and what this rests on: no key is down in an OFF Keyline, the tables are in canonical
form, and every key of the map, the schedule, a waiting release and a division is one of 64. -/
def MaskAgrees (s : State) : Prop :=
  (∀ c, c < 12 → (leakEntry s.leak c).held = downOfClass s c)
    ∧ silentWhenOff s = true ∧ tablesCanonical s = true ∧ keysInRange s.map = true
    ∧ (∀ d, (divRec s.organ d).keyCount ≤ 64) ∧ (∀ e ∈ s.keys.events, e.key < 64)
    ∧ ∀ q ∈ s.player.releases, ∀ k ∈ q.keys, k.2.2 < 64

/-- The bounds of the parameters whose new value can act at once or whose range stands with another value
(Table 11.1, R182), and of the choices. -/
def actingBounds (s : State) : Nat → Option (Nat × Nat)
  | 1 => some (0, 4000)
  | 2 => some (200, 2500)
  | 8 => some (20000, 300000)
  | 9 => some (0, 1)
  | 11 => some (max 100 (2 * max s.keyline.interval (s.keyline.pendingInterval.getD 0)), 1000)
  | 13 => some (0, 600000)
  | 14 => some (10000, s.params.cipherLimit - 10000)
  | 26 => some (0, 1)
  | 27 => some (0, 4095)
  | 28 => some (4, 32)
  | _ => none

/-- R56: backlog judged on the fill under the critical level in force, from `s` to `t`. -/
def BacklogJudged (s t : State) : Prop :=
  let fill := s.listen.queue.length
  let set (b : Bool) : State := { s with listen := { s.listen with backlog := b } }
  (s.listen.backlog = false → t = if s.params.critical ≤ fill then raise (.onsetBacklog fill) (set true) else s)
    ∧ (s.listen.backlog = true → t = if fill < s.params.critical / 2 then set false else s)

/-- R64: a step that is a follow point of a walked section. -/
def IsFollowPoint (p : Player) (w : WindowStep) : Prop :=
  w.follow = true ∧ 1 ≤ w.sec ∧ (w.sec ≠ 13 → ∀ e, planEntry p w.sec = some e → e.mode ≠ .OMIT)

/-- R64: a step of the Lookahead Window that may be used as a follow point. -/
def MayBeUsed (s : State) (w : WindowStep) : Prop :=
  IsFollowPoint s.player w ∧ posBefore ⟨w.sec, w.pos⟩ s.follow.cursor = false

/-- R65: a follow point behind `point` whose expected choir time lies `d` units after that of `point`. -/
def LiesAhead (s : State) (point : HymnPos) (w : WindowStep) (d : Int) : Prop :=
  IsFollowPoint s.player w ∧ posBefore point ⟨w.sec, w.pos⟩ = true
    ∧ d = timeDiff (predict s.follow w.pos) (predict s.follow point.pos)

/-- R65: g_next, the distance from `point` to the first follow point behind it that is 400 units off. -/
def NextDistance (s : State) (point : HymnPos) : Option Int → Prop
  | none => ∀ w ∈ s.player.window, ∀ d, LiesAhead s point w d → d < 400
  | some g => ∃ before w after, s.player.window = before ++ w :: after ∧ LiesAhead s point w g ∧ 400 ≤ g
      ∧ ∀ x ∈ before, ∀ d, LiesAhead s point x d → d < 400

/-- R66, R67: the window of `point` with the distances g_prev and g_next. The previous used follow point that it
keeps is the model's field (log 24). -/
def windowFor (s : State) (gPrev gNext : Option Int) (prev : Option HymnPos) (point : HymnPos)
    (index : Nat) : MatchWindow :=
  let half (n : Nat) (g : Option Int) : Nat := (g.map (fun d => min n (d / 2).toNat)).getD n
  let expected := timePlus (predict s.follow point.pos) s.params.choirLag
  let width := half (half s.params.halfWidth gPrev) gNext
  let closes := timePlus expected width
  let own := timePlus expected (-(width : Int))
  let opens :=
    match s.follow.lastClose with
    | some c => if later (timePlus c 1) own = true then timePlus c 1 else own
    | none => own
  { point := point, index := index, expected := expected, halfWidth := width, opens := opens,
    closes := closes, decides := timePlus closes 160,
    phase := if later closes s.now = false then .DECIDING
             else if later opens s.now = false then .OPEN else .PENDING,
    prevBefore := prev }

/-- R65, R66: what comes of follow point `point` behind the previous used one `prev`: its window, or none
where it is passed over, a previous follow point being nearer than 400 units or the open time later than
the close time. -/
def PlacedAround (s : State) (prev : Option HymnPos) (point : HymnPos) (index : Nat)
    (made : Option MatchWindow) : Prop :=
  ∃ gNext, NextDistance s point gNext
    ∧ (let gPrev := prev.map (fun q => timeDiff (predict s.follow point.pos) (predict s.follow q.pos))
       let m := windowFor s gPrev gNext prev point index
       let passedOver : Prop := (∃ g, gPrev = some g ∧ g < 400) ∨ later m.opens m.closes = true
       (passedOver → made = none) ∧ (¬ passedOver → made = some m))

/-- How a match window is placed, and which follow point it is placed for (R64 to R66, R68). With no window
held outside OFF the earliest usable follow point is taken: it gets its window, or is passed over and the
search goes on from just after it. A PENDING window is computed again from its follow point; passed over
then, it goes, with the previous used follow point as it was before, and the search goes on. -/
def WindowsArePlaced : Prop :=
  (∀ (s : State) (prev : Option HymnPos) (point : HymnPos) (index : Nat),
      PlacedAround s prev point index (placeWindow s prev point index))
  ∧ (∀ s : State, s.player.window.length ≤ 16 →
      ((s.follow.state = .OFF ∨ s.follow.window ≠ none) → seekWindow s = s)
      ∧ ((∀ w ∈ s.player.window, ¬ MayBeUsed s w) → seekWindow s = s)
      ∧ (s.follow.state ≠ .OFF → s.follow.window = none → ∀ before w after,
          s.player.window = before ++ w :: after → (∀ x ∈ before, ¬ MayBeUsed s x) → MayBeUsed s w →
          let moved := { s.follow with cursor := ⟨w.sec, w.pos + 1⟩ }
          (PlacedAround s s.follow.prevUsed ⟨w.sec, w.pos⟩ w.index none →
              seekWindow s = seekWindow { s with follow := moved })
          ∧ ∀ m, PlacedAround s s.follow.prevUsed ⟨w.sec, w.pos⟩ w.index (some m) →
              seekWindow s = { s with follow :=
                { moved with window := some m, prevUsed := some ⟨w.sec, w.pos⟩ } }))
  ∧ (∀ (s : State) (m : MatchWindow), s.follow.window = some m → m.phase = .PENDING →
      (∀ m', PlacedAround s m.prevBefore m.point m.index (some m') →
          recompute s = { s with follow := { s.follow with window := some m' } })
      ∧ (PlacedAround s m.prevBefore m.point m.index none →
          recompute s = seekWindow { s with follow :=
            { s.follow with window := none, prevUsed := m.prevBefore } }))

/-- The fermata's wait `w` of `s` has resumed at `now` by GO or by the max wait, with nothing ahead; the part
then stands at `t` (R83, R108). -/
def ResumedFermata (now : Time) (w : Wait) (s t : State) : Prop :=
  t.player = { s.player with wait := some (breathing w now s.params.breath), fence := .NONE }
    ∧ (s.follow.state ≠ .OFF → t.follow.anchorTime = timePlus now s.params.breath
        ∧ t.follow.anchor = w.resume ∧ t.follow.rebased = true ∧ t.follow.prevUsed = none
        ∧ t.follow.cursor = w.resume ∧ t.follow.period = s.follow.period
        ∧ t.follow.matched = s.follow.matched ∧ t.follow.missed = s.follow.missed
        ∧ t.follow.state = s.follow.state)
    ∧ t.map = s.map ∧ t.keyline = s.keyline ∧ t.listen = s.listen ∧ t.store = s.store
    ∧ t.flags = s.flags

/-- The walking of section `k` has begun between `s` and `t`: its first step is read ahead, or has entered
(R96). -/
def FirstStepRead (k : Nat) (s t : State) : Prop :=
  ∀ n sl r, s.player.slot = some n → slotRec s.store n = some sl →
    let steps := sectionSteps sl.header k
    let first : ReadAhead := ⟨k, steps.1, r.position - sectionBase sl k, r, false⟩
    steps.1 < steps.2 → readStep s.store sl steps.1 = some r → s.follow.period ≤ 1500000 →
    t.player.readAhead = some first ∨ ∃ x ∈ t.player.window, stepFields x = aheadFields first

/-- The wait `w` of a gap or of START_WAIT in `s` has resumed at `now` by GO or by the max wait; the part
then stands at `t`: the Player as it was but for its breath, the fence lifted until a step enters, the
Follower rebased, and the walking of the section behind begun (R83, R96, R98, R108, R110). -/
def ResumedSection (now : Time) (w : Wait) (s t : State) : Prop :=
  t.player.state = s.player.state ∧ t.player.sec = s.player.sec ∧ t.player.slot = s.player.slot
    ∧ t.player.plan = s.player.plan ∧ t.player.registration = s.player.registration
    ∧ t.player.channels = s.player.channels ∧ t.player.gap = s.player.gap
    ∧ t.player.goLatch = s.player.goLatch ∧ t.player.reservation = s.player.reservation
    ∧ t.player.lastOutcome = s.player.lastOutcome
    ∧ t.player.wait = some (breathing w now s.params.breath)
    ∧ t.map = s.map ∧ t.leak = s.leak ∧ t.keyline = s.keyline ∧ t.params = s.params
    ∧ (∀ n sl, s.player.slot = some n → slotRec s.store n = some sl →
        FenceLifted w.resume.sec (sectionSteps sl.header w.resume.sec).1 t)
    ∧ (QuietAt w.resume s →
        RebasedTo (timePlus now s.params.breath) w.resume s.follow t.follow ∧ t.listen = s.listen
        ∧ (0 < s.params.breath → w.resume.pos = 0 → FirstStepRead w.resume.sec s t))

/-- The fermata's wait `w` of `s` has resumed at `now` by GO or by the max wait, whatever stands ahead; the
part then stands at `t`: the Player as it was but for its breath and its walking, the fence lifted until a
step enters, the Follower rebased, and the step read ahead behind the fermata still ahead, or entered (R83,
R96, R98, R108). -/
def ResumedBehindFermata (now : Time) (w : Wait) (s t : State) : Prop :=
  t.player.state = .FERMATA ∧ t.player.sec = s.player.sec ∧ t.player.slot = s.player.slot
    ∧ t.player.plan = s.player.plan ∧ t.player.registration = s.player.registration
    ∧ t.player.channels = s.player.channels ∧ t.player.fermata = s.player.fermata
    ∧ t.player.goLatch = s.player.goLatch ∧ t.player.reservation = s.player.reservation
    ∧ t.player.lastOutcome = s.player.lastOutcome
    ∧ t.player.wait = some (breathing w now s.params.breath)
    ∧ t.map = s.map ∧ t.leak = s.leak ∧ t.keyline = s.keyline ∧ t.params = s.params
    ∧ (t.player.readAhead = s.player.readAhead → t.player.fence = .NONE)
    ∧ (∀ r, s.player.readAhead = some r → FenceLifted r.sec r.index t)
    ∧ (∀ r', t.player.readAhead = some r' → ∃ r, s.player.readAhead = some r ∧ r'.sec = r.sec
        ∧ r.index ≤ r'.index)
    ∧ (∀ x ∈ t.player.window, (∃ y ∈ s.player.window, stepFields y = stepFields x)
        ∨ ∃ r, s.player.readAhead = some r ∧ x.sec = r.sec ∧ r.index ≤ x.index)
    ∧ (QuietAt w.resume s →
        RebasedTo (timePlus now s.params.breath) w.resume s.follow t.follow ∧ t.listen = s.listen
        ∧ ∀ r, s.player.readAhead = some r → r.sec = w.resume.sec → w.resume.pos ≤ r.pos →
            r.pos ≤ 65535 → s.follow.period ≤ 1500000 → 0 < s.params.breath →
            t.player.readAhead = some r ∨ ∃ x ∈ t.player.window, stepFields x = aheadFields r)

/-- FERMATA_SOUND_TIME of a TIMED fermata (R98, R104, R105, R145). -/
def TimedFermataBegins : Prop :=
  ∀ (dt : Nat) (w : WindowStep) (f : Fermata) (s : State), InService s →
    fermataDue (elapse dt s) = some w → w.fermata = some f → f.kind = .TIMED → s.player.wait = none →
    s.params.fermataCap ≤ 290000 → s.params.breath ≤ 10000 →
    let now := s.now + BitVec.ofNat 32 dt
    let hold := holdAt f.factor w.dur s.follow.period s.params.fermataCap
    let back := timePlus now (hold + s.params.breath)
    let last : HymnPos := ⟨w.sec, endPosition s w.sec⟩
    0 < hold →
    ∃ t, exec (.fermataSoundTime dt) s = .next t ∧ t.player.state = .FERMATA ∧ t.player.sec = s.player.sec
      ∧ t.player.wait = none
      ∧ (∃ r, t.player.fermata = some r ∧ r.step = w ∧ r.kind = .TIMED ∧ r.sound = now ∧ r.hold = hold
          ∧ r.back = back)
      ∧ (∀ d k, (keyEntry t.map d k).holders = (keyEntry s.map d k).holders)
      ∧ (∀ d k, keyDown s.map d k = true →
          (keyEntry t.map d k).deadline = timePlus now s.params.cipherLimit)
      ∧ (∀ r, s.player.readAhead = some r → r.sec = w.sec → FenceLifted w.sec r.index t
          ∧ (t.player.readAhead = some r → t.player.fence = .NONE)
          ∧ (QuietAt ⟨w.sec, r.pos⟩ s → RebasedTo back ⟨w.sec, r.pos⟩ s.follow t.follow
              ∧ t.listen = s.listen))
      ∧ (s.player.readAhead = none → t.player.fence = .NONE
          ∧ (QuietAt last s → RebasedTo back last s.follow t.follow ∧ t.listen = s.listen))
      ∧ (s.player.window = [w] → s.player.readAhead = none → w.planned = true →
          w.pos < endPosition s w.sec →
          (stepKeys s w).length ≤ 256 - s.keys.events.length →
          t.player.window = [] ∧ t.player.fence = .NONE
            ∧ ReleasedAt (timePlus now hold) (stepKeys s w) t.keys
            ∧ t.keys.events.length = s.keys.events.length + (stepKeys s w).length
            ∧ (s.follow.state ≠ .OFF → RebasedTo back last s.follow t.follow))

/-- FERMATA_REBASED_TIME, GAP_END and BREATH_END (R100, R102, R105, R109). -/
def PausesReturn : Prop :=
  ∀ (dt n : Nat) (s : State), InService s →
    let now := elapse dt s
    let back := { now with player := { s.player with state := stateOfSection n, fermata := none } }
    (s.player.sec = some n → fermataBackDue now = true → NothingDue back →
        exec (.fermataRebasedTime dt) s = .next back)
    ∧ (∀ k, gapDue now = some k → NothingDue (sectionEntered k now) →
        exec (.gapEnd dt) s = .next (sectionEntered k now))
    ∧ (∀ w, s.player.wait = some w → w.phase = .BREATH → due now w.breathEnd = true →
        (w.kind = .fermata → s.player.sec = some n → NothingDue (backInSection n now) →
          exec (.breathEnd dt) s = .next (backInSection n now))
        ∧ (w.kind ≠ .fermata → NothingDue (sectionEntered w.resume.sec now) →
          exec (.breathEnd dt) s = .next (sectionEntered w.resume.sec now)))

/-- Section `n` of `s` has ended at `now`, and the gap `g` before section `k` has been entered; the part then
stands at `t`: the OMIT verses between passed over and verse `k` latched, a reservation that names one of them
LOST, and the gap begun, TIMED with its rebase or CUED with its wait (R91, R92, R95, R98, R101, R102,
R107). -/
def InGapBefore (now : Time) (n k : Nat) (pl : Plan) (g : Gap) (s t : State) : Prop :=
  let units := roundDiv (g.length * s.follow.period : Nat) 19200
  let lost : Prop := ∃ e ∈ pl.entries, s.player.reservation = .HELD e.verse ∧ e.latched = false
    ∧ (e.verse = k ∨ (e.verse < k ∧ e.mode = .OMIT))
  t.player.state = .GAP ∧ t.player.sec = some n ∧ t.map = s.map
    ∧ t.player.plan = some { pl with
        entries := pl.entries.map (passedOrLatched k (t.player.registration.map (·.1))) }
    ∧ (∀ e ∈ pl.entries, e.verse = k → e.latched = false → ∀ r, applies s.organ e.registration k = some r →
        t.player.registration = some r ∧ t.player.channels = channelsOf r.2 e.transposition)
    ∧ ((∀ e ∈ pl.entries, e.verse = k → e.latched = true) →
        t.player.registration = s.player.registration ∧ t.player.channels = s.player.channels)
    ∧ (lost → t.player.reservation = .LOST
        ∧ (s.flags.raised.wf none = true → flagUp t.flags .RESERVATION_LOST = true))
    ∧ (¬ lost → t.player.reservation = s.player.reservation)
    ∧ t.player.goLatch = s.player.goLatch
    ∧ (g.cued = true → t.player.gap = some ⟨k, none⟩ ∧ t.player.readAhead = none
        ∧ (∃ w, t.player.wait = some w ∧ w.kind = .gap ∧ w.phase = .MINIMUM ∧ w.resume = ⟨k, 0⟩
            ∧ w.minimumEnd = timePlus now units)
        ∧ t.player.window = s.player.window.filter
            (fun w => !(w.sec == n && (!w.planned || (w.fermata.isSome && !w.released))))
        ∧ t.player.fence = s.player.fence ∧ t.follow = s.follow ∧ t.keys = s.keys)
    ∧ (g.cued = false → t.player.gap = some ⟨k, some (timePlus now units)⟩ ∧ t.player.wait = none
        ∧ (∀ r, t.player.readAhead = some r → r.sec = k)
        ∧ (∀ m sl, s.player.slot = some m → slotRec s.store m = some sl →
            FenceLifted k (sectionSteps sl.header k).1 t)
        ∧ (QuietAt ⟨k, 0⟩ { s with player := { s.player with readAhead := none } } →
            RebasedTo (timePlus now units) ⟨k, 0⟩ s.follow t.follow ∧ t.listen = s.listen
            ∧ (0 < units → FirstStepRead k s t)))

/-- SECTION_END of section `n` with section `k` to follow: the latch and the GAP (R92, R95, R101, R102, R107).
A gap of no length ends in its own event: a TIMED one in the section behind it, where nothing more is due, and
a CUED one in WAITING or, the Go latch being set, void. -/
def SectionEndsInGap : Prop :=
  ∀ (dt n k : Nat) (pl : Plan) (g : Gap) (s : State), InService s → s.player.sec = some n →
    sectionEndDue (elapse dt s) = true → s.player.wait = none → s.player.plan = some pl → PlanNumbered pl →
    SectionAfter s.params.introGap pl n k g → g.length ≤ 1536 → s.follow.period ≤ 1500000 →
    s.params.finishVerse = false →
    let now := s.now + BitVec.ofNat 32 dt
    let units := roundDiv (g.length * s.follow.period : Nat) 19200
    let t := enterGap k g (fixSection k { elapse dt s with player := { s.player with
      readAhead := none,
      window := s.player.window.filter
        (fun w => !(w.sec == n && (!w.planned || (w.fermata.isSome && !w.released)))) } })
    let ends (x : State) : Prop := exec (.sectionEnd dt) s = .next x
    InGapBefore now n k pl g s t
      ∧ (0 < units → ends t)
      ∧ (units = 0 → g.cued = false → NothingDue (sectionEntered k t) → ends (sectionEntered k t))
      ∧ (units = 0 → g.cued = true → ∀ w, t.player.wait = some w →
          (s.player.goLatch = false → ends (nowWaiting w t))
          ∧ (s.player.goLatch = true → s.params.breath ≤ 10000 →
              let r := resumeWait w (timePlus now s.params.breath) false (nowVoid w t)
              ResumedSection now w (nowVoid w t) r ∧ GoesOn s.params.breath w r ends))

/-- MINIMUM_END in a CUED gap (R107, R108). -/
def GapMinimumEnds : Prop :=
  ∀ (dt k : Nat) (w : Wait) (s : State), InService s → s.player.state = .GAP →
    s.player.gap = some ⟨k, none⟩ → s.player.wait = some w → w.kind = .gap → w.phase = .MINIMUM →
    w.minimumEnd = s.now + BitVec.ofNat 32 dt →
    let now := s.now + BitVec.ofNat 32 dt
    let ends (x : State) : Prop := exec (.minimumEnd dt) s = .next x
    (s.player.goLatch = false → ends (nowWaiting w (elapse dt s)))
    ∧ (s.player.goLatch = true → s.params.finishVerse = false → s.params.breath ≤ 10000 →
      let v := nowVoid w (elapse dt s)
      let r := resumeWait w (timePlus now s.params.breath) false v
      ResumedSection now w v r ∧ GoesOn s.params.breath w r ends
      ∧ (s.flags.raised.wf none = true → flagUp r.flags .WAIT = true))

/-- An event in `s` that moves no anchor leaves the Follower alone: a window stands, or no step enters, the
fence holding back the step read ahead, and there is a window already or no step to make one for (R65, R68,
R98). -/
def FollowerRests (s : State) : Prop :=
  WindowStands s.follow
    ∨ ((∀ r, s.player.readAhead = some r → fenceAdmits s.player.fence ⟨r.sec, r.pos⟩ = false)
        ∧ (s.follow.window = none → s.follow.state ≠ .OFF → ∀ x ∈ s.player.window, ¬ MayBeUsed s x))

/-- MINIMUM_END in a CUED fermata: the release, and then as in a gap (R106, R107, R108). -/
def FermataMinimumEnds : Prop :=
  ∀ (dt : Nat) (w : Wait) (f : FermataRecord) (s : State), InService s → s.player.state = .FERMATA →
    s.player.fermata = some f → f.kind = .CUED → s.player.wait = some w → w.kind = .fermata →
    w.phase = .MINIMUM → w.minimumEnd = s.now + BitVec.ofNat 32 dt → s.params.finishVerse = false →
    let now := s.now + BitVec.ofNat 32 dt
    let m := releaseAtMinimum w (elapse dt s)
    let ends (x : State) : Prop := exec (.minimumEnd dt) s = .next x
    let released (t : State) : Prop :=
      s.player.window = [f.step] → s.player.readAhead = none → f.step.planned = true →
        (stepKeys s f.step).length ≤ 256 - s.keys.events.length →
        t.player.window = [] ∧ ReleasedAt now (stepKeys s f.step) t.keys
    m.player.state = .FERMATA ∧ m.player.sec = s.player.sec ∧ m.player.fermata = some f
      ∧ m.player.wait = some w ∧ m.player.goLatch = s.player.goLatch ∧ m.map = s.map ∧ m.params = s.params
      ∧ (FollowerRests s → m.follow = s.follow ∧ m.listen = s.listen ∧ released m)
      ∧ (s.player.goLatch = false → ends (nowWaiting w m))
      ∧ (s.player.goLatch = true → s.params.breath ≤ 10000 →
          let r := resumeWait w (timePlus now s.params.breath) false (nowVoid w m)
          ResumedBehindFermata now w (nowVoid w m) r ∧ GoesOn s.params.breath w r ends
          ∧ (FollowerRests s → released r)
          ∧ (s.flags.raised.wf none = true → flagUp r.flags .WAIT = true))

/-- An accepted SET_PARAM of a parameter whose new value can act at once or whose range stands with another
value, and of the choices (R181, R182, R183): the reply, the value taken, every other parameter as it
was, and what the new value brings about: nothing for the firm lead, the fermata cap and the choices;
Lc and W (R68), T_lost (R80), the max wait (R108) and the critical level (R56) act at once. -/
def ActingParametersAreTaken : Prop :=
  ∀ (dt n lo hi : Nat) (v : Int) (tag : Byte) (s : State), LinkIdle s → actingBounds s n = some (lo, hi) →
    lo ≤ hi → ((n = 9 ∨ n = 26 ∨ n = 27) → 0 ≤ v ∧ v ≤ hi) → (n = 11 → s.player.state = .IDLE) →
    let x := if v < lo then lo else if (hi : Int) < v then hi else v.toNat
    let now := s.now + BitVec.ofNat 32 dt
    ∃ p t, exec (.setParam dt tag n v) s = .next (replied (.setParam n v) tag
        (if (x : Int) = v then .OK else .CLAMPED) (u8 n ++ i32 x) t)
      ∧ paramOf p n = x ∧ (∀ m, m ≠ n → paramOf p m = paramOf s.params m)
      ∧ (let taken := { elapse dt s with params := p }
         ((n = 9 ∨ n = 11 ∨ n = 14 ∨ n = 26 ∨ n = 27) → t = taken)
          ∧ (x = paramOf s.params n → n ≠ 28 → t = taken)
          ∧ (n = 28 → BacklogJudged taken t)
          ∧ ((n = 1 ∨ n = 2) → x ≠ paramOf s.params n →
              ((∀ m, s.follow.window = some m → m.phase ≠ .PENDING) → t = taken)
              ∧ (∀ m m', s.follow.window = some m → m.phase = .PENDING →
                  PlacedAround taken m.prevBefore m.point m.index (some m') → later m'.decides now = true →
                  t = { taken with follow := { s.follow with window := some m' } }))
          ∧ (n = 8 → x ≠ s.params.lostAfter → s.params.finishVerse = false →
              t = if s.follow.state = .COAST ∧ s.follow.lost = false
                      ∧ later (timePlus s.follow.lastMatch x) now = false then
                    raise (.choirLost s.follow.lastMatch s.follow.anchor)
                      { taken with follow := { s.follow with lost := true } }
                  else taken)
          ∧ (n = 13 → x ≠ s.params.maxWait →
              ((∀ w, s.player.wait = some w → w.phase = .WAITING → 0 < x →
                  later (timePlus w.start x) now = true) → t = taken)
              ∧ (∀ w, s.player.state = .FERMATA → s.player.wait = some w → w.kind = .fermata →
                  w.phase = .WAITING → NothingAhead s.player → 0 < s.params.breath →
                  s.params.breath ≤ 10000 → 0 < x → later (timePlus w.start x) now = false →
                  ResumedFermata now w s t ∧ t.params = p)))

/-- R40: a hop completes `dt` units later, its inputs having carried `a` and `b`: the pacing channel has given
its 128 samples, or none paces and 80 units have passed since the hop began. -/
def HopCompletes (dt : Nat) (a b : HopInput) (l : Listen) (now : Time) : Prop :=
  (l.a.present = true ∧ a.periods.length = 128)
    ∨ (l.a.present = false ∧ l.b.present = true ∧ b.periods.length = 128)
    ∨ (l.a.present = false ∧ l.b.present = false ∧ l.hopBegan + 80#32 = now + BitVec.ofNat 32 dt)

/-- The levels that the analysis numbered `n` gives channel `c` for what it carried (R38, R41). -/
def levelsOf (n : Nat) (c : Channel) (i : HopInput) : List Nat := bandLevels n c (i.periods.map sampleOf)

/-- The channel's state after a hop at which it carried `i` (R39, R42). -/
def heardChannel (n : Nat) (c : Channel) (x : ChannelState) (i : HopInput) : ChannelState :=
  if x.present = true ∨ i.clockRan = true then ⟨true, some (levelsOf n c i)⟩ else x

/-- R42: the channel novelty of a channel whose levels are now `now`. -/
def noveltyOf (x : ChannelState) (now : List Nat) : Nat :=
  match x.present, x.levels with
  | true, some before => ((now.zip before).map (fun p => p.1 - p.2)).sum
  | _, _ => 0

/-- R43: the energy of pitch class `k` in a hop, summed over the channels PRESENT in `l`. -/
def classSum (n : Nat) (l : Listen) (a b : HopInput) (k : Nat) : Nat :=
  (if l.a.present = true then Config.classEnergy n 0 (a.periods.map sampleOf) k else 0)
    + (if l.b.present = true then Config.classEnergy n 1 (b.periods.map sampleOf) k else 0)

/-- R43: a profile of twelve levels for the class energies `e`, steps of 3 dB being said of tenth powers. -/
def ProfileOf (e : Nat → Nat) (profile : List Nat) : Prop :=
  ∃ top, (∃ k, k < 12 ∧ e k = top) ∧ (∀ k, k < 12 → e k ≤ top) ∧ profile.length = 12
    ∧ (10 ^ 42 * top ^ 5 ≤ Config.fullScaleEnergy ^ 5 → ∀ k, k < 12 → profile[k]? = some 0)
    ∧ (Config.fullScaleEnergy ^ 5 < 10 ^ 42 * top ^ 5 → ∀ k, k < 12 → ∃ n, profile[k]? = some n ∧ n ≤ 15
        ∧ (n = 0 → 10 ^ 45 * e k ^ 10 ≤ top ^ 10)
        ∧ (0 < n → 10 ^ (3 * (15 - n)) * e k ^ 10 ≤ top ^ 10
            ∧ top ^ 10 < 10 ^ (3 * (16 - n)) * e k ^ 10))

/-- R45, R46: candidate `c` is declared an onset, the hop after it having novelty `next`. -/
def Declared (p : Params) (l : Listen) (c : Hop) (next : Nat) : Prop :=
  l.floor + (if l.backlog = true then 2 * p.margin else p.margin) ≤ c.novelty
    ∧ l.recent.2.1 ≤ c.novelty ∧ next < c.novelty ∧ l.refractory = 0

/-- R42 to R47: `l` is the Listening Unit after a hop that completed at `now` with inputs `a` and `b`. -/
def HopMeasured (now : Time) (a b : HopInput) (s : State) (l : Listen) : Prop :=
  let n := s.listen.analyses
  l.a = heardChannel n .A s.listen.a a ∧ l.b = heardChannel n .B s.listen.b b ∧ l.hopBegan = now
    ∧ l.queue = s.listen.queue ∧ l.backlog = s.listen.backlog ∧ l.analyses = n + 1
    ∧ ∃ h, l.candidate = some h ∧ l.recent = (h.novelty, s.listen.recent.1, s.listen.recent.2.1)
      ∧ h.novelty = noveltyOf s.listen.a (levelsOf n .A a) + noveltyOf s.listen.b (levelsOf n .B b)
      ∧ h.onA = l.a.present ∧ h.onB = l.b.present ∧ ProfileOf (classSum n l a b) h.profile
      ∧ (s.listen.candidate = none → l.floor = s.listen.floor ∧ l.refractory = s.listen.refractory)
      ∧ ∀ c, s.listen.candidate = some c →
        (l.floor : Int) = s.listen.floor + ((c.novelty : Int) - s.listen.floor) / 16
        ∧ (Declared s.params s.listen c h.novelty → l.refractory = s.params.refractory - 1)
        ∧ (¬ Declared s.params s.listen c h.novelty → l.refractory = s.listen.refractory - 1)

/-- R49: a deadline is later than the onset time `t`. -/
def leakReaches (deadline t : Time) : Bool :=
  decide (1 ≤ timeDiff deadline t) && decide (timeDiff deadline t ≤ 70000)

/-- R48 to R51: the record of candidate `c` declared at `now`. -/
def RecordOf (now : Time) (s : State) (c : Hop) (o : Onset) : Prop :=
  let level (k : Nat) : Nat := c.profile.getD k 0
  let masked (k : Nat) : Bool :=
    decide (0 < (leakEntry s.leak k).held) || leakReaches (leakEntry s.leak k).tail o.time
  let fresh := leakReaches (leakEntry s.leak o.dominant).fresh o.time
  let limit := s.params.leakLimit
  o.time = timePlus now (-120) ∧ o.strength = min 255 (c.novelty - s.listen.floor) ∧ o.profile = c.profile
    ∧ o.dominant < 12 ∧ (∀ k, k < 12 → level k ≤ level o.dominant)
    ∧ (∀ k, k < o.dominant → level k < level o.dominant)
    ∧ o.share = 255 * (((List.range 12).filter masked).map level).sum / c.profile.sum
    ∧ (o.cls = .LEAK ↔ fresh = true ∨ limit ≤ o.share)
    ∧ (o.cls = .MIXED ↔ fresh = false ∧ o.share < limit ∧ limit / 2 ≤ o.share)
    ∧ o.onA = c.onA ∧ o.onB = c.onB

/-- R52: listening is open. -/
def Listening (p : Player) : Prop :=
  (p.state = .VERSE ∧ ∃ v e, p.sec = some v ∧ planEntry p v = some e ∧ (e.mode = .PLAY ∨ e.mode = .SILENT))
    ∨ p.state = .AMEN
    ∨ ((p.state = .FERMATA ∨ p.state = .GAP ∨ p.state = .START_WAIT)
        ∧ ∃ w pl, p.wait = some w ∧ (w.phase = .WAITING ∨ w.phase = .BREATH) ∧ p.plan = some pl
            ∧ pl.join = true)

/-- R53: the onset is accepted. -/
def Admitted (s : State) (o : Onset) : Prop :=
  Listening s.player ∧ s.params.smin ≤ o.strength ∧ o.cls ≠ .LEAK
    ∧ (o.cls = .MIXED → s.params.acceptMixed = true) ∧ s.params.rejectSet.getLsbD o.dominant = false

/-- R108, R109: the wait `w` that a CHOIR onset timed `t` ends, by resuming it from WAITING or by pulling a
BREATH earlier, with the moment of its resume as breath end; none where the onset leaves it. -/
def waitEnded (now t resumed : Time) (w : Wait) : Option Wait :=
  match w.phase with
  | .MINIMUM => none
  | .WAITING => some { w with phase := .BREATH, breathEnd := resumed, began := now, byOnset := true }
  | .BREATH =>
    if w.byOnset = false ∧ later w.began t = false ∧ later w.breathEnd resumed = true then
      some { w with breathEnd := resumed }
    else none

/-- A declared onset at HOP_COMPLETE: rejected, only the Listening Unit's own state moves (R53); accepted, it
joins the queue (R55); of class CHOIR in a cued wait with join-on-onset, it ends the wait at its time
less Lc (R108, R109): the Follower is rebased there, the fence is lifted, and where nothing more is due
then the Player is back in its section, or in the next. -/
def DeclaredOnsetsAreHeard : Prop :=
  ∀ (dt : Nat) (a b : HopInput) (c : Hop) (s : State), InService s → HopCompletes dt a b s.listen s.now →
    s.listen.candidate = some c → c.profile.length = 12 →
    let now := s.now + BitVec.ofNat 32 dt
    ∃ l h, HopMeasured now a b s l ∧ l.candidate = some h
      ∧ (¬ Declared s.params s.listen c h.novelty →
          exec (.hopComplete dt a b) s = .next { elapse dt s with listen := l })
      ∧ (Declared s.params s.listen c h.novelty → ∃ o, RecordOf now s c o
        ∧ (¬ Admitted s o → exec (.hopComplete dt a b) s = .next { elapse dt s with listen := l })
        ∧ (Admitted s o →
          let joined := joinOnset o { elapse dt s with listen := l }
          let resumed := timePlus o.time (-(s.params.choirLag : Int))
          ((o.cls ≠ .CHOIR ∨ ∀ w, s.player.wait = some w → joinOn s.player = true →
                waitEnded now o.time resumed w = none) → exec (.hopComplete dt a b) s = .next joined)
          ∧ (∀ w w', o.cls = .CHOIR → joinOn s.player = true → s.player.wait = some w →
              waitEnded now o.time resumed w = some w' →
              let woken := if w.phase = .WAITING then resumeWait w resumed true joined
                           else pullBreath w resumed joined
              exec (.hopComplete dt a b) s = .next (follows woken)
              ∧ (s.params.choirLag ≤ 4000 → s.params.finishVerse = false →
                woken.player.wait = some w' ∧ woken.player.state = s.player.state
                ∧ woken.player.sec = s.player.sec ∧ woken.player.plan = s.player.plan
                ∧ woken.player.registration = s.player.registration ∧ woken.map = s.map
                ∧ (QuietAt w.resume s → woken.listen = joined.listen
                    ∧ RebasedTo resumed w.resume s.follow woken.follow)
                ∧ (w.phase = .WAITING → NothingAhead s.player → w.kind = .fermata →
                    woken.player.fence = .NONE)
                ∧ (w.phase = .WAITING → w.kind = .fermata → ∀ r, s.player.readAhead = some r →
                    FenceLifted r.sec r.index woken)
                ∧ (w.phase = .WAITING → w.kind ≠ .fermata → ∀ n sl, s.player.slot = some n →
                    slotRec s.store n = some sl →
                    FenceLifted w.resume.sec (sectionSteps sl.header w.resume.sec).1 woken)
                ∧ (∀ n, w.kind = .fermata → s.player.sec = some n → NothingDue (backInSection n woken) →
                    exec (.hopComplete dt a b) s = .next (backInSection n woken))
                ∧ (w.kind ≠ .fermata → NothingDue (sectionEntered w.resume.sec woken) →
                    exec (.hopComplete dt a b) s = .next (sectionEntered w.resume.sec woken))))))

/-- What becomes of a due event in a composition (R136, R154). -/
inductive Fate where
  | taken | held | slipped
  deriving DecidableEq, Repr

/-- R136, R154: the due events go through a composition at `f` one after the other, as their fates say.
`s` is the part as the composition began, `limit` the number of change slots (none for no limit) and
`past` the events gone through. The part stands at the first pair, with the key groups that have a
change slot, and when every event has gone through at the second. -/
def GoThrough (f : Time) (s : State) (limit : Option Nat) :
    List (KeyEvent × Fate) → List (KeyEvent × Fate) → State × List (Division × Nat) →
      State × List (Division × Nat) → Prop
  | _, [], a, z => z = a
  | past, (e, x) :: rest, a, z =>
    let down (m : SoundingMap) : Bool := keyDown m e.division e.key
    let earlier (y : Fate) (p : KeyEvent × Fate) : Prop :=
      p.2 = y ∧ p.1.division = e.division ∧ p.1.key = e.key
    let left (y : Fate) : Prop := ∃ p ∈ past, earlier y p
    let wentUp : Prop := down a.1.map = false
      ∧ (down s.map = true ∨ ∃ p ∈ past, earlier .taken p ∧ p.1.kind = .DOWN)
    let after := applyEvent f e a.1
    let change : Prop := down after.map ≠ down a.1.map
    let group := (e.division, e.key / 8)
    let room : Prop := group ∈ a.2 ∨ ∀ n, limit = some n → a.2.length < n
    (left .slipped → x = .slipped)
      ∧ (¬ left .slipped → (left .held ∨ (e.kind = .DOWN ∧ wentUp)) → x = .held)
      ∧ (¬ left .slipped → ¬ left .held → ¬ (e.kind = .DOWN ∧ wentUp) →
          (change ∧ ¬ room → x = .slipped) ∧ (¬ change ∨ room → x = .taken))
      ∧ GoThrough f s limit (past ++ [(e, x)]) rest
          (if x = .taken then
             (after, if down after.map ≠ down a.1.map ∧ group ∉ a.2 then a.2 ++ [group] else a.2)
           else a) z

/-- What a composition rests on: the table of keys in canonical form, every key of the map and of the
schedule one of 64, and one entry at most for each target of the Stop Queue (R133, R155). -/
def CompositionSound (s : State) : Prop :=
  s.map.keys.wf noKey = true ∧ keysInRange s.map = true ∧ (∀ e ∈ s.keys.events, e.key < 64)
    ∧ (s.keyline.stopQueue.map (·.target)).Nodup

/-- R153: the key groups owed a slot: those of the carry list, then those of the keys due for release at
`f`, by division and group. -/
def owedAt (f : Time) (s : State) : List (Division × Nat) :=
  s.keyline.carry ++ (allDivisions.flatMap (fun d => (List.range 8).map (fun g => (d, g)))).filter
    (fun x => !s.keyline.carry.contains x && (List.range 8).any (fun i =>
      keyDown s.map x.1 (8 * x.2 + i) && !later (keyEntry s.map x.1 (8 * x.2 + i)).deadline f))

/-- R126, R154: the events left in the schedule `k` by a composition at `f` whose due events met these
fates: the due ones not taken, and those not due. -/
def LeftBehind (f : Time) (marks : List (KeyEvent × Fate)) (k k' : Schedule) : Prop :=
  marks.map Prod.fst = k.events.filter (fun e => e.firm && !later e.time f)
    ∧ k' = { k with events := k'.events }
    ∧ k'.events.Perm ((marks.filter (fun m => m.2 != .taken)).map Prod.fst
        ++ k.events.filter (fun e => !(e.firm && !later e.time f)))

/-- R156: the first `room` due entries of the Stop Queue. -/
def stopsTaken (f : Time) (room : Nat) (q : List StopEntry) : List StopEntry :=
  (q.filter (fun e => !later e.notBefore f)).take room

/-- R138: what the entries `taken` make of the stop states and expression levels of `m`. -/
def StopsApplied (o : Organ) (taken : List StopEntry) (m m' : SoundingMap) : Prop :=
  ∀ d, let count := (divRec o d).stopCount
    let entry (t : Target) := taken.find? (fun e => e.target == t)
    (∀ n, n < 32 → n < count → (divGet m'.stops d).getLsbD n
        = ((entry (.stopGroup d (n / 8))).map (fun e => e.value.testBit (n % 8))).getD
            ((divGet m.stops d).getLsbD n))
    ∧ ((∃ e ∈ taken, ∃ g, e.target = .stopGroup d g) →
        ∀ n, count ≤ n → (divGet m'.stops d).getLsbD n = false)
    ∧ ((∀ e ∈ taken, ∀ g, e.target ≠ .stopGroup d g) → divGet m'.stops d = divGet m.stops d)
    ∧ divGet m'.expression d
        = ((entry (.expression d)).map (fun e => e.value)).getD (divGet m.expression d)

/-- A slot with a target's state as it stands in part `s`. -/
def slotOf (s : State) (refresh : Bool) (t : Target) : FrameSlot := ⟨t, targetState s.organ s.map t, refresh⟩

/-- R158: the targets of `n` refresh slots, the rotation turned to the cursor. -/
def refreshTargets (n cursor : Nat) (rot : List Target) : List Target :=
  (rot.drop (cursor % rot.length) ++ rot.take (cursor % rot.length)).take n

/-- R158: the cursor behind `n` refresh slots. -/
def cursorAfter (n cursor : Nat) (rot : List Target) : Nat :=
  if rot = [] then cursor else (cursor + n) % rot.length

/-- The composition of a RUNNING frame (R152 to R154, R156, R158). -/
def RunningComposition : Prop :=
  ∀ (f : Time) (s : State), CompositionSound s → s.keyline.state = .RUNNING →
    let owed := owedAt f s
    let r := compose f s
    let rot := rotation s.organ
    ∃ marks u slots, GoThrough f s (some 15) [] marks ((composeReleases f s).state, owed.take 15) (u, slots)
      ∧ LeftBehind f marks s.keys r.1.keys
      ∧ (let slips := min 255 (marks.countP (fun m => m.2 == .slipped))
         let taken := stopsTaken f (15 - slots.length) s.keyline.stopQueue
         r.1 = { u with map := r.1.map, keys := r.1.keys, flags := r.1.flags,
                        keyline := { u.keyline with
                          carry := (owed.drop 15).filter (fun g => !slots.contains g), slips := slips,
                          stopQueue := s.keyline.stopQueue.filter (fun e => !taken.contains e),
                          cursor := cursorAfter 1 s.keyline.cursor rot } }
          ∧ r.1.map.keys = u.map.keys ∧ StopsApplied s.organ taken s.map r.1.map
          ∧ (slips = 0 → r.1.flags = u.flags)
          ∧ (∀ m, marks.find? (fun m => m.2 == .slipped) = some m → r.1.flags
              = raiseFlags s.now (.keylineSlip f slips m.1.division m.1.key m.1.time) u.flags)
          ∧ r.2 = slots.map (fun g => slotOf r.1 false (.keyGroup g.1 g.2))
              ++ taken.map (fun e => slotOf r.1 false e.target)
              ++ (refreshTargets 1 s.keyline.cursor rot).map (slotOf r.1 true))

/-- The composition of a FAULT frame (R159). -/
def FaultComposition : Prop :=
  ∀ (f : Time) (s : State), CompositionSound s → s.keyline.state = .FAULT →
    let r := compose f s
    let rot := rotation s.organ
    let n := min 16 rot.length
    ∃ marks u slots, GoThrough f s none [] marks ((composeReleases f s).state, []) (u, slots)
      ∧ LeftBehind f marks s.keys r.1.keys
      ∧ (let taken := stopsTaken f s.keyline.stopQueue.length s.keyline.stopQueue
         r.1 = { u with map := r.1.map, keys := r.1.keys,
                        keyline := { u.keyline with
                          slips := 0, stopQueue := s.keyline.stopQueue.filter (fun e => !taken.contains e),
                          cursor := cursorAfter n s.keyline.cursor rot } }
          ∧ r.1.map.keys = u.map.keys ∧ StopsApplied s.organ taken s.map r.1.map
          ∧ r.2 = (refreshTargets n s.keyline.cursor rot).map (slotOf r.1 true))

/-- The composition of a SWEEP frame (R160). -/
def SweepComposition : Prop :=
  ∀ (f : Time) (s : State), s.keyline.state = .SWEEP →
    let rot := rotation s.organ
    compose f s = ({ s with keyline := { s.keyline with
          sweep := s.keyline.sweep.drop 15, cursor := cursorAfter 1 s.keyline.cursor rot } },
      (s.keyline.sweep.take 15).map (fun g => ⟨Target.keyGroup g.1 g.2, 0, false⟩)
        ++ (refreshTargets 1 s.keyline.cursor rot).map (slotOf s true))

/-- R157: what a taken event does to the settle watch and to the flags. -/
def WatchJudged : Prop :=
  ∀ (f : Time) (e : KeyEvent) (s : State),
    let t := applyEvent f e s
    (∀ w, s.keyline.watch = some w → e.kind = .DOWN → e.sec = w.sec → t.keyline.watch = none
        ∧ t.flags = if later w.settle e.time = true then
            raiseFlags s.now (.regLate w.sec e.time w.settle) s.flags else s.flags)
    ∧ ((∀ w, s.keyline.watch = some w → e.kind = .DOWN → e.sec ≠ w.sec) →
        t.keyline = s.keyline ∧ t.flags = s.flags)

/-- The section ends of a slot lie within the range of positions (R9, R10). -/
def EndsBounded (sl : Slot) : Prop :=
  ∀ e, sl.ends = some e → e.verse ≤ 131070 ∧ e.amen.getD 0 ≤ 131070 ∧ e.intro.getD 0 ≤ 131070

/-- An accepted START_HYMN of IMMEDIATE start: the slot is PLAYING, the opening verse and the OMIT verses
below it are latched and its registration is in force, the Follower leads from the first anchor, and
the Player is in the opening section's state, its walking begun and VERSE up (R79, R89, R91, R92, R100).
The premises keep the tune's positions and the first anchor in the ranges of R9, R24 and R182. -/
def ImmediateStartEntersTheSection : Prop :=
  ∀ (dt : Nat) (f : StartFields) (tag : Byte) (s : State) (sl : Slot) (es : List PlanEntry)
    (e : PlanEntry) (i : Nat) (r : Registration), LinkIdle s → Startable f s sl es e (i, r) →
    f.startKind = 0 → s.store.slots.wf none = true → s.flags.raised.wf none = true → EndsBounded sl →
    (∀ j q, readStep s.store sl j = some q → q.position ≤ 65535) → sl.header.nominal ≤ 1500000 →
    0 < s.params.firmLead + largestSpeech s.organ →
    s.params.firmLead + largestSpeech s.organ ≤ 10000 → s.params.choirLag ≤ 4000 →
    s.params.halfWidth ≤ 2500 →
    let now := s.now + BitVec.ofNat 32 dt
    let first := timePlus now (s.params.firmLead + largestSpeech s.organ)
    let start := startPosition f e
    ∃ fields t, exec (.startHymn dt tag f) s = .next (replied (.startHymn f) tag .OK fields t)
      ∧ t.player.state = stateOfSection start.sec ∧ t.player.sec = some start.sec
      ∧ t.player.slot = some f.slot ∧ t.player.wait = none ∧ t.player.gap = none
      ∧ t.player.fermata = none ∧ t.player.goLatch = false ∧ t.player.reservation = .NONE
      ∧ t.player.registration = some (i, r) ∧ t.player.channels = channelsOf r e.transposition
      ∧ t.player.plan = some { buildPlan f es with
          entries := (buildPlan f es).entries.map (passedOrLatched e.verse (some i)) }
      ∧ (slotRec t.store f.slot).map (·.state) = some .PLAYING
      ∧ t.follow.state = .LEAD ∧ t.follow.anchorTime = first ∧ t.follow.anchor = start
      ∧ t.follow.period = sl.header.nominal ∧ t.follow.lastMatch = first ∧ t.follow.rebased = false
      ∧ t.follow.matched = 0 ∧ t.follow.missed = 0 ∧ t.follow.lost = false
      ∧ t.follow.lastDecision = none
      ∧ flagUp t.flags .HYMN = true ∧ flagUp t.flags .VERSE = true
      ∧ t.keys.boundary = timePlus now s.params.firmLead
      ∧ t.map = s.map ∧ t.leak = s.leak ∧ t.listen = s.listen ∧ t.organ = s.organ ∧ t.params = s.params
      ∧ t.store.pool = s.store.pool

/-- R112: the Player stands where a verse is to come or sung: before it, in it, in a fermata before the Amen,
or in the gap before a verse. -/
def VerseToCut (p : Player) : Prop :=
  p.state = .START_WAIT ∨ p.state = .INTRO ∨ p.state = .VERSE ∨ (p.state = .FERMATA ∧ p.sec ≠ some 13)
    ∨ (p.state = .GAP ∧ ∃ g, p.gap = some g ∧ g.next ≠ 13)

/-- R112: `v` is the verse in hand of plan `pl`. -/
def VerseInHand (pl : Plan) (v : Nat) : Prop :=
  (∃ e ∈ pl.entries, e.verse = v ∧ e.latched = true ∧ e.mode ≠ .OMIT)
    ∧ ∀ e ∈ pl.entries, e.latched = true → e.mode ≠ .OMIT → e.verse ≤ v

/-- R112: the plan cut to verse `v`, its Amen dropped or kept. -/
def cutTo (v : Nat) (amen : Bool) (pl : Plan) : Plan :=
  { pl with entries := pl.entries.filter (fun e => decide (e.verse ≤ v)), amen := amen }

/-- R112, R131: in the GAP before the Amen `s` has taken a DROP, section `n` having ended and verse `v` of
plan `pl` being in hand; the part then stands at `t`: the plan is cut, the Player is in ENDING without the
Amen's steps and events, every other event stays, and each held pair without a key-up gets one at now, as
far as places are free. With no other event and no key down the Player goes through ENDING to IDLE at
once (R103). -/
def WalkDropped (v n : Nat) (pl : Plan) (s t : State) : Prop :=
  let kept := s.keys.events.filter (fun e => e.sec != 13)
  t.player.plan = some (cutTo v false pl) ∧ t.player.goLatch = false ∧ t.player.reservation = .NONE
    ∧ t.player.wait = none ∧ t.player.gap = none ∧ t.player.readAhead = none ∧ t.map = s.map
    ∧ t.keys.boundary = s.keys.boundary
    ∧ (∀ x ∈ kept, x ∈ t.keys.events)
    ∧ (∀ x ∈ t.keys.events, x ∈ kept ∨ (x.kind = .UP ∧ x.firm = true ∧ x.basis = .fixed ∧ x.time = s.now
        ∧ (x.voice, x.division, x.key) ∈ heldPairs s.map))
    ∧ (kept.length + (heldPairs s.map).length ≤ 256 →
        ∀ p ∈ heldPairs s.map, hasUp t.keys p = true)
    ∧ ((kept ≠ [] ∨ anyDown s.map = true) → t.player.state = .ENDING ∧ t.player.sec = some n
        ∧ t.player.slot = s.player.slot ∧ t.player.fence = s.player.fence
        ∧ t.player.window = s.player.window.filter (fun w => w.sec != 13)
        ∧ t.follow = s.follow ∧ t.listen = s.listen ∧ t.store = s.store ∧ t.flags = s.flags)
    ∧ (kept = [] → anyDown s.map = false → t.player.state = .IDLE ∧ t.player.slot = none
        ∧ t.keys.events = [] ∧ t.follow.state = .OFF ∧ t.listen.queue = [])

/-- The GAP before the Amen, section `n` having ended, with nothing that waits for places (R112, R117). -/
def GapBeforeAmen (n : Nat) (p : Player) : Prop :=
  p.state = .GAP ∧ (∃ g, p.gap = some g ∧ g.next = 13) ∧ p.sec = some n ∧ p.releases = []
    ∧ ∀ w ∈ p.window, w.sec ≠ 13 → w.planned = true

/-- STOP_HYMN of END_OF_VERSE with DROP in the GAP before the Amen (R103, R112, R131). -/
def DropBeforeTheAmenEndsTheWalk : Prop :=
  ∀ (dt v n : Nat) (tag : Byte) (pl : Plan) (s : State), LinkIdle s → GapBeforeAmen n s.player →
    s.player.plan = some pl → VerseInHand pl v →
    ∃ t, exec (.stopHymnEndOfVerse dt tag 1) s = .next (replied (.stopHymn 0 1) tag .OK
        (u8 (cutTo v false pl).entries.length ++ u8 0) t)
      ∧ WalkDropped v n pl (elapse dt s) t

/-- R81, R112: the lost indication has gone on under FINISH_VERSE in `lost`; the part then stands at `t`. It
acts as an END_OF_VERSE with DROP, without a reply; in the Amen and in the states in which no verse is left it
has no effect. -/
def VerseFinished (lost t : State) : Prop :=
  let p := lost.player
  ((p.state = .IDLE ∨ p.state = .STOPPING ∨ p.state = .ENDING ∨ p.state = .AMEN
      ∨ (p.state = .FERMATA ∧ p.sec = some 13)) → t = lost)
    ∧ ∀ pl v, p.plan = some pl → VerseInHand pl v →
      (VerseToCut p → t = { lost with player :=
          { p with plan := some (cutTo v false pl), goLatch := false, reservation := .NONE } })
      ∧ ∀ n, GapBeforeAmen n p → WalkDropped v n pl lost t

/-- LOST_TIME under the FINISH_VERSE policy (R80, R81). -/
def LostTimeFinishesTheVerse : Prop :=
  ∀ (dt : Nat) (s : State), InService s → s.follow.state = .COAST → s.follow.lost = false →
    s.params.finishVerse = true →
    timePlus s.follow.lastMatch s.params.lostAfter = s.now + BitVec.ofNat 32 dt →
    ∃ t, exec (.lostTime dt) s = .next t
      ∧ VerseFinished (raise (.choirLost s.follow.lastMatch s.follow.anchor)
          { elapse dt s with follow := { s.follow with lost := true } }) t

/-- The three bytes of a slot (R163). -/
def slotLayout (x : FrameSlot) : List Byte :=
  let head (kind : BitVec 2) (d : Division) : Byte :=
    kind ++ BitVec.ofBool x.refresh ++ BitVec.ofNat 3 (divisionNumber d) ++ 0#2
  match x.target with
  | .keyGroup d g => [head 0#2 d, BitVec.ofNat 8 g, BitVec.ofNat 8 x.value]
  | .stopGroup d g => [head 1#2 d, BitVec.ofNat 8 g, BitVec.ofNat 8 x.value]
  | .expression d => [head 2#2 d, 0#8, BitVec.ofNat 8 x.value]

/-- The frame numbered `n` with these slots (R163). -/
def frameLayout (n : Nat) (slots : List FrameSlot) : List Byte :=
  let body := u8 n ++ u8 slots.length ++ slots.flatMap slotLayout
  0xA6#8 :: body ++ checkBytes body

/-- R163: the states that slots carry, keys beyond the key count and stops beyond the stop count off. -/
def SlotStatesOfTheMap : Prop :=
  ∀ (o : Organ) (m : SoundingMap) (d : Division) (g i : Nat), i < 8 →
    (targetState o m (.keyGroup d g)).testBit i
        = (decide (8 * g + i < (divRec o d).keyCount) && keyDown m d (8 * g + i))
      ∧ (targetState o m (.stopGroup d g)).testBit i
        = (decide (8 * g + i < (divRec o d).stopCount) && (divGet m.stops d).getLsbD (8 * g + i))
      ∧ targetState o m (.expression d) = divGet m.expression d

/-- The part that a composition is made in at a FRAME_START `dt` units later: the interval in force, the
echo judged and the firming pass made (R149, R126). -/
def readyToCompose (dt : Nat) (s : State) : State :=
  let now := s.now + BitVec.ofNat 32 dt
  let interval := s.keyline.pendingInterval.getD s.keyline.interval
  let judged := judgeEcho { elapse dt s with keyline := { s.keyline with
    interval := interval, pendingInterval := none, nextStart := some (timePlus now interval) } }
  { judged with keys := firmPass now s.params.firmLead s.keys }

/-- The part once the composed frame is sent (R149). -/
def frameSent (number : Nat) (c : Composed) : State :=
  { c.1 with keyline := { c.1.keyline with
      lastFrame := frameLayout number c.2, awaited := some number, heldEcho := none,
      frameNumber := (number + 1) % 256 } }

/-- FRAME_START sends what the composition gives (R149, R163): the Sounding Map, the Leak Mask and the
Keyline are those of the composition, and so is all else where no place freed is waited for. -/
def FrameStartSendsTheComposition : Prop :=
  ∀ (dt : Nat) (s : State), InService s → frameDue (elapse dt s) = true →
    let r := compose (s.now + BitVec.ofNat 32 dt) (readyToCompose dt s)
    let sent := frameSent s.keyline.frameNumber r
    ∃ t, exec (.frameStart dt) s = .next t
      ∧ r.2.length ≤ 16 ∧ t.keyline.lastFrame = frameLayout s.keyline.frameNumber r.2
      ∧ t.map = r.1.map ∧ t.leak = r.1.leak
      ∧ (t.keyline = sent.keyline ∨ t.keyline = { sent.keyline with watch := none })
      ∧ ((r.1.keys.events.length = s.keys.events.length
            ∨ (NothingAhead s.player ∧ s.player.releases = [] ∧ s.player.heldRelease = none)) →
          ((s.player.state ≠ .ENDING ∧ s.player.state ≠ .STOPPING) ∨ r.1.keys.events ≠ []
            ∨ anyDown r.1.map = true) → t = sent)

/-- The frame that sends the last key-up of a hymn in ENDING or STOPPING: the Player is IDLE with plan and
last wait outcome kept, the slot READY, HYMN raised, the Follower OFF with its anchor and period kept,
the Onset Queue empty and the settle watch none (R57, R82, R103, R157). -/
def LastFrameEndsTheHymn : Prop :=
  ∀ (dt n : Nat) (sl : Slot) (s : State), InService s → frameDue (elapse dt s) = true →
    (s.player.state = .ENDING ∨ s.player.state = .STOPPING) → NothingAhead s.player →
    s.player.releases = [] → s.player.slot = some n → slotRec s.store n = some sl →
    s.store.slots.wf none = true → 2 ≤ s.params.critical →
    let now := s.now + BitVec.ofNat 32 dt
    let r := compose now (readyToCompose dt s)
    r.1.keys.events = [] → anyDown r.1.map = false →
    ∃ t, exec (.frameStart dt) s = .next t
      ∧ t.player = { playerAfterReset with plan := s.player.plan, lastOutcome := s.player.lastOutcome }
      ∧ t.follow = { s.follow with state := .OFF, window := none, lost := false, matched := 0,
                                   missed := 0, rebased := false }
      ∧ slotRec t.store n = some { sl with state := .READY }
      ∧ (∀ m, m ≠ n → slotRec t.store m = slotRec s.store m) ∧ t.store.pool = s.store.pool
      ∧ t.flags = raiseFlags now
          (.hymn (if s.player.state = .STOPPING then .stopped else .ended) n sl.header.number) r.1.flags
      ∧ t.listen = { s.listen with queue := [], backlog := false } ∧ t.keys = r.1.keys
      ∧ t.map = r.1.map ∧ t.leak = r.1.leak
      ∧ t.keyline = { (frameSent s.keyline.frameNumber r).keyline with watch := none }

/-- Pool entry `e` is in a free run. -/
def FreeEntry (st : Store) (e : Nat) : Prop := ∃ run ∈ st.freeRuns, run.1 ≤ e ∧ e < run.1 + run.2

/-- R28: the registration record `r` brought into agreement with the record `new` of division `d`, which was
`old`, as `r'`. -/
def Agreed (d : Division) (old new : DivisionRec) (r r' : Registration) : Prop :=
  r' = { r with routing := r'.routing, stops := r'.stops, expression := r'.expression }
    ∧ (∀ e, e ≠ d → divGet r'.stops e = divGet r.stops e ∧ divGet r'.expression e = divGet r.expression e)
    ∧ (new.present = false → r'.routing = voiceMap (fun x => if x = some d then none else x) r.routing
        ∧ divGet r'.stops d = none ∧ divGet r'.expression d = none)
    ∧ (new.present = true → r'.routing = r.routing)
    ∧ (new.present = true → old.present = false → divGet r'.stops d = some 0#32
        ∧ divGet r'.expression d = if new.enclosed = true then some .UNCHANGED else none)
    ∧ (new.present = true → old.present = true →
        (divGet r'.stops d).isSome = (divGet r.stops d).isSome
        ∧ (∀ b b', divGet r.stops d = some b → divGet r'.stops d = some b' → ∀ k, k < 32 →
            b'.getLsbD k = (decide (k < new.stopCount) && b.getLsbD k))
        ∧ divGet r'.expression d
            = if new.enclosed = false then none
              else if old.enclosed = false then some .UNCHANGED else divGet r.expression d)

/-- R6: the pool is divided among the free runs and the slots, and every table is canonical. -/
def StoreSound (s : State) : Prop := tablesCanonical s = true ∧ PoolDivided s.store

/-- R118, R119: the division and the key that a note plays, none when its voice is SILENT or the note is
dropped for its pitch. -/
def playedKey (o : Organ) (channels : PerVoice VoiceChannel) (n : Note) : Option (Division × Nat) :=
  let c := voiceGet channels n.voice
  c.division.bind (fun d => (foldPitch (divRec o d).lowest (divRec o d).keyCount
    (n.pitch + c.transposition)).map (fun k => (d, k)))

/-- R118, R119: the notes of a step that make events, in written order, each with its division and key: not
those whose voice and key are an earlier note's. -/
def soundingNotes (o : Organ) (channels : PerVoice VoiceChannel) (notes : List Note) :
    List (Note × Division × Nat) :=
  (List.range notes.length).filterMap (fun i => notes[i]?.bind (fun n =>
    (playedKey o channels n).bind (fun x =>
      if (notes.take i).any (fun m => m.voice == n.voice && playedKey o channels m == some x) then none
      else some (n, x.1, x.2))))

/-- R121: the tie of note `n` continues into the step behind `w`. -/
def TieContinues (w : WindowStep) (n : Note) : Prop :=
  n.tieOn = true ∧ ∃ x ∈ w.next.toList, ∃ m ∈ x.notes, m.voice = n.voice ∧ m.pitch = n.pitch

/-- The events that one sounding note of step `w` asks for: at its start a RENEW when it continues a tie from
the step planned before, else a DOWN (R120); at its end an UP at the release position (R121), over a
faulty run an UP at the next good step and a RENEW at the substitute position (R124), nothing where its
tie continues, and in a fermata step the UP at its release once that is decided (R123). That the UP of an
extension comes before its RENEW is the model's choice (log 53), and that the UP of a decided release comes right
behind its own note's start its reading (log 55). -/
def AskedFor (tied : List (Voice × Nat)) (lift sectionEnd : Nat) (w : WindowStep) (x : Note × Division × Nat)
    (asked : List Draft) : Prop :=
  let n := x.1
  let event (kind : KeyKind) (basis : Basis) (t : Time) : Draft := ⟨kind, n.voice, x.2.1, x.2.2, basis, t⟩
  let timed (kind : KeyKind) (pos : Nat) : Draft := event kind (.position pos none) 0#32
  let goodEnd := (w.next.map (·.pos)).getD sectionEnd
  ∃ start stop, asked = start :: stop
    ∧ ((n.voice, n.pitch) ∈ tied → start = timed .RENEW w.pos)
    ∧ ((n.voice, n.pitch) ∉ tied → start = timed .DOWN w.pos)
    ∧ (∀ f, w.fermata = some f → w.release = none → stop = [])
    ∧ (∀ f t, w.fermata = some f → w.release = some t → stop = [event .UP .fixed t])
    ∧ (w.fermata = none → TieContinues w n → stop = [])
    ∧ (w.fermata = none → ¬ TieContinues w n → w.run = true →
        stop = [timed .UP goodEnd, timed .RENEW (min (w.pos + w.dur) goodEnd)])
    ∧ (w.fermata = none → ¬ TieContinues w n → w.run = false →
        stop = [timed .UP (w.pos + w.dur - min lift (w.dur / 4))])

/-- R117 to R124: the events that step `w` asks for in part `s`. -/
def StepAsks (s : State) (w : WindowStep) (asked : List Draft) : Prop :=
  let lift := (s.player.registration.map (fun r => r.2.lift)).getD 0
  let tied := (s.player.tied.filter (fun t => t.sec == w.sec)).elim [] (·.ties)
  (sectionMode s.player w.sec ≠ .PLAY → asked = [])
    ∧ (sectionMode s.player w.sec = .PLAY → ∃ each : List (List Draft), asked = each.flatten
        ∧ List.Forall₂ (AskedFor tied lift (endPosition s w.sec) w)
            (soundingNotes s.organ s.player.channels w.notes) each)

/-- R122: DOWN `d` is a later strike of the key that the UP `u`, of basis POSITION, releases. -/
def StrikesAgain (u d : KeyEvent) : Prop :=
  u.kind = .UP ∧ d.kind = .DOWN ∧ u.voice = d.voice ∧ u.division = d.division ∧ u.key = d.key
    ∧ u.basis ≠ .fixed
    ∧ ∃ i j, u.step = some i ∧ d.step = some j ∧ (u.sec < d.sec ∨ (u.sec = d.sec ∧ i < j))

/-- R120 to R122, R127: the key time of an event of division `r` by position `p`, before R122. -/
def timeAt (f : Follow) (r : DivisionRec) (kind : KeyKind) (p : Nat) : Time :=
  match kind with
  | .DOWN => timePlus (predict f p) (-(r.speech : Int))
  | .RENEW => predict f p
  | .UP => timePlus (predict f p) (-(r.release : Int))

/-- R122: the UP `u` with the strike of a DOWN at position `q`, placed at `strike`, taken where that is
earlier; any other event as it is. -/
def TakesStrike (f : Follow) (o : Organ) (d u v : KeyEvent) : Prop :=
  let r := divRec o u.division
  (∀ p q x, StrikesAgain u d → u.firm = false → u.basis = .position p none → d.basis = .position q x →
      later u.time d.time = true →
      v = { u with basis := .position p (some q), time := timeMin (timeAt f r .UP p) (timeAt f r .DOWN q) })
    ∧ ((¬ StrikesAgain u d ∨ u.firm = true ∨ (∀ p, u.basis ≠ .position p none)
          ∨ (∀ q x, d.basis ≠ .position q x) ∨ later u.time d.time = false) → v = u)

/-- R115, R120 to R123: one asked event placed into schedule `k` for a step, which is `k'` then. The event
has the next insertion number and its time by its basis. A DOWN is put off to the last FIRM UP that it
strikes, and is taken as strike by the PROVISIONAL ones that would come later; an UP takes the first
DOWN of the schedule that comes before it as its strike. -/
def Placed (f : Follow) (o : Organ) (sec step : Nat) (k : Schedule) (d : Draft) (k' : Schedule) : Prop :=
  let r := divRec o d.division
  ∃ (e : KeyEvent) (before after others : List KeyEvent), k'.events = before ++ e :: after ∧ others = before ++ after
    ∧ k'.counter = k.counter + 1 ∧ k'.boundary = k.boundary
    ∧ e.kind = d.kind ∧ e.voice = d.voice ∧ e.division = d.division ∧ e.key = d.key
    ∧ e.sec = sec ∧ e.step = some step ∧ e.firm = false ∧ e.number = k.counter
    ∧ (d.basis = .fixed → d.kind = .UP → e.basis = .fixed ∧ e.time = d.fixedTime ∧ others = k.events)
    ∧ ∀ p, d.basis = .position p none →
      (d.kind = .RENEW → e.basis = d.basis ∧ e.time = timeAt f r .RENEW p ∧ others = k.events)
      ∧ (d.kind = .DOWN → e.basis = d.basis ∧ List.Forall₂ (TakesStrike f o e) k.events others
          ∧ ∃ struck : List KeyEvent, struck.Sublist k.events
              ∧ (∀ u ∈ k.events, u ∈ struck ↔ StrikesAgain u e ∧ u.firm = true)
              ∧ e.time = struck.foldl (fun t u => if later u.time t = true then u.time else t)
                  (timeAt f r .DOWN p))
      ∧ (d.kind = .UP → others = k.events
          ∧ (let own := timeAt f r .UP p
             let comesFirst (x : KeyEvent) : Prop :=
               StrikesAgain e x ∧ later own x.time = true ∧ ∃ q y, x.basis = .position q y
             ((∀ x ∈ k.events, ¬ comesFirst x) → e.basis = d.basis ∧ e.time = own)
             ∧ (∀ pre x post q y, k.events = pre ++ x :: post → (∀ z ∈ pre, ¬ comesFirst z) →
                 comesFirst x → x.basis = .position q y →
                 e.basis = .position p (some q) ∧ e.time = timeMin own (timeAt f r .DOWN q))))

/-- Asked events placed one after the other. -/
def PlacedAll (f : Follow) (o : Organ) (sec step : Nat) : Schedule → List Draft → Schedule → Prop
  | k, [], z => z = k
  | k, d :: rest, z => ∃ k', Placed f o sec step k d k' ∧ PlacedAll f o sec step k' rest z

/-- R117, R125: the asked events placed into schedule `k`, and the firming pass behind; schedule `z` then. -/
def PlannedInto (s : State) (sec step : Nat) (k : Schedule) (asked : List Draft) (z : Schedule) : Prop :=
  let boundary := timePlus s.now s.params.firmLead
  ∃ placed, PlacedAll s.follow s.organ sec step k asked placed
    ∧ z.boundary = boundary ∧ z.counter = placed.counter
    ∧ z.events.Perm (placed.events.map (firmed s.now boundary))

/-- The planning of a step handed to the Key Scheduler: all the events it asks for, or none with
SCHEDULE_FULL; a planned step is marked, and its ties are held for the step planned behind it (R117 to
R124). -/
def PlanningMakesTheStepsEvents : Prop :=
  ∀ (w : WindowStep) (s : State), ∃ asked, StepAsks s w asked
    ∧ (let free := 256 - s.keys.events.length
       let r := handStep w s
       (free < asked.length → r = (raise (.scheduleFull w.sec w.index asked.length free) s, false))
       ∧ (asked.length ≤ free → r.2 = true ∧ PlannedInto s w.sec w.index s.keys asked r.1.keys
          ∧ r.1 = { s with keys := r.1.keys, player := { s.player with
              window := s.player.window.map (fun x =>
                if x.sec = w.sec ∧ x.index = w.index then
                  { x with planned := true, released := x.fermata.isSome && x.release.isSome }
                else x),
              tied := some ⟨w.sec,
                if w.fermata.isSome = true ∨ sectionMode s.player w.sec ≠ .PLAY then []
                else ((soundingNotes s.organ s.player.channels w.notes).filter (fun x => x.1.tieOn)).map
                  (fun x => (x.1.voice, x.1.pitch))⟩ } }))

/-- R124, second way: a planned step extended over a faulty run found later, all or none: each of its UPs
that is still PROVISIONAL gives way to an UP at the next good step and a RENEW at the substitute
position, in the schedule's order of the cancelled UPs (the model's choice, log 53). -/
def ExtensionReplacesTheUps : Prop :=
  ∀ (w : WindowStep) (sectionEnd : Nat) (s : State),
    let ofStep (e : KeyEvent) : Bool :=
      e.kind == .UP && !e.firm && e.sec == w.sec && e.step == some w.index
    let ups := s.keys.events.filter ofStep
    let free := 256 - s.keys.events.length
    let goodEnd := (w.next.map (·.pos)).getD sectionEnd
    let t := extendStep w sectionEnd s
    (free < ups.length → t = raise (.scheduleFull w.sec w.index ups.length free) s)
    ∧ (ups = [] → t = s)
    ∧ (ups ≠ [] → ups.length ≤ free → t = { s with keys := t.keys }
      ∧ PlannedInto s w.sec w.index
          { s.keys with events := s.keys.events.filter (fun e => !ofStep e) }
          (ups.flatMap (fun e =>
            [⟨.UP, e.voice, e.division, e.key, .position goodEnd none, 0#32⟩,
             ⟨.RENEW, e.voice, e.division, e.key, .position (min (w.pos + w.dur) goodEnd) none, 0#32⟩]))
          t.keys)

/-- R71: the gains of a match, phase and period, by the class of its onset. -/
def gainsOf (p : Params) (o : Onset) : Nat × Nat :=
  if o.cls = .MIXED then (p.phaseGain / 2, p.periodGain / 2) else (p.phaseGain, p.periodGain)

/-- R71: the error of a match. -/
def errorOf (m : MatchWindow) (o : Onset) : Int := timeDiff o.time m.expected

/-- R72: the phase shift of a match in TRACK. -/
def shiftOf (p : Params) (m : MatchWindow) (o : Onset) : Int :=
  roundDiv ((gainsOf p o).1 * errorOf m o) 256

/-- R73: the period step of a match in TRACK, limited. -/
def stepOf (s : State) (m : MatchWindow) (o : Onset) : Int :=
  let ds := max ((m.point.pos : Int) - s.follow.anchor.pos) 96
  let raw := roundDiv ((gainsOf s.params o).2 * errorOf m o * 100 * 192) (1024 * ds).toNat
  let limit : Int := (s.follow.period * s.params.matchLimit / 1000 : Nat)
  max (-limit) (min limit raw)

/-- R70 to R73: the decision of `m` in `s` takes a period step, its matched onset being `o`: an on-time match
in TRACK with the rebased indication off. -/
def TakesStep (s : State) (m : MatchWindow) (o : Onset) : Prop :=
  s.follow.state = .TRACK ∧ s.follow.rebased = false
    ∧ strongest (candidates m s.listen.queue) = some o ∧ posBefore m.point s.follow.anchor = false

/-- R74: the decision of `m` in `s` would take the period past a bound of the tune: the UPPER or the LOWER. -/
def ClampedAt (s : State) (m : MatchWindow) (upper : Bool) : Prop :=
  ∃ o h, TakesStep s m o ∧ playingHeader s = some h
    ∧ (if upper = true then (h.pmax : Int) < s.follow.period + stepOf s m o
       else (s.follow.period : Int) + stepOf s m o < h.pmin)

/-- R86: the record of the decision of `m` in `s`. That the period step of a miss and of a late match is 0 in
TRACK too is the model's reading (log 52). -/
def DecisionRecorded (s : State) (m : MatchWindow) (d : Decision) : Prop :=
  let hit := strongest (candidates m s.listen.queue)
  d.point = m.point ∧ d.index = m.index ∧ d.time = m.decides ∧ d.onset = hit
    ∧ d.late = posBefore m.point s.follow.anchor
    ∧ d.surplus = s.listen.queue.countP (inWindow m) - 1
    ∧ d.stale = s.listen.queue.countP (fun o => later m.opens o.time)
    ∧ d.after = (followAfterDecision s m).1.state
    ∧ ((hit = none ∨ d.late = true) →
        d.error = none ∧ d.phase = 0 ∧ d.step = .applied 0 ∧ d.clamped = false)
    ∧ ∀ o, hit = some o → d.late = false → d.error = some (errorOf m o)
      ∧ (s.follow.state ≠ .TRACK → d.phase = 0 ∧ d.step = .applied 0 ∧ d.clamped = false)
      ∧ (s.follow.state = .TRACK → d.phase = shiftOf s.params m o
        ∧ (s.follow.rebased = true → d.step = .SKIPPED ∧ d.clamped = false)
        ∧ (s.follow.rebased = false → d.step = .applied (stepOf s m o)
          ∧ ∀ h, playingHeader s = some h → h.pmin ≤ h.pmax →
              (d.clamped = true ↔ ∃ upper, ClampedAt s m upper)))

/-- The Onset Queue with these records. -/
def holding (q : List Onset) (s : State) : State := { s with listen := { s.listen with queue := q } }

/-- R56, R69, R74, R78, R80, R81: the part `t` once window `m` of `s` is decided: the onsets up to its close
are gone and backlog is judged; a clamped period raises TEMPO_LIMIT with its bound, the period taken and the
follow point; a return from COAST with the lost indication on raises CHOIR_FOUND with the follow point and
the onset time; a decision that leaves the Follower in COAST at or after the lost time turns the lost
indication on and raises CHOIR_LOST, and the lost policy is read. -/
def DecisionTold (s : State) (m : MatchWindow) (t : State) : Prop :=
  let g := (followAfterDecision s m).1
  let found : Prop := s.follow.state = .COAST ∧ s.follow.lost = true ∧ g.state = .TRACK
  let lostNow : Prop := g.state = .COAST ∧ g.lost = false
    ∧ later (timePlus g.lastMatch s.params.lostAfter) s.now = false
  ∃ judged limited back,
    BacklogJudged (holding (s.listen.queue.filter (fun o => later o.time m.closes)) { s with follow := g })
      judged
    ∧ (∀ upper, ClampedAt s m upper → limited = raise (.tempoLimit upper g.period m.point) judged)
    ∧ ((∀ upper, ¬ ClampedAt s m upper) → limited = judged)
    ∧ (∀ o, strongest (candidates m s.listen.queue) = some o → found →
        back = raise (.choirFound m.point o.time) limited)
    ∧ (¬ found → back = limited)
    ∧ (¬ lostNow → t = back)
    ∧ (lostNow →
        let lost := raise (.choirLost g.lastMatch g.anchor) { back with follow := { g with lost := true } }
        (s.params.finishVerse = false → t = lost) ∧ (s.params.finishVerse = true → VerseFinished lost t))

/-- WINDOW_DECISION with the flags and the lost time (R63, R69, R70, R74, R78, R80): the decision as told, made
known where it changes the anchor or the period, and then what an event brings with it; with nothing ahead
that is nothing. -/
def DecisionsAreTold : Prop :=
  ∀ (dt : Nat) (m : MatchWindow) (h : Header) (s : State), InService s → s.follow.window = some m →
    m.decides = s.now + BitVec.ofNat 32 dt → playingHeader s = some h → h.pmin ≤ h.pmax →
    let now := elapse dt s
    let g := (followAfterDecision now m).1
    let f := s.follow
    ∃ told known, DecisionTold now m told
      ∧ (g.anchorTime = f.anchorTime ∧ g.anchor = f.anchor ∧ g.period = f.period → known = told)
      ∧ (¬ (g.anchorTime = f.anchorTime ∧ g.anchor = f.anchor ∧ g.period = f.period) → known = retime told)
      ∧ exec (.windowDecision dt) s = .next (settle known)
      ∧ (NothingAhead s.player → settle known = known)

/-- R55, R56: an accepted onset joins the queue, the oldest record of a full one going first with
ONSET_OVERRUN, and backlog is judged. -/
def OnsetsJoin : Prop :=
  ∀ (o : Onset) (s : State),
    (s.listen.queue.length < 32 → BacklogJudged (holding (s.listen.queue ++ [o]) s) (joinOnset o s))
    ∧ (∀ old rest, s.listen.queue = old :: rest → 32 ≤ s.listen.queue.length →
        BacklogJudged (holding (rest ++ [o]) (raise (.onsetOverrun old.time) s)) (joinOnset o s))

/-- R155: the targets that registration `r` presents, each with the state asked for: a stop group of a present
division with the registration's stops, those at or above the stop count off, and the expression target of a
present and enclosed division with the level given; UNCHANGED asks for none. -/
def Presents (o : Organ) (r : Registration) (t : Target) (v : Nat) : Prop :=
  match t with
  | .keyGroup _ _ => False
  | .stopGroup d g => (divRec o d).present = true ∧ 8 * g < (divRec o d).stopCount ∧ v < 256
      ∧ ∀ i, i < 8 → (v.testBit i = true ↔ 8 * g + i < (divRec o d).stopCount
          ∧ ∃ b, divGet r.stops d = some b ∧ b.getLsbD (8 * g + i) = true)
  | .expression d => (divRec o d).present = true ∧ (divRec o d).enclosed = true
      ∧ divGet r.expression d = some (.level v)

end Sys2Proof.Claims

open Sys2Proof Sys2Proof.Machine Sys2Proof.Claims

/-! ### The queue of commands and the resets -/

/-- The command at the front of the queue is taken with the queue's rest behind it. With no command
waiting, nothing happens while the part is held in reset; otherwise the first timed event that is due
happens, or one unit of service time passes (the model's choices, log 1 and log 2). -/
def Obligations.StepTakesTheNextCommand : Prop :=
  (∀ (c : Instr) (rest : List Instr) (s : State),
      step { s with pending := c :: rest } = exec c { s with pending := rest })
  ∧ (∀ s : State, s.pending = [] →
      (s.heldInReset = true → step s = .next s)
      ∧ (s.heldInReset = false → dueNow s = [] → step s = .next { s with now := s.now + 1#32 })
      ∧ (∀ c rest, s.heldInReset = false → dueNow s = c :: rest → step s = exec c s))

/-- Whatever the state, every command answers a next state with the queue of waiting commands as it was:
that no command stops the part is the model's reading (log 35). The events of the part's own blocks leave
the Console Link, the parameters, the divisions and registrations, the reset line, the step pool and the
free runs, which no other block owns (00_scope.md, Block overview). -/
def Obligations.CommandsAnswerNextWithinTheirBlocks : Prop :=
  ∀ (c : Instr) (s : State), ∃ t, exec c s = .next t ∧ t.pending = s.pending
    ∧ (blockEvent c = true → t.link = s.link ∧ t.params = s.params ∧ t.organ = s.organ
        ∧ t.heldInReset = s.heldInReset ∧ t.store.pool = s.store.pool
        ∧ t.store.freeRuns = s.store.freeRuns)

/-- FULL_RESET from any state: service time 0, the rate read from the straps, and every store of the part
at its full-reset value: the link, the Tune Store with a clearing that ends at 250, the divisions and
registrations, the parameters, the Listening Unit, the Player, the Key Schedule, the Sounding Map, the
Leak Mask, the Keyline and the flags (R22, R24, R31, R58, R87, R115, R133, R139, R148, R168, R172, R174 to
R176, R180, R185); the Follower's values are those of the next statement. That the pool is blank at once is the
model's choice (log 45), and the Player's gap record, none here, is the model's own (log 24). -/
def Obligations.FullResetGivesResetValues : Prop :=
  ∀ (straps : BitVec 2) (s : State), ∃ t, exec (.fullReset straps) s = .next t ∧ t.now = 0#32
    ∧ t.heldInReset = false ∧ t.link.rate = straps ∧ t.link.assembly = .HUNTING ∧ t.link.queue = []
    ∧ t.link.sending = none ∧ t.link.busy = [] ∧ t.link.errors = 0 ∧ t.link.lastDiscard = .none
    ∧ t.link.lastReset = .FULL ∧ t.store.clearEnd = some 250#32
    ∧ (∀ n, slotRec t.store n = none) ∧ t.store.freeRuns = [(0, 12288)] ∧ t.store.faultHeld = none
    ∧ (∀ e, t.store.pool.get .blank e = .blank) ∧ (∀ i, registrationAt t.organ i = none)
    ∧ (∀ d, divRec t.organ d = ⟨false, 36, 61, 0, 0, 0, false, 0, 0, false⟩)
    ∧ t.store.faultMultiple = false ∧ t.link.inHand = false
    ∧ (List.range 28).map (fun n => paramValue t (n + 1))
        = [800, 1500, 96, 64, 40, 2, 3, 80000, 0, 384, 300, 2500, 200000, 80000, 192, 20, 3, 2, 120000,
           1500, 0, 24, 8, 16, 160, 1, 0, 24]
    ∧ (∀ c, channelState t.listen c = ⟨true, none⟩) ∧ t.listen.hopBegan = 0#32
    ∧ t.listen.recent = (0, 0, 0) ∧ t.listen.candidate = none ∧ t.listen.floor = 0
    ∧ t.listen.refractory = 0 ∧ t.listen.queue = [] ∧ t.listen.backlog = false
    ∧ PlayerAtReset t.player ∧ t.keys.events = [] ∧ t.keys.boundary = 0#32 ∧ t.keys.counter = 0#32
    ∧ (∀ d k, keyEntry t.map d k = ⟨[], 0#32⟩)
    ∧ (∀ d, divGet t.map.stops d = 0#32 ∧ divGet t.map.expression d = 0)
    ∧ (∀ c, leakEntry t.leak c = ⟨0, 0#32, 0#32⟩) ∧ KeylineAtReset t.keyline
    ∧ t.flags.queue = [] ∧ t.flags.dropped = false
    ∧ (∀ g, flagUp t.flags g = false ∧ ownEnable t.flags g = false) ∧ t.flags.global = false

/-- R60: both resets set the Follower to the values of the table, and alike. -/
def Obligations.BothResetsSetTheFollower : Prop :=
  ∀ (s t : State) (dt : Nat) (straps : BitVec 2),
    (exec (.fullReset straps) s = .next t ∨ (s.heldInReset = false ∧ exec (.consoleReset dt) s = .next t)) →
    t.follow.state = .OFF ∧ t.follow.anchorTime = 0#32 ∧ t.follow.anchor = ⟨0, 0⟩
      ∧ t.follow.period = 600000 ∧ t.follow.rebased = false ∧ t.follow.matched = 0
      ∧ t.follow.missed = 0 ∧ t.follow.lastMatch = 0#32 ∧ t.follow.lost = false
      ∧ t.follow.window = none ∧ t.follow.cursor = ⟨0, 0⟩ ∧ t.follow.prevUsed = none
      ∧ t.follow.lastClose = none ∧ t.follow.lastDecision = none

/-- CONSOLE_RESET, state by state. It keeps service time (R172), the parameters (R180), the divisions (R24) and
registrations (R31), the pool, the directory with its slot fault records and a clearing in progress (R23), the
stop states and expression levels (R133), the line rate (R172), and what R161 says the Keyline keeps; a PLAYING
slot becomes READY, a LOADING one stays with its counts, and the store fault record is cleared (R23). It clears
the rest: the link with its assembly, queues, counts and request in hand (R168, R172), the Listening Unit (R58),
the Player (R87), the Key Schedule (R115), the keys and their cipher deadlines (R133), the held counts with the
tails set and the fresh deadlines kept (R139, R143), the flags, their enables and the notices (R174 to R176), and
of the Keyline the Stop Queue, the carry list, the settle watch and the counts, with SWEEP entered unless it is
OFF (R148, R160, R161). The Follower is that of the statement before. That these values, gathered from the owning
rules, are those of this reset is the model's reading (log 30); the Player's gap record, none here, is the
model's own (log 24). -/
def Obligations.ConsoleResetKeepsSettings : Prop :=
  ∀ (dt : Nat) (s : State), InService s → ∃ t, exec (.consoleReset dt) s = .next t
    ∧ t.now = s.now + BitVec.ofNat 32 dt ∧ t.heldInReset = false ∧ t.params = s.params ∧ t.organ = s.organ
    ∧ t.store.pool = s.store.pool ∧ t.store.freeRuns = s.store.freeRuns
    ∧ t.store.clearEnd = s.store.clearEnd ∧ t.store.faultHeld = none ∧ t.store.faultMultiple = false
    ∧ (∀ n, slotRec t.store n = (slotRec s.store n).map (fun sl =>
        if sl.state = .PLAYING then { sl with state := .READY } else sl))
    ∧ t.map.stops = s.map.stops ∧ t.map.expression = s.map.expression ∧ anyDown t.map = false
    ∧ (∀ d k, keyEntry t.map d k = ⟨[], 0#32⟩)
    ∧ (s.leak.wf noLeak = true → ∀ c, c < 12 →
        leakEntry t.leak c = ⟨0, timePlus t.now (largestTail s.organ), (leakEntry s.leak c).fresh⟩)
    ∧ t.link.rate = s.link.rate ∧ t.link.lastReset = .CONSOLE ∧ t.link.assembly = .HUNTING
    ∧ t.link.queue = [] ∧ t.link.inHand = false ∧ t.link.sending = none ∧ t.link.busy = []
    ∧ t.link.errors = 0 ∧ t.link.lastDiscard = .none
    ∧ (∀ c, channelState t.listen c = ⟨true, none⟩) ∧ t.listen.hopBegan = t.now
    ∧ t.listen.recent = (0, 0, 0) ∧ t.listen.candidate = none ∧ t.listen.floor = 0
    ∧ t.listen.refractory = 0 ∧ t.listen.queue = [] ∧ t.listen.backlog = false
    ∧ PlayerAtReset t.player ∧ t.keys.events = [] ∧ t.keys.boundary = 0#32 ∧ t.keys.counter = 0#32
    ∧ t.flags.queue = [] ∧ t.flags.dropped = false ∧ t.flags.global = false
    ∧ (∀ g, flagUp t.flags g = false ∧ ownEnable t.flags g = false)
    ∧ t.keyline = { s.keyline with
        state := t.keyline.state, sweep := t.keyline.sweep, originFault := t.keyline.originFault,
        errors := 0, goods := 0, stopQueue := [], carry := [], watch := none }
    ∧ (s.keyline.state = .OFF → t.keyline.state = .OFF ∧ t.keyline.sweep = s.keyline.sweep)
    ∧ (s.keyline.state ≠ .OFF → t.keyline.state = .SWEEP ∧ t.keyline.sweep = allGroups s.organ
        ∧ (s.keyline.state = .SWEEP → t.keyline.originFault = s.keyline.originFault)
        ∧ (s.keyline.state ≠ .SWEEP → (t.keyline.originFault = true ↔ s.keyline.state = .FAULT)))

/-- HELD_IN_RESET: a pulse of 1 µs or longer, or the supply, puts the part in reset, and a shorter pulse
does nothing. In a part held in reset the attention line is released, and the Console Link transmit line and the
Keyline transmit pair are held idle at the level of a stop bit (R185). That the part then stands still under every
command but a full reset, and that the Keyline's stop bit is high as the Console Link's is, is the model's reading
(log 6). -/
def Obligations.HeldInResetStandsStill : Prop :=
  (∀ (dt : Nat) (s : State), InService s →
      (∀ ns, 1000 ≤ ns → exec (.heldInReset dt (.pin ns)) s
        = .next { s with now := s.now + BitVec.ofNat 32 dt, heldInReset := true })
      ∧ (∀ ns, ns < 1000 → exec (.heldInReset dt (.pin ns)) s
        = .next { s with now := s.now + BitVec.ofNat 32 dt })
      ∧ exec (.heldInReset dt .supply) s
        = .next { s with now := s.now + BitVec.ofNat 32 dt, heldInReset := true })
  ∧ (∀ (c : Instr) (s : State), s.heldInReset = true →
      attention s = false ∧ transmitLine s = .idle true ∧ transmitPair s = .idle true
        ∧ ((∀ straps, c ≠ .fullReset straps) → exec c s = .next s))

/-! ### The Console Link -/

/-- A request taken from an idle link: its row answers with its owner's reply in transmission, the
request in hand, and the part as the owner left it. -/
def Obligations.IdleLinkTakesEachRequest : Prop :=
  ∀ (r : Request) (dt : Nat) (tag : Byte) (s : State), LinkIdle s →
    (∀ m a, r = .stopHymn m a → m < 2) →
    let asked := { elapse dt s with link := { s.link with queue := [queuedRow r tag] } }
    exec (rowOf dt tag r) s
      = .next (replied r tag (answer r asked).result (answer r asked).fields (answer r asked).state)

/-- R168, R172: a frame that completes behind the request in hand waits; behind two queued requests it is
answered BUSY or, with the BUSY list full, discarded as OVERRUN. REPLY_SENT frees the link: the oldest BUSY
reply goes first, then the waiting request is taken, and with neither the link falls idle; after the reply to
RESET it acts as CONSOLE_RESET. At the end of a BUSY reply the same holds, and the queue stays as it is. A
taken request is in hand, with its owner's answer in transmission. The transmit line carries the reply in
transmission byte by byte, each in its serial form (R165); that it is idle at the level of a stop bit with none is
the model's reading (log 6). So is that the reply's kind is the request's with bit 7 set by OR, for a kind that
has it already too (log 10), and that RECEIVE_FRAME leaves the frame in assembly as it was is its choice (log
31). -/
def Obligations.RequestsQueueAndAreAnswered : Prop :=
  (∀ (dt : Nat) (kind tag : Byte) (body : List Byte) (s : State), InService s → 2 ≤ s.link.queue.length →
      (s.link.busy.length < 2 → exec (.receiveFrame dt kind tag body) s
        = .next { elapse dt s with link := { s.link with
            busy := s.link.busy ++ [⟨kind ||| 0x80#8, tag, [4#8]⟩] } })
      ∧ (2 ≤ s.link.busy.length → exec (.receiveFrame dt kind tag body) s
        = .next { elapse dt s with link := { s.link with
            errors := min 255 (s.link.errors + 1), lastDiscard := .OVERRUN } }))
  ∧ (∀ (dt : Nat) (kind tag : Byte) (body : List Byte) (q : Queued) (s : State), InService s →
      s.link.queue = [q] → s.link.inHand = true →
      exec (.receiveFrame dt kind tag body) s
        = .next { elapse dt s with link := { s.link with
            queue := [q, ⟨kind, tag, parseRequest kind body⟩] } })
  ∧ (∀ (dt : Nat) (x : Sending) (s : State), InService s → s.link.sending = some x → x.resets = false →
      (∀ b rest, s.link.busy = b :: rest → x.ofHand = true → exec (.replySent dt) s
        = .next { elapse dt s with link := { s.link with
            queue := s.link.queue.drop 1, inHand := false, busy := rest,
            sending := some ⟨replyFrame b, false, false⟩ } })
      ∧ (s.link.busy = [] → x.ofHand = true → s.link.queue.length ≤ 1 → exec (.replySent dt) s
        = .next { elapse dt s with link := { s.link with queue := [], inHand := false, sending := none } })
      ∧ (x.ofHand = false →
        let sent := { elapse dt s with link := { s.link with sending := none } }
        (∀ b rest, s.link.busy = b :: rest → exec (.replySent dt) s
          = .next { elapse dt s with link := { s.link with
              busy := rest, sending := some ⟨replyFrame b, false, false⟩ } })
        ∧ (∀ q rest, s.link.busy = [] → s.link.queue = q :: rest → s.link.inHand = false →
            exec (.replySent dt) s = .next (takeRequest q sent))
        ∧ (s.link.busy = [] → (s.link.queue = [] ∨ s.link.inHand = true) →
            exec (.replySent dt) s = .next sent)))
  ∧ (∀ (r : Request) (tag : Byte) (s : State),
      let a := answer r s
      takeRequest (queuedRow r tag) s = { a.state with link := { a.state.link with
        inHand := true,
        sending := some ⟨replyFrame (replyOf r tag a.result a.fields), true, decide (r = .reset)⟩ } })
  ∧ (∀ (dt : Nat) (x : Sending) (p q : Queued) (s : State), InService s → s.link.sending = some x →
      x.resets = false → x.ofHand = true → s.link.busy = [] → s.link.queue = [p, q] →
      exec (.replySent dt) s = .next (takeRequest q
        { elapse dt s with link := { s.link with queue := [q], inHand := false, sending := none } }))
  ∧ (∀ (dt dt' : Nat) (tag : Byte) (s : State), LinkIdle s →
      ∃ t, exec (.reset dt tag) s = .next t
        ∧ t = replied .reset tag .OK [] (elapse dt s)
        ∧ exec (.replySent dt') t = exec (.consoleReset dt') t)
  ∧ (∀ s : State, InService s →
      (∀ x, s.link.sending = some x → transmitLine s = .carries (x.frame.flatMap (serial · true)))
      ∧ (s.link.sending = none → transmitLine s = .idle true))

/-- R165: a byte time is a start bit, eight data bits from the least significant, and a stop bit; a stop bit
found low is a framing error, whatever the data bits, and a line held low for a run of byte times is a run
of framing errors, one for each. R167: BYTE_RECEIVED while HUNTING; a framing error, a length out of bounds
and a bad check while ASSEMBLING, up to 200 units after the last byte; and FRAME_TIMEOUT at 200 units after
it. -/
def Obligations.ReceiveLineFollowsTheAssembly : Prop :=
  (∀ (dt : Nat) (b : Byte) (s : State), InService s → s.link.assembly = .HUNTING →
      (b = 0xC3#8 → exec (.byteReceived dt (serial b true)) s
        = .next { elapse dt s with link := { s.link with
            assembly := .ASSEMBLING [] (s.now + BitVec.ofNat 32 dt) } })
      ∧ (b ≠ 0xC3#8 → exec (.byteReceived dt (serial b true)) s = .next (elapse dt s))
      ∧ exec (.byteReceived dt (serial b false)) s = .next (elapse dt s))
  ∧ (∀ (dt gap : Nat) (bs : List Byte) (last : Time) (b : Byte) (s : State), InService s →
      s.link.assembly = .ASSEMBLING bs last → gap ≤ 200 →
      s.now + BitVec.ofNat 32 dt = last + BitVec.ofNat 32 gap →
      exec (.byteReceived dt (serial b false)) s = .next { elapse dt s with link := { s.link with
        assembly := .HUNTING, errors := min 255 (s.link.errors + 1), lastDiscard := .FRAMING } }
      ∧ (∀ n, runAll (List.replicate (n + 1) (.byteReceived dt (serial 0#8 false))) s
          = .next { elapse (dt * (n + 1)) s with link := { s.link with
              assembly := .HUNTING, errors := min 255 (s.link.errors + 1), lastDiscard := .FRAMING } })
      ∧ (∀ lo : Byte, bs = [lo] → (lo.toNat + 256 * b.toNat < 2 ∨ 1024 < lo.toNat + 256 * b.toNat) →
          exec (.byteReceived dt (serial b true)) s = .next { elapse dt s with link := { s.link with
            assembly := .HUNTING, errors := min 255 (s.link.errors + 1), lastDiscard := .LENGTH } })
      ∧ (∀ lo hi kind tag : Byte, ∀ rest : List Byte, bs = lo :: hi :: kind :: tag :: rest →
          rest.length + 1 = lo.toNat + 256 * hi.toNat →
          checkBytes (bs.take (lo.toNat + 256 * hi.toNat + 2)) ≠ bs.drop (lo.toNat + 256 * hi.toNat + 2) ++ [b] →
          exec (.byteReceived dt (serial b true)) s = .next { elapse dt s with link := { s.link with
            assembly := .HUNTING, errors := min 255 (s.link.errors + 1), lastDiscard := .CHECK } }))
  ∧ (∀ (dt : Nat) (bs : List Byte) (last : Time) (s : State), InService s →
      s.link.assembly = .ASSEMBLING bs last → s.now + BitVec.ofNat 32 dt = last + 200#32 →
      exec (.frameTimeout dt) s = .next { elapse dt s with link := { s.link with
        assembly := .HUNTING, errors := min 255 (s.link.errors + 1), lastDiscard := .TIMEOUT } })

/-- A frame sent byte by byte in serial form, with the same interval of at most 20 ms before every byte, has
the effect of RECEIVE_FRAME at its last byte (R165, R166, R167). -/
def Obligations.FrameBytesMakeTheRequest : Prop :=
  ∀ (dt : Nat) (kind tag : Byte) (body : List Byte) (s : State), InService s →
    s.link.assembly = .HUNTING → dt ≤ 200 → body.length ≤ 1022 →
    runAll (byteRun dt (linkFrame kind tag body)) s
      = exec (.receiveFrame (dt * (body.length + 7)) kind tag body) s

/-- Every well-formed request laid out by R170 is read back field by field (R166, R169, R170). That a
presence byte of 2 to 255 stands with no field behind it is the model's reading (log 8). -/
def Obligations.RequestBytesReadBack : Prop :=
  ∀ r : Request, WellFormed.request r = true →
    parseRequest (BitVec.ofNat 8 (kindOf r)) (requestBytes r) = .request r

/-- A request row is the arrival of that request's frame (the model's choice, log 4), its bytes read as
laid out, a presence byte of 2 to 255 with no field behind it (the model's reading, log 8). A frame of an
unknown kind, or with a body of the wrong length, is answered BAD_KIND or BAD_LENGTH with the result code
alone (R169). So every proper beginning of a well-formed request's body, and every such body with bytes behind
it, is answered BAD_LENGTH. That the reply's kind is the request's with bit 7 set by OR, for an unknown kind of 0x80 or
more too, is the model's reading (log 10), and that RECEIVE_FRAME leaves the frame in assembly as it was
is its choice (log 31). -/
def Obligations.FramesAreReadAsRequests : Prop :=
  (∀ (r : Request) (dt : Nat) (tag : Byte) (s : State), WellFormed.request r = true →
      (∀ m a, r = .stopHymn m a → m < 2) →
      exec (rowOf dt tag r) s
        = exec (.receiveFrame dt (BitVec.ofNat 8 (kindOf r)) tag (requestBytes r)) s)
  ∧ (∀ (dt : Nat) (kind tag : Byte) (body : List Byte) (s : State), LinkIdle s →
      (∀ code : Byte,
        (parseRequest kind body = .badKind ∧ code = 5#8 ∨ parseRequest kind body = .badLength ∧ code = 6#8) →
        exec (.receiveFrame dt kind tag body) s
          = .next { elapse dt s with link := { s.link with
              queue := [⟨kind, tag, parseRequest kind body⟩], inHand := true,
              sending := some ⟨replyFrame ⟨kind ||| 0x80#8, tag, [code]⟩, true, false⟩ } })
      ∧ (parseRequest kind body = .badKind ↔ kind.toNat = 0 ∨ 0x1B < kind.toNat))
  ∧ (∀ (r : Request) (dt : Nat) (tag : Byte) (body more : List Byte) (s : State), LinkIdle s →
      WellFormed.request r = true → more ≠ [] →
      (requestBytes r = body ++ more ∨ body = requestBytes r ++ more) →
      let kind : Byte := BitVec.ofNat 8 (kindOf r)
      exec (.receiveFrame dt kind tag body) s
        = .next { elapse dt s with link := { s.link with
            queue := [⟨kind, tag, .badLength⟩], inHand := true,
            sending := some ⟨replyFrame ⟨kind ||| 0x80#8, tag, [6#8]⟩, true, false⟩ } })

/-! ### Parameters, reports, notices -/

/-- The reporting requests are answered OK and change nothing but the link (R21, R29, R37, R92, R171, R179,
R184); the reply to IDENTIFY byte for byte; the report of GET_STATUS begins with service time and the
flags that are up, and zeroes the link error count (R167). -/
def Obligations.ReportsChangeNothing : Prop :=
  (∀ (r : Request) (dt : Nat) (tag : Byte) (s : State), LinkIdle s → reports r = true →
      ∃ fields, exec (rowOf dt tag r) s = .next (replied r tag .OK fields (elapse dt s)))
  ∧ (∀ (dt : Nat) (tag : Byte) (s : State), LinkIdle s →
      exec (.identify dt tag) s = .next (replied .identify tag .OK
        ([0x6C#8, 0x02#8, 1#8, s.link.rate.setWidth 8, 32#8, 0#8, 0x30#8, 16#8, 5#8, 0#8, 1#8, 32#8, 16#8]
          ++ u32 (s.now + BitVec.ofNat 32 dt).toNat
          ++ [if s.link.lastReset = .CONSOLE then 1#8 else 0#8]) (elapse dt s)))
  ∧ (∀ (dt : Nat) (tag : Byte) (s : State), LinkIdle s →
      ∃ fields, exec (.getStatus dt tag) s = .next (replied .getStatus tag .OK
          (u32 (s.now + BitVec.ofNat 32 dt).toNat ++ flagSetBytes (upSet s.flags) ++ fields)
          { elapse dt s with link := { s.link with errors := 0 } }))

/-- GET_PARAM of every parameter but the frame interval gives number, value, default and bounds (R184).
SET_PARAM of the parameters of fixed bounds (3 to 7, 10, 12, 15, 17, 18, 20, 22 to 25) clamps, takes and
reports the value and leaves every other (R181). Then of the frame interval, which becomes pending within
the bound of the firm lead; of the cipher limit, which is clamped like any other, takes the fermata cap
down with it, reports the cap in its reply and pulls in the deadlines of down keys (R146, R181, R182); the
tests of SET_PARAM; and of the other accepted parameters (1, 2, 8, 9, 11, 13, 14, 26 to 28), what a new
value brings about at once (R56, R68, R80, R108, R183). That every parameter value in a reply has four
bytes, signed, is the model's choice (log 10). So are that the value held is compared with the value taken
after clamping (log 26), and the fields of the wait that a max wait resumes (log 24). -/
def Obligations.ParametersAreClampedAndTaken : Prop :=
  (∀ (dt n lo hi : Nat) (tag : Byte) (s : State), LinkIdle s →
      (plainBounds n = some (lo, hi) ∨ actingBounds s n = some (lo, hi)
        ∨ (n = 19 ∧ lo = 40000 ∧ hi = 300000) ∨ (n = 21 ∧ lo = 0 ∧ hi = 1)) →
      exec (.getParam dt tag n) s = .next (replied (.getParam n) tag .OK
        (u8 n ++ i32 (paramOf s.params n) ++ i32 (paramOf paramDefaults n) ++ i32 lo ++ i32 hi)
        (elapse dt s)))
  ∧ (∀ (dt n lo hi : Nat) (v : Int) (tag : Byte) (s : State), LinkIdle s → plainBounds n = some (lo, hi) →
      let x := if v < lo then lo else if (hi : Int) < v then hi else v.toNat
      ∃ p, exec (.setParam dt tag n v) s = .next (replied (.setParam n v) tag
          (if (x : Int) = v then .OK else .CLAMPED) (u8 n ++ i32 x) { elapse dt s with params := p })
        ∧ paramOf p n = x ∧ ∀ m, m ≠ n → paramOf p m = paramOf s.params m)
  ∧ (∀ (dt : Nat) (v : Int) (tag : Byte) (s : State), LinkIdle s → 20 ≤ s.params.firmLead →
      let top := min 80 (s.params.firmLead / 2)
      let x := if v < 10 then 10 else if (top : Int) < v then top else v.toNat
      exec (.setParam dt tag 16 v) s = .next (replied (.setParam 16 v) tag
        (if (x : Int) = v then .OK else .CLAMPED) (u8 16 ++ i32 x)
        { elapse dt s with keyline := { s.keyline with pendingInterval := some x } }))
  ∧ (∀ (dt : Nat) (v : Int) (tag : Byte) (s : State), LinkIdle s →
      let x := if v < 40000 then 40000 else if 300000 < v then 300000 else v.toNat
      let bound := timePlus (s.now + BitVec.ofNat 32 dt) x
      ∃ t, exec (.setParam dt tag 19 v) s = .next (replied (.setParam 19 v) tag
          (if (x : Int) = v then .OK else .CLAMPED) (u8 19 ++ i32 x ++ u32 t.params.fermataCap) t)
        ∧ t.params = { s.params with cipherLimit := x, fermataCap := min s.params.fermataCap (x - 10000) }
        ∧ (x = s.params.cipherLimit → t.map = s.map)
        ∧ (∀ d k, (keyEntry t.map d k).holders = (keyEntry s.map d k).holders)
        ∧ (x ≠ s.params.cipherLimit → ∀ d k, keyDown s.map d k = true → (keyEntry t.map d k).deadline
            = if later (keyEntry s.map d k).deadline bound = true then bound
              else (keyEntry s.map d k).deadline)
        ∧ t = { elapse dt s with params := t.params, map := t.map }
        ∧ t.map.stops = s.map.stops ∧ t.map.expression = s.map.expression)
  ∧ (∀ (dt n : Nat) (v : Int) (tag : Byte) (s : State), LinkIdle s →
      ((n = 0 ∨ 28 < n) → exec (.setParam dt tag n v) s
          = .next (replied (.setParam n v) tag .BAD_FIELD [] (elapse dt s)))
      ∧ (n = 11 → s.player.state ≠ .IDLE → exec (.setParam dt tag n v) s
          = .next (replied (.setParam n v) tag .WRONG_STATE [] (elapse dt s)))
      ∧ ((n = 9 ∨ n = 21 ∨ n = 26) → (v < 0 ∨ 1 < v) → exec (.setParam dt tag n v) s
          = .next (replied (.setParam n v) tag .BAD_FIELD [] (elapse dt s)))
      ∧ (n = 27 → (v < 0 ∨ 4095 < v) → exec (.setParam dt tag n v) s
          = .next (replied (.setParam n v) tag .BAD_FIELD [] (elapse dt s))))
  ∧ ActingParametersAreTaken

/-- R160, R162: KEYLINE_ENABLE_ON at an OFF Keyline enters SWEEP with every key group to sweep and the
first frame start one interval from now. KEYLINE_ENABLE_OFF at a Keyline that is not OFF is refused
while a hymn is active or a key is down; otherwise the Keyline is OFF with its queues and counts empty.
The four signed bytes of the value in the reply are the model's choice (log 10). -/
def Obligations.KeylineEnableSweepsOrEmpties : Prop :=
  (∀ (dt : Nat) (tag : Byte) (s : State), LinkIdle s → s.keyline.state = .OFF →
      exec (.keylineEnableOn dt tag) s = .next (replied (.setParam 21 1) tag .OK (u8 21 ++ i32 1)
        { elapse dt s with
          params := { s.params with enable := true },
          keyline := { s.keyline with
            state := .SWEEP, sweep := allGroups s.organ, originFault := false, errors := 0, goods := 0,
            carry := [], cursor := 0, awaited := none,
            nextStart := some (timePlus (s.now + BitVec.ofNat 32 dt) s.keyline.interval) } }))
  ∧ (∀ (dt : Nat) (tag : Byte) (s : State), LinkIdle s → s.keyline.state ≠ .OFF →
      ((s.player.state ≠ .IDLE ∨ anyDown s.map = true) → exec (.keylineEnableOff dt tag) s
        = .next (replied (.setParam 21 0) tag .WRONG_STATE [] (elapse dt s)))
      ∧ (s.player.state = .IDLE → anyDown s.map = false → exec (.keylineEnableOff dt tag) s
        = .next (replied (.setParam 21 0) tag .OK (u8 21 ++ i32 0)
          { elapse dt s with
            params := { s.params with enable := false },
            keyline := { s.keyline with
              state := .OFF, nextStart := none, awaited := none, heldEcho := none, errors := 0,
              goods := 0, stopQueue := [], carry := [], sweep := [], watch := none } })))

/-- SET_NOTICES replaces the enables and queues one notice, in flag order and as far as the queue has
room, for each up flag whose notices it enables (R175, R176). That the global enable is 0 for off and
1 for on is the model's reading (log 10). -/
def Obligations.SetNoticesQueuesForUpFlags : Prop :=
  ∀ (dt g e : Nat) (tag : Byte) (s : State), LinkIdle s → g ≤ 1 → e < 2 ^ 18 →
    ∃ t, exec (.setNotices dt tag g e) s
        = .next (replied (.setNotices g e) tag .OK (u8 g ++ flagSetBytes e) { elapse dt s with flags := t })
      ∧ t.global = (g == 1) ∧ t.enables = BitVec.ofNat 18 e ∧ t.raised = s.flags.raised
      ∧ let fresh := allFlags.filterMap (fun x =>
            if noticesEnabled s.flags x = false ∧ enabledBy g e x = true then raiseRecord s.flags x
            else none)
        t.queue = s.flags.queue ++ fresh.take (16 - s.flags.queue.length)
          ∧ (s.flags.queue.length ≤ 16 →
              t.dropped = (s.flags.dropped || decide (16 < s.flags.queue.length + fresh.length)))

/-- FETCH_NOTICES removes up to four of the oldest notices and, when that empties the queue, clears the
notices-dropped indication (R177). ACK_FLAGS puts each named flag down and leaves the others; queued notices
stay; naming FAULTY_STEP clears the store fault record (R178). That the notices-dropped indication is sent as
0 for clear and 1 for set is the model's reading (log 10). -/
def Obligations.NoticesAreFetchedAndFlagsPutDown : Prop :=
  (∀ (dt : Nat) (tag : Byte) (s : State), LinkIdle s →
      exec (.fetchNotices dt tag) s = .next (replied .fetchNotices tag .OK
        (u8 (if s.flags.dropped then 1 else 0)
          ++ (u8 (min 4 s.flags.queue.length) ++ (s.flags.queue.take 4).flatMap noticeBytes)
          ++ u8 (s.flags.queue.length - 4))
        { elapse dt s with flags := { s.flags with
            queue := s.flags.queue.drop 4,
            dropped := if s.flags.queue.length ≤ 4 then false else s.flags.dropped } }))
  ∧ (∀ (dt e : Nat) (tag : Byte) (s : State), LinkIdle s → e < 2 ^ 18 →
      s.flags.raised.wf none = true →
      ∃ t st, exec (.ackFlags dt tag e) s = .next (replied (.ackFlags e) tag .OK (flagSetBytes (upSet t))
            { elapse dt s with flags := t, store := st })
        ∧ (∀ g, raiseRecord t g
            = if e.testBit (flagNumber g - 1) = true then none else raiseRecord s.flags g)
        ∧ t.queue = s.flags.queue ∧ t.dropped = s.flags.dropped ∧ t.global = s.flags.global
        ∧ t.enables = s.flags.enables
        ∧ st = (if e.testBit 6 = true then { s.store with faultHeld := none, faultMultiple := false }
                else s.store))

/-- A raise of a down flag writes its raise record and offers one notice when its notices are enabled,
which joins the queue or is dropped; a raise of an up flag has no effect. The attention line follows
the Notice Queue in a part that is not held in reset (R174, R176, R185). -/
def Obligations.OnlyARiseIsNoticed : Prop :=
  (∀ (k : Kind) (s : State), s.flags.raised.wf none = true →
      (flagUp s.flags (flagOf k) = true → raise k s = s)
      ∧ (flagUp s.flags (flagOf k) = false →
          raiseRecord (raise k s).flags (flagOf k) = some ⟨s.now, k⟩
          ∧ (∀ g, g ≠ flagOf k → raiseRecord (raise k s).flags g = raiseRecord s.flags g)
          ∧ (noticesEnabled s.flags (flagOf k) = false → (raise k s).flags.queue = s.flags.queue)
          ∧ (noticesEnabled s.flags (flagOf k) = true → s.flags.queue.length < 16 →
              (raise k s).flags.queue = s.flags.queue ++ [⟨s.now, k⟩])
          ∧ (noticesEnabled s.flags (flagOf k) = true → 16 ≤ s.flags.queue.length →
              (raise k s).flags.queue = s.flags.queue ∧ (raise k s).flags.dropped = true)))
  ∧ (∀ s : State, attention s = true ↔ s.heldInReset = false ∧ s.flags.queue ≠ [])

/-! ### Divisions and registrations -/

/-- SET_DIVISION in an IDLE part with the Keyline OFF: the limited record replaces the old one, the
division's keys, stops and level in the Sounding Map are cleared, every registration record is brought into
agreement with the new record, so that none routes a voice to an absent division, and the other divisions
stay; its tests, in order, leave everything as it was (R26,
R27, R28). -/
def Obligations.SetDivisionReplacesTheRecord : Prop :=
  (∀ (dt n : Nat) (d : Division) (f : DivisionFields) (tag : Byte) (s : State), LinkIdle s →
      divisionOf n = some d → yesNoValid f → s.player.state = .IDLE → s.keyline.state = .OFF →
      s.map.keys.wf noKey = true →
      ∃ o m fields, exec (.setDivision dt tag n f) s = .next (replied (.setDivision n f) tag
            (if divisionChanged f (limitedDivision f) then .CLAMPED else .OK)
            (divisionBytes (limitedDivision f) ++ fields) { elapse dt s with organ := o, map := m })
        ∧ divRec o d = limitedDivision f ∧ (∀ e, e ≠ d → divRec o e = divRec s.organ e)
        ∧ (∀ k, k < 64 → keyEntry m d k = noKey) ∧ divGet m.stops d = 0#32 ∧ divGet m.expression d = 0
        ∧ (∀ e k, e ≠ d → k < 64 → keyEntry m e k = keyEntry s.map e k)
        ∧ (∀ e, e ≠ d → divGet m.stops e = divGet s.map.stops e
            ∧ divGet m.expression e = divGet s.map.expression e)
        ∧ (f.present = 0 → ∀ i r, registrationAt o i = some r → ∀ x ∈ voiceList r.routing, x ≠ some d)
        ∧ (∀ i, registrationAt s.organ i = none → registrationAt o i = none)
        ∧ (∀ i r, registrationAt s.organ i = some r → ∃ r', registrationAt o i = some r'
            ∧ Agreed d (divRec s.organ d) (limitedDivision f) r r'))
  ∧ (∀ (dt n : Nat) (f : DivisionFields) (tag : Byte) (s : State), LinkIdle s → yesNoValid f →
      ((n = 0 ∨ 5 < n) → exec (.setDivision dt tag n f) s
          = .next (replied (.setDivision n f) tag .BAD_FIELD [] (elapse dt s)))
      ∧ (1 ≤ n → n ≤ 5 → (s.player.state ≠ .IDLE ∨ s.keyline.state ≠ .OFF) →
          exec (.setDivision dt tag n f) s
            = .next (replied (.setDivision n f) tag .WRONG_STATE [] (elapse dt s))))

/-- SET_REGISTRATION: with present no the record becomes absent; with present yes and good fields it is
stored with the verse set, the routing, and the stop states and expressions of the divisions that can take
them as given, a level limited to 15 and the lift to 48, CLAMPED exactly when one of these was limited,
and the record as held in the reply; the other records stay (R33, R34). That routing byte 6 is SILENT and
expression byte 16 UNCHANGED is the model's choice (log 11). So is the form of the replies, the record
with no presence byte and nothing for present no (log 44). -/
def Obligations.SetRegistrationStoresOrRemoves : Prop :=
  ∀ (dt i : Nat) (tag : Byte) (s : State), LinkIdle s → i < 16 → s.organ.registrations.wf none = true →
    (∃ o, exec (.setRegistration dt tag i .absent) s
          = .next (replied (.setRegistration i .absent) tag .OK [] { elapse dt s with organ := o })
        ∧ o.divisions = s.organ.divisions ∧ registrationAt o i = none
        ∧ ∀ j, j ≠ i → registrationAt o j = registrationAt s.organ j)
    ∧ ∀ f, registrationValid s.organ f →
      ∃ o x fields r, exec (.setRegistration dt tag i (.present f)) s
          = .next (replied (.setRegistration i (.present f)) tag x fields { elapse dt s with organ := o })
        ∧ (x = .OK ∨ x = .CLAMPED)
        ∧ (x = .CLAMPED ↔ 48 < f.lift ∨ ∃ d, (divRec s.organ d).present = true
            ∧ (divRec s.organ d).enclosed = true ∧ 16 < divGet f.expression d)
        ∧ fields = registrationBytes o r ∧ o.divisions = s.organ.divisions ∧ registrationAt o i = some r
        ∧ (∀ j, j ≠ i → registrationAt o j = registrationAt s.organ j)
        ∧ r.first = f.first ∧ r.last = f.last ∧ r.repeats = f.repeats ∧ r.base = f.base
        ∧ r.routing = voiceMap divisionOf f.routing ∧ r.lift = min f.lift 48
        ∧ (∀ d, (divGet r.stops d).isSome = (divRec s.organ d).present)
        ∧ (∀ d, (divGet r.expression d).isSome
            = ((divRec s.organ d).present && (divRec s.organ d).enclosed))
        ∧ (∀ d b, divGet r.stops d = some b → ∀ k, k < 32 → b.getLsbD k
            = (decide (k < (divRec s.organ d).stopCount) && (divGet f.stops d)[k]? == some 1))
        ∧ (∀ d e, divGet r.expression d = some e → e
            = if divGet f.expression d = 16 then .UNCHANGED else .level (min (divGet f.expression d) 15))

/-- R36: a named index gives the record there if it is present; AUTO gives the present record of
lowest index to whose verse set the verse belongs; otherwise no record applies. -/
def Obligations.ApplyingRegistrationIsFound : Prop :=
  ∀ (o : Organ) (v : Nat), o.registrations.wf none = true →
    (∀ i, applies o (some i) v = (registrationAt o i).map (fun r => (i, r)))
    ∧ (∀ i r, applies o none v = some (i, r) ↔
        registrationAt o i = some r ∧ (r.first ≤ v ∧ v ≤ r.last ∧ (v - 1) % r.repeats = r.base)
          ∧ ∀ j q, j < i → registrationAt o j = some q →
              ¬ (q.first ≤ v ∧ v ≤ q.last ∧ (v - 1) % q.repeats = q.base))

/-! ### The Tune Store -/

/-- TUNE_BEGIN of a valid header takes the first n entries of the first free run that holds n, and
the slot is LOADING; with no such run it is refused NO_SPACE and nothing changes (R7, R11). -/
def Obligations.TuneBeginTakesTheFirstFit : Prop :=
  ∀ (dt n : Nat) (h : HeaderFields) (tag : Byte) (s : State), LinkIdle s → SlotServed s n →
    slotRec s.store n = none → headerValid h →
    (∀ pre b m post, s.store.freeRuns = pre ++ (b, m) :: post → (∀ r ∈ pre, r.2 < h.entries) →
      h.entries ≤ m →
      exec (.tuneBegin dt tag n h) s = .next (replied (.tuneBegin n h) tag .OK (u16 b)
        { elapse dt s with store := { s.store with
            slots := s.store.slots.set none n (some (loadingSlot (headerOf h) b)),
            freeRuns := pre ++ (if h.entries = m then [] else [(b + h.entries, m - h.entries)]) ++ post } }))
    ∧ ((∀ r ∈ s.store.freeRuns, r.2 < h.entries) →
      exec (.tuneBegin dt tag n h) s = .next (replied (.tuneBegin n h) tag .NO_SPACE
        (u16 ((runLengths s.store.freeRuns).foldl max 0) ++ u16 (runLengths s.store.freeRuns).sum)
        (elapse dt s)))

/-- TUNE_STEPS of valid steps that fit: the counts advance, the entries after those written are filled,
and each step reads back as it was sent at its index; no other entry, slot or free run changes. A first
index other than the steps written, an invalid step, which the reply names by its index, and a list that does
not fit each leave the store as it was (R13). A step is valid by the ranges of R9, the notes and the order of
the positions (R14). A step as it is written is read back good, with every field as it was sent (R13,
R17). -/
def Obligations.TuneStepsWritesAllOrNone : Prop :=
  (∀ (dt n : Nat) (l : List StepFields) (sl : Slot) (tag : Byte) (s : State), LinkIdle s →
      SlotServed s n → slotRec s.store n = some sl → sl.state = .LOADING →
      (∀ j, j < l.length → stepValid sl l j) →
      sl.stepsWritten + l.length ≤ sl.header.verseSteps + sl.header.amenSteps →
      sl.entriesWritten + entriesOf l ≤ sl.header.entries →
      Memory.wf s.store.pool = true → s.store.slots.wf none = true →
      ∃ st sl', exec (.tuneSteps dt tag n sl.stepsWritten l) s
          = .next (replied (.tuneSteps n sl.stepsWritten l) tag .OK
              (u16 (sl.stepsWritten + l.length) ++ u16 (sl.entriesWritten + entriesOf l))
              { elapse dt s with store := st })
        ∧ slotRec st n = some sl' ∧ sl'.state = .LOADING ∧ sl'.header = sl.header ∧ sl'.start = sl.start
        ∧ sl'.stepsWritten = sl.stepsWritten + l.length
        ∧ sl'.entriesWritten = sl.entriesWritten + entriesOf l
        ∧ (∀ m, m ≠ n → slotRec st m = slotRec s.store m) ∧ st.freeRuns = s.store.freeRuns
        ∧ (∀ e, (e < sl.start + sl.entriesWritten ∨ sl.start + sl.entriesWritten + entriesOf l ≤ e) →
            st.pool.get .blank e = s.store.pool.get .blank e)
        ∧ (sl.written.length = sl.stepsWritten → ∀ i f, l[i]? = some f →
            ∃ r, recordsStep f r ∧ readStep st sl' (sl.stepsWritten + i) = some r))
  ∧ (∀ (dt n first : Nat) (l : List StepFields) (sl : Slot) (tag : Byte) (s : State), LinkIdle s →
      SlotServed s n → slotRec s.store n = some sl → sl.state = .LOADING →
      (first ≠ sl.stepsWritten → exec (.tuneSteps dt tag n first l) s
        = .next (replied (.tuneSteps n first l) tag .BAD_FIELD (u16 sl.stepsWritten) (elapse dt s)))
      ∧ (first = sl.stepsWritten → ∀ k, k < l.length → (∀ j, j < k → stepValid sl l j) →
        ¬ stepValid sl l k → exec (.tuneSteps dt tag n first l) s
          = .next (replied (.tuneSteps n first l) tag .BAD_FIELD (u16 (sl.stepsWritten + k))
              (elapse dt s)))
      ∧ (first = sl.stepsWritten → (∀ j, j < l.length → stepValid sl l j) →
        (sl.header.verseSteps + sl.header.amenSteps < sl.stepsWritten + l.length
          ∨ sl.header.entries < sl.entriesWritten + entriesOf l) →
        exec (.tuneSteps dt tag n first l) s = .next (replied (.tuneSteps n first l) tag .OVERFLOW
          (u16 (sl.header.verseSteps + sl.header.amenSteps - sl.stepsWritten)
            ++ u16 (sl.header.entries - sl.entriesWritten)) (elapse dt s))))
  ∧ (∀ (st : Store) (sl : Slot) (f : StepFields), stepInRange f → Memory.wf st.pool = true →
      ∃ r, recordsStep f r
        ∧ readStep { st with pool := (writeStep sl st.pool f).2 } (writeStep sl st.pool f).1
            sl.written.length = some r)

/-- TUNE_END of a LOADING slot: with every count as declared the slot is READY with the section end
positions of its steps; otherwise it is refused COUNT_MISMATCH and the slot stays (R10, R15). -/
def Obligations.TuneEndChecksTheCounts : Prop :=
  ∀ (dt n : Nat) (sl : Slot) (tag : Byte) (s : State), LinkIdle s → SlotServed s n →
    slotRec s.store n = some sl → sl.state = .LOADING →
    let total := sl.header.verseSteps + sl.header.amenSteps
    (sl.stepsWritten = total → sl.entriesWritten = sl.header.entries →
      ∃ e, exec (.tuneEnd dt tag n) s = .next (replied (.tuneEnd n) tag .OK (endsBytes e)
          { elapse dt s with store := { s.store with
              slots := s.store.slots.set none n (some { sl with state := .READY, ends := some e }) } })
        ∧ e.verse = endOf (sl.written.take sl.header.verseSteps)
        ∧ e.amen = (if sl.header.amenSteps = 0 then none
                    else some (endOf (sl.written.drop sl.header.verseSteps)))
        ∧ (sl.header.intro = none → e.intro = none)
        ∧ (∀ a b w, sl.header.intro = some (a, b) → sl.written[a]? = some w →
            e.intro = some (endOf ((sl.written.take (b + 1)).drop a) - w.position)))
    ∧ ((sl.stepsWritten ≠ total ∨ sl.entriesWritten ≠ sl.header.entries) →
      exec (.tuneEnd dt tag n) s = .next (replied (.tuneEnd n) tag .COUNT_MISMATCH
        (u16 sl.stepsWritten ++ u16 sl.entriesWritten ++ u16 total ++ u16 sl.header.entries)
        (elapse dt s)))

/-- TUNE_ERASE: an EMPTY slot is NOT_FOUND, a PLAYING slot WRONG_STATE; a LOADING or READY slot becomes
EMPTY and exactly the entries of its extent become free, the pool's content staying (R8, R16). -/
def Obligations.TuneEraseFreesTheExtent : Prop :=
  ∀ (dt n : Nat) (tag : Byte) (s : State), LinkIdle s → SlotServed s n →
    s.store.slots.wf none = true →
    (slotRec s.store n = none → exec (.tuneErase dt tag n) s
      = .next (replied (.tuneErase n) tag .NOT_FOUND [] (elapse dt s)))
    ∧ ∀ sl, slotRec s.store n = some sl →
      (sl.state = .PLAYING → exec (.tuneErase dt tag n) s
        = .next (replied (.tuneErase n) tag .WRONG_STATE [] (elapse dt s)))
      ∧ (sl.state ≠ .PLAYING → ∃ st, exec (.tuneErase dt tag n) s
          = .next (replied (.tuneErase n) tag .OK
              (u16 ((runLengths st.freeRuns).foldl max 0) ++ u16 (runLengths st.freeRuns).sum)
              { elapse dt s with store := st })
        ∧ slotRec st n = none ∧ (∀ m, m ≠ n → slotRec st m = slotRec s.store m)
        ∧ st.pool = s.store.pool ∧ st.faultHeld = s.store.faultHeld
        ∧ (runLengths st.freeRuns).sum = (runLengths s.store.freeRuns).sum + sl.header.entries
        ∧ (PoolDivided s.store → ∀ e, FreeEntry st e ↔
            FreeEntry s.store e ∨ (sl.start ≤ e ∧ e < sl.start + sl.header.entries)))

/-- TUNE_READ leaves the pool, the free runs and every slot's state, header and counts, and with every step
good it changes nothing but the link; each faulty step among those it returns is noted as a failed check with
the console as reader. A failed check enters the step in the two fault records and raises FAULTY_STEP
(R19, R20). -/
def Obligations.TuneReadChecksEachStep : Prop :=
  (∀ (dt n first count : Nat) (sl : Slot) (tag : Byte) (s : State), LinkIdle s → SlotServed s n →
      slotRec s.store n = some sl → 1 ≤ count → count ≤ 64 → first < sl.stepsWritten →
      ∃ fields t, exec (.tuneRead dt tag n first count) s
          = .next (replied (.tuneRead n first count) tag .OK fields t)
        ∧ t.store.pool = s.store.pool ∧ t.store.freeRuns = s.store.freeRuns
        ∧ t.store.clearEnd = s.store.clearEnd
        ∧ (s.store.slots.wf none = true →
            ∀ m, (slotRec t.store m).map slotCounts = (slotRec s.store m).map slotCounts)
        ∧ t = { elapse dt s with store := t.store, flags := t.flags }
        ∧ ((∀ i, first ≤ i → i < first + count → i < sl.stepsWritten →
              (readStep s.store sl i).isSome = true) → t = elapse dt s)
        ∧ (∃ k rest, fields = u8 k ++ rest ∧ k ≤ count ∧ first + k ≤ sl.stepsWritten
            ∧ (readStep s.store sl first = none → 1 ≤ k)
            ∧ t = ((List.range k).filter (fun j => (readStep s.store sl (first + j)).isNone)).foldl
                (fun u j => noteFault n (first + j) .console u) (elapse dt s)))
  ∧ (∀ (n i : Nat) (r : Reader) (sl : Slot) (s : State), slotRec s.store n = some sl →
      s.store.slots.wf none = true →
      let t := noteFault n i r s
      (∃ sl', slotRec t.store n = some sl'
        ∧ (sl.faultFirst = none → sl'.faultFirst = some i ∧ sl'.faultMultiple = sl.faultMultiple)
        ∧ (∀ j, sl.faultFirst = some j → sl'.faultFirst = some j
            ∧ sl'.faultMultiple = (sl.faultMultiple || decide (j ≠ i))))
      ∧ (s.store.faultHeld = none → t.store.faultHeld = some (n, i)
          ∧ t.store.faultMultiple = s.store.faultMultiple)
      ∧ (∀ x, s.store.faultHeld = some x → t.store.faultHeld = some x
          ∧ t.store.faultMultiple = (s.store.faultMultiple || decide (x ≠ (n, i))))
      ∧ t.store.pool = s.store.pool
      ∧ t.flags = raiseFlags s.now (.faultyStep n i r) s.flags)

/-- CLEAR_STORE: refused while a hymn is active or a clearing runs; otherwise every slot is EMPTY, the pool
is one free run, blank, and 250 units later CLEARING_END makes the store READY and raises STORE_READY
(R22). That the pool is blank at once is the model's choice (log 45). -/
def Obligations.ClearStoreClearsFor250Units : Prop :=
  (∀ (dt : Nat) (tag : Byte) (s : State), LinkIdle s →
      (s.player.state ≠ .IDLE → exec (.clearStore dt tag) s
        = .next (replied .clearStore tag .WRONG_STATE [] (elapse dt s)))
      ∧ (s.player.state = .IDLE → s.store.clearEnd ≠ none → exec (.clearStore dt tag) s
        = .next (replied .clearStore tag .BUSY [] (elapse dt s)))
      ∧ (s.player.state = .IDLE → s.store.clearEnd = none → ∃ st, exec (.clearStore dt tag) s
          = .next (replied .clearStore tag .OK [] { elapse dt s with store := st })
        ∧ (∀ n, slotRec st n = none) ∧ st.freeRuns = [(0, 12288)] ∧ (∀ e, st.pool.get .blank e = .blank)
        ∧ st.faultHeld = none ∧ st.faultMultiple = false
        ∧ st.clearEnd = some (s.now + BitVec.ofNat 32 dt + 250#32)))
  ∧ (∀ (dt : Nat) (s : State), InService s → s.store.clearEnd = some (s.now + BitVec.ofNat 32 dt) →
      exec (.clearingEnd dt) s
        = .next (raise .storeReady { elapse dt s with store := { s.store with clearEnd := none } }))

/-! ### The Hymn Player: requests -/

/-- START_HYMN: its first five tests, each with its result, change nothing (R88). An accepted one of CUED
start: the slot is PLAYING, the Follower leads from the first anchor, the change is made known to the
Key Scheduler, the opening verse's registration is in force, and the Player waits in START_WAIT behind
a CLOSED fence (R63, R79, R89, R107, R110, R127). An accepted one of immediate start puts the Player into
the opening section's state, its verse latched, and the Follower into LEAD (R79, R89, R91, R100). Every
accepted one is answered OK and leaves the divisions and the parameters. The Player's gap record, none where a
section is entered, is the model's own (log 24). -/
def Obligations.StartHymnStartsOrIsRefused : Prop :=
  (∀ (dt : Nat) (f : StartFields) (tag : Byte) (s : State), LinkIdle s →
      let refused (x : Result) := exec (.startHymn dt tag f) s
        = .next (replied (.startHymn f) tag x [] (elapse dt s))
      (32 ≤ f.slot → refused .BAD_FIELD)
      ∧ (f.slot < 32 → s.player.state ≠ .IDLE → refused .WRONG_STATE)
      ∧ (f.slot < 32 → s.player.state = .IDLE → s.keyline.state = .OFF → refused .WRONG_STATE)
      ∧ (f.slot < 32 → s.player.state = .IDLE → s.keyline.state ≠ .OFF → s.store.clearEnd ≠ none →
          refused .BUSY)
      ∧ (f.slot < 32 → s.player.state = .IDLE → s.keyline.state ≠ .OFF → s.store.clearEnd = none →
          (∀ sl, slotRec s.store f.slot = some sl → sl.state ≠ .READY) → refused .NOT_FOUND))
  ∧ (∀ (dt : Nat) (f : StartFields) (tag : Byte) (s : State) (sl : Slot) (es : List PlanEntry)
      (e : PlanEntry) (i : Nat) (r : Registration), LinkIdle s → Startable f s sl es e (i, r) →
      f.startKind = 1 →
      s.store.slots.wf none = true → s.flags.raised.wf none = true →
      let now := s.now + BitVec.ofNat 32 dt
      let first := timePlus now (s.params.firmLead + largestSpeech s.organ)
      ∃ fields t, exec (.startHymn dt tag f) s = .next (replied (.startHymn f) tag .OK fields t)
        ∧ t.player.state = .START_WAIT ∧ t.player.slot = some f.slot ∧ t.player.fence = .CLOSED
        ∧ t.player.goLatch = false ∧ t.player.reservation = .NONE ∧ t.player.window = []
        ∧ t.player.readAhead = none ∧ t.player.lastOutcome = some .waiting
        ∧ t.player.registration = some (i, r) ∧ t.player.channels = channelsOf r e.transposition
        ∧ (∃ w, t.player.wait = some w ∧ w.kind = .start ∧ w.phase = .WAITING
            ∧ w.resume = startPosition f e ∧ w.start = now)
        ∧ (slotRec t.store f.slot).map (·.state) = some .PLAYING
        ∧ t.follow.state = .LEAD ∧ t.follow.anchorTime = first ∧ t.follow.anchor = startPosition f e
        ∧ t.follow.period = sl.header.nominal ∧ t.follow.lastMatch = first ∧ t.follow.rebased = false
        ∧ t.follow.matched = 0 ∧ t.follow.missed = 0 ∧ t.follow.lost = false ∧ t.follow.window = none
        ∧ t.follow.cursor = startPosition f e ∧ t.follow.lastDecision = none
        ∧ flagUp t.flags .HYMN = true ∧ flagUp t.flags .WAIT = true
        ∧ t.keys.boundary = timePlus now s.params.firmLead ∧ t.keys.counter = s.keys.counter
        ∧ t.keys.events.Perm
            (s.keys.events.map (fun x => firmed now t.keys.boundary (retimed t.follow s.organ x)))
        ∧ t.map = s.map ∧ t.leak = s.leak ∧ t.organ = s.organ ∧ t.params = s.params)
  ∧ (∀ (dt : Nat) (f : StartFields) (tag : Byte) (s : State) (sl : Slot) (es : List PlanEntry)
      (e : PlanEntry) (r : Nat × Registration), LinkIdle s → Startable f s sl es e r →
      ∃ fields t, exec (.startHymn dt tag f) s = .next (replied (.startHymn f) tag .OK fields t)
        ∧ t.organ = s.organ ∧ t.params = s.params ∧ t.store.pool = s.store.pool)
  ∧ ImmediateStartEntersTheSection

/-- GO: refused with no hymn to go on, latched when no cued wait is in WAITING, reported when latched already.
GO and MAX_WAIT_EXPIRY in a fermata's WAITING with nothing ahead: the wait breathes until now and the breath,
the fence is lifted, and the Follower is rebased to the resume position. With steps in the window or a step
read ahead behind the fermata they do the same, and the walking goes on from there (R98). In the WAITING of a
gap or of START_WAIT they do the same, and the walking of the section behind begins (R83, R96, R108, R110,
R111). A breath of 0 ends in the event that begins it, where nothing more is due: the Player is back in its
section, or in the next (R108, R109). The wait record's moment and cause of a BREATH are the model's fields for
what R109 asks (log 24). -/
def Obligations.GoResumesLatchesOrIsRefused : Prop :=
  (∀ (dt : Nat) (tag : Byte) (s : State), LinkIdle s →
      (¬ HymnActive s → exec (.go dt tag) s = .next (replied .go tag .WRONG_STATE [] (elapse dt s)))
      ∧ (HymnActive s → waitIn s.player .WAITING = none → s.player.goLatch = false →
        exec (.go dt tag) s = .next (replied .go tag .LATCHED []
          { elapse dt s with player := { s.player with goLatch := true } }))
      ∧ (HymnActive s → waitIn s.player .WAITING = none → s.player.goLatch = true →
        exec (.go dt tag) s = .next (replied .go tag .ALREADY_LATCHED [] (elapse dt s))))
  ∧ (∀ (dt : Nat) (tag : Byte) (w : Wait) (s : State), InService s →
      s.player.state = waitState w.kind → s.player.wait = some w → w.phase = .WAITING →
      s.params.breath ≤ 10000 →
      let now := s.now + BitVec.ofNat 32 dt
      let goneOn (x : State) : State := resumeWait w (timePlus now s.params.breath) false x
      let resumed (t : State) : Prop :=
        (w.kind = .fermata → NothingAhead s.player → ResumedFermata now w s t)
        ∧ (w.kind = .fermata → s.params.finishVerse = false → ResumedBehindFermata now w s t)
        ∧ (w.kind ≠ .fermata → s.params.finishVerse = false → ResumedSection now w s t)
      (LinkIdle s →
        let t := goneOn { elapse dt s with link := { s.link with queue := [queuedRow .go tag] } }
        resumed t ∧ GoesOn s.params.breath w t
          (fun x => exec (.go dt tag) s = .next (replied .go tag .OK [] x)))
      ∧ (0 < s.params.maxWait → timePlus w.start s.params.maxWait = now →
        let t := goneOn (elapse dt s)
        resumed t ∧ GoesOn s.params.breath w t (fun x => exec (.maxWaitExpiry dt) s = .next x)))

/-- STOP_HYMN of mode END_OF_VERSE while a verse is to come or sung, in a fermata or in the gap before a
verse too, cuts the plan to the verse in hand and, with DROP, takes its Amen; the Go latch and the
reservation are gone. In IDLE and STOPPING it is WRONG_STATE and, with DROP in the Amen, TOO_LATE; KEEP in
the Amen or in the gap before it, and either of them in ENDING, keeps the plan (R112; that the latch and the
reservation go there too is the model's reading, log 16). With DROP in the GAP before the Amen the walk ends
in ENDING, or at once in IDLE (R103, R112, R131); that the held pairs are released in a CUED gap too is the
model's reading (log 16). That ENDING keeps the section is its reading too (log 22). A fermata of the
introduction is treated as one of a verse, and one of the Amen as the Amen (log 15, 16). The gap record that says
which section follows is the model's own (log 24). -/
def Obligations.EndOfVerseCutsThePlan : Prop :=
  (∀ (dt a v : Nat) (tag : Byte) (pl : Plan) (s : State), LinkIdle s → a ≤ 1 →
      VerseToCut s.player → s.player.plan = some pl → VerseInHand pl v →
      let cut := cutTo v (pl.amen && a == 0) pl
      exec (.stopHymnEndOfVerse dt tag a) s = .next (replied (.stopHymn 0 a) tag .OK
        (u8 cut.entries.length ++ u8 (if cut.amen then 1 else 0))
        { elapse dt s with player :=
            { s.player with plan := some cut, goLatch := false, reservation := .NONE } }))
  ∧ (∀ (dt : Nat) (tag : Byte) (s : State), LinkIdle s →
      let inTheAmen := s.player.state = .AMEN ∨ (s.player.state = .FERMATA ∧ s.player.sec = some 13)
      let beforeIt := s.player.state = .GAP ∧ ∃ g, s.player.gap = some g ∧ g.next = 13
      (¬ HymnActive s → ∀ a, a ≤ 1 → exec (.stopHymnEndOfVerse dt tag a) s
          = .next (replied (.stopHymn 0 a) tag .WRONG_STATE [] (elapse dt s)))
      ∧ (inTheAmen → exec (.stopHymnEndOfVerse dt tag 1) s
          = .next (replied (.stopHymn 0 1) tag .TOO_LATE [] (elapse dt s)))
      ∧ ∀ a, ((a = 0 ∧ (inTheAmen ∨ beforeIt)) ∨ (a ≤ 1 ∧ s.player.state = .ENDING)) →
          ∃ fields, exec (.stopHymnEndOfVerse dt tag a) s
              = .next (replied (.stopHymn 0 a) tag .OK fields { elapse dt s with
                  player := { s.player with goLatch := false, reservation := .NONE } })
            ∧ ∀ pl, s.player.plan = some pl →
                fields = u8 pl.entries.length ++ u8 (if pl.amen then 1 else 0))
  ∧ DropBeforeTheAmenEndsTheWalk

/-- STOP_HYMN of mode NOW. With a key down every event is cancelled, each held key and voice gets a FIRM
key-up at now, the Player is STOPPING with nothing ahead, and the Follower is OFF (R113, R129). With no key
down the hymn has ended at once: the Player is IDLE with plan and last wait outcome kept, the slot READY and
the hymn STOPPED (R103). With no hymn active it is WRONG_STATE. That a NOW does not judge its Amen byte is
the model's reading (log 14). So is what the return to IDLE does beside the words of R82 and R103: the
Follower keeps its cursor, its previous used follow point and its last close (log 38), no section state stands
(log 22), and the Player's own records of the gap and of the ties are empty (log 24). That the silent voice
channels' transpositions are 0 at IDLE (log 60), and that a fermata release which still waits for places is
discarded (log 49), is the model's choice. -/
def Obligations.StopNowReleasesHeldKeys : Prop :=
  (∀ (dt a : Nat) (tag : Byte) (s : State), LinkIdle s → HymnActive s → anyDown s.map = true →
    ∃ t, exec (.stopHymnNow dt tag a) s = .next (replied (.stopHymn 1 a) tag .OK [] t)
      ∧ t.player.state = .STOPPING ∧ NothingAhead t.player ∧ t.player.wait = none
      ∧ t.player.fermata = none ∧ t.player.fence = .NONE ∧ t.player.goLatch = false
      ∧ t.player.reservation = .NONE ∧ t.player.plan = s.player.plan ∧ t.player.slot = s.player.slot
      ∧ t.follow.state = .OFF ∧ t.follow.window = none ∧ t.follow.anchor = s.follow.anchor
      ∧ t.follow.anchorTime = s.follow.anchorTime ∧ t.follow.period = s.follow.period
      ∧ t.listen.queue = [] ∧ t.map = s.map ∧ t.store = s.store
      ∧ (∀ x ∈ t.keys.events, x.kind = .UP ∧ x.firm = true ∧ x.basis = .fixed
          ∧ x.time = s.now + BitVec.ofNat 32 dt
          ∧ (x.voice, x.division, x.key) ∈ heldPairs s.map)
      ∧ ((heldPairs s.map).length ≤ 256 → ∀ p ∈ heldPairs s.map, hasUp t.keys p = true))
  ∧ (∀ (dt a n : Nat) (tag : Byte) (sl : Slot) (s : State), LinkIdle s → HymnActive s →
      anyDown s.map = false → s.player.slot = some n → slotRec s.store n = some sl →
      s.store.slots.wf none = true → 2 ≤ s.params.critical →
      ∃ st, exec (.stopHymnNow dt tag a) s = .next (replied (.stopHymn 1 a) tag .OK []
          { elapse dt s with
            player := { playerAfterReset with plan := s.player.plan, lastOutcome := s.player.lastOutcome },
            follow := { s.follow with state := .OFF, window := none, lost := false, matched := 0,
                                      missed := 0, rebased := false },
            listen := { s.listen with queue := [], backlog := false },
            keys := { s.keys with events := [] }, keyline := { s.keyline with watch := none }, store := st,
            flags := raiseFlags (s.now + BitVec.ofNat 32 dt) (.hymn .stopped n sl.header.number) s.flags })
        ∧ slotRec st n = some { sl with state := .READY }
        ∧ (∀ m, m ≠ n → slotRec st m = slotRec s.store m) ∧ st = { s.store with slots := st.slots })
  ∧ (∀ (dt a : Nat) (tag : Byte) (s : State), LinkIdle s → ¬ HymnActive s →
      exec (.stopHymnNow dt tag a) s
        = .next (replied (.stopHymn 1 a) tag .WRONG_STATE [] (elapse dt s)))

/-- ALL_OFF in every state: no key event, no key down, no onset, the leak tails from now, the Follower
OFF, the Player IDLE, and the Keyline in SWEEP unless it is OFF (R114, R130, R143, R161). -/
def Obligations.AllOffSilencesThePart : Prop :=
  ∀ (dt : Nat) (tag : Byte) (s : State), LinkIdle s → s.leak.wf noLeak = true →
    ∃ t, exec (.allOff dt tag) s = .next (replied .allOff tag .OK [] t)
      ∧ t.keys.events = [] ∧ anyDown t.map = false ∧ t.map.stops = s.map.stops
      ∧ t.map.expression = s.map.expression ∧ t.listen.queue = [] ∧ t.follow.state = .OFF
      ∧ t.player.state = .IDLE ∧ t.keyline.watch = none
      ∧ (s.keyline.state = .OFF → t.keyline.state = .OFF)
      ∧ (s.keyline.state ≠ .OFF → t.keyline.state = .SWEEP ∧ t.keyline.sweep = allGroups s.organ
          ∧ t.keyline.errors = 0 ∧ t.keyline.goods = 0 ∧ t.keyline.carry = [])
      ∧ (∀ c, c < 12 → (leakEntry t.leak c).held = 0
          ∧ (leakEntry t.leak c).tail = timePlus (s.now + BitVec.ofNat 32 dt) (largestTail s.organ)
          ∧ (leakEntry t.leak c).fresh = (leakEntry s.leak c).fresh)
      ∧ t.params = s.params ∧ t.organ = s.organ ∧ t.store.pool = s.store.pool

/-- RESERVE_PLAN: refused with no hymn to amend, TOO_LATE with every verse latched; otherwise HELD on
the lowest unlatched verse, whatever stood before (R93). That the reply carries the whole report of GET_PLAN
behind that verse is the model's reading (log 54), and the bytes of the reservation in it are its choice (log
58). -/
def Obligations.ReservePlanNamesTheFirstUnlatched : Prop :=
  ∀ (dt : Nat) (tag : Byte) (pl : Plan) (s : State), LinkIdle s → s.player.plan = some pl →
    (¬ HymnActive s → exec (.reservePlan dt tag) s
      = .next (replied .reservePlan tag .WRONG_STATE [] (elapse dt s)))
    ∧ (HymnActive s → (∀ e ∈ pl.entries, e.latched = true) → exec (.reservePlan dt tag) s
      = .next (replied .reservePlan tag .TOO_LATE [] (elapse dt s)))
    ∧ ∀ done e rest, HymnActive s → pl.entries = done ++ e :: rest → (∀ x ∈ done, x.latched = true) →
      e.latched = false →
      let p := { s.player with reservation := .HELD e.verse }
      exec (.reservePlan dt tag) s = .next (replied .reservePlan tag .OK (u8 e.verse ++ planReport p)
        { elapse dt s with player := p })

/-- AMEND_PLAN under a HELD reservation: an entry below the reserved verse is TOO_LATE and changes
nothing; a good amendment is applied whole and the reservation is NONE: the named entries are replaced,
every other entry up to the new verse count stays as it is, and only verses that the plan had no entry for get
the defaults; with no reservation, or a LOST
one, it is refused (R94). The presence byte before the verse in the reply to a LOST one is the model's
choice (log 10). -/
def Obligations.AmendPlanAppliesWhole : Prop :=
  ∀ (dt r : Nat) (f : AmendFields) (tag : Byte) (pl : Plan) (es : List PlanEntry) (n : Option Nat)
    (amen : Option Nat) (s : State), LinkIdle s → s.player.plan = some pl →
    asEntries f.entries = some es → asOptional f.verseCount = some n → asOptional f.amen = some amen →
    amendProblem f = none →
    let count := n.getD pl.entries.length
    (s.player.reservation = .NONE → exec (.amendPlan dt tag f) s
      = .next (replied (.amendPlan f) tag .NO_RESERVATION [] (elapse dt s)))
    ∧ (s.player.reservation = .LOST → exec (.amendPlan dt tag f) s = .next (replied (.amendPlan f) tag
        .TOO_LATE (opt u8 (firstUnlatched s.player)) (elapse dt s)))
    ∧ (s.player.reservation = .HELD r → (∃ e ∈ es, e.verse < r) → exec (.amendPlan dt tag f) s
      = .next (replied (.amendPlan f) tag .TOO_LATE (u8 r) (elapse dt s)))
    ∧ (s.player.reservation = .HELD r → (∀ e ∈ es, r ≤ e.verse ∧ e.verse ≤ count) →
      (∀ c, n = some c → r ≤ c + 1) → (amen = some 1 → tuneHasAmen s = true) →
      ∃ pl', exec (.amendPlan dt tag f) s = .next (replied (.amendPlan f) tag .OK (planBytes pl')
          { elapse dt s with player := { s.player with plan := some pl', reservation := .NONE } })
        ∧ pl'.entries.map (·.verse) = (List.range count).map (· + 1)
        ∧ (∀ e ∈ es, e ∈ pl'.entries)
        ∧ (∀ done e rest, pl.entries = done ++ e :: rest → (∀ x ∈ done, x.verse ≠ e.verse) →
            1 ≤ e.verse → e.verse ≤ count → (∀ x ∈ es, x.verse ≠ e.verse) → e ∈ pl'.entries)
        ∧ (∀ x ∈ pl'.entries, x ∉ es → x ∈ pl.entries
            ∨ ((∀ e ∈ pl.entries, e.verse ≠ x.verse)
                ∧ x = ⟨x.verse, .PLAY, none, pl.transposition, pl.gap, false, none⟩))
        ∧ pl'.amen = (match amen with
            | some x => x == 1
            | none => pl.amen)
        ∧ pl'.intro = pl.intro ∧ pl'.gap = pl.gap ∧ pl'.join = pl.join ∧ pl'.cued = pl.cued
        ∧ pl'.transposition = pl.transposition)

/-! ### Listening -/

/-- INPUT_LOST of a PRESENT channel: LOST without levels, the flag raised, the hop in progress abandoned
when that channel paced it (R39, R40). A sample is 16 bits of a word clock's low half, in two's complement
(R38); a band's level counts steps of 0.375 dB (R41). HOP_COMPLETE with no hymn active or no candidate
changes the Listening Unit alone: the channels' levels, the new hop's novelty and profile, the floor, the
refractory deadline and the candidate (R42 to R47). Where the pacing channel has not given 128 samples it
is no completion (R40; the model's choice, log 3), and the energies are free values (log 7). -/
def Obligations.ChannelsAreLostAndHeard : Prop :=
  (∀ (dt : Nat) (s : State), InService s →
      (s.listen.a.present = true → exec (.inputLost dt .A) s
        = .next (raise (.inputLost .A) { elapse dt s with listen := { s.listen with
            a := ⟨false, none⟩, hopBegan := s.now + BitVec.ofNat 32 dt } }))
      ∧ (s.listen.b.present = true → exec (.inputLost dt .B) s
        = .next (raise (.inputLost .B) { elapse dt s with listen := { s.listen with
            b := ⟨false, none⟩,
            hopBegan := if s.listen.a.present = true then s.listen.hopBegan
                        else s.now + BitVec.ofNat 32 dt } }))
      ∧ (∀ c, (channelState s.listen c).present = false →
          exec (.inputLost dt c) s = .next (elapse dt s)))
  ∧ (∀ (x : Bool) (rest high : List Bool), rest.length = 15 →
      sampleOf ⟨x :: rest, high⟩
        = ((List.range 15).map (fun i => if rest[i]? = some true then (2 : Int) ^ (14 - i) else 0)).sum
          - (if x = true then 32768 else 0))
  ∧ (∀ e : Nat, bandLevel e ≤ 255 ∧ ∀ n, 1 ≤ n → n ≤ 255 →
      (n ≤ bandLevel e ↔ Config.fullScaleEnergy ^ 80 ≤ 10 ^ (768 - 3 * n) * e ^ 80))
  ∧ (∀ (dt : Nat) (a b : HopInput) (s : State), InService s →
      (HopCompletes dt a b s.listen s.now → (s.player.state = .IDLE ∨ s.listen.candidate = none) →
        ∃ l, exec (.hopComplete dt a b) s = .next { elapse dt s with listen := l }
          ∧ HopMeasured (s.now + BitVec.ofNat 32 dt) a b s l)
      ∧ ((s.listen.a.present = true ∧ a.periods.length ≠ 128
            ∨ s.listen.a.present = false ∧ s.listen.b.present = true ∧ b.periods.length ≠ 128) →
          exec (.hopComplete dt a b) s = .next (elapse dt s)))

/-- R46: the candidate is declared an onset exactly when it reaches the floor and the effective margin, is no
lower than the hop before it and higher than the hop after it, and the refractory deadline is 0. R55: an onset
that joins a full queue removes the oldest record, reported by ONSET_OVERRUN; otherwise it joins at the newest
end; backlog is judged behind either, and ONSET_BACKLOG raised where the fill has come to the critical level
(R56). HOP_COMPLETE in every state of the Player: the onset's record, the filter, and the cued wait that an
onset ends or pulls earlier, with what acts at once behind it (R46 to R53, R55, R83, R98, R108, R109). The energies
from which the hop's levels and profile are found are free values (R41 to R43; log 7). The wait record's moment
and cause of a BREATH are the model's fields for what R109 asks (log 24). -/
def Obligations.OnsetsAreDeclaredAndQueued : Prop :=
  (∀ (p : Params) (l : Listen) (c : Hop) (next : Nat),
      declares p l c next = true ↔
        l.floor + (if l.backlog = true then 2 * p.margin else p.margin) ≤ c.novelty
          ∧ l.recent.2.1 ≤ c.novelty ∧ next < c.novelty ∧ l.refractory = 0)
  ∧ OnsetsJoin
  ∧ (∀ (o : Onset) (s : State), s.flags.raised.wf none = true →
      (s.listen.queue.length < 32 → (joinOnset o s).listen.queue = s.listen.queue ++ [o])
      ∧ (∀ old rest, s.listen.queue = old :: rest → 32 ≤ s.listen.queue.length →
          (joinOnset o s).listen.queue = rest ++ [o] ∧ flagUp (joinOnset o s).flags .ONSET_OVERRUN = true))
  ∧ DeclaredOnsetsAreHeard

/-- R51: the class of an onset by its leak share, the leak limit, and whether its dominant class is
fresh. -/
def Obligations.OnsetClassByShare : Prop :=
  ∀ (limit share : Nat) (fresh : Bool),
    (onsetClass limit fresh share = .LEAK ↔ fresh = true ∨ limit ≤ share)
    ∧ (onsetClass limit fresh share = .MIXED ↔ fresh = false ∧ share < limit ∧ limit / 2 ≤ share)
    ∧ (onsetClass limit fresh share = .CHOIR ↔ fresh = false ∧ share < limit ∧ share < limit / 2)

/-! ### The Beat Follower -/

/-- WINDOW_OPEN and WINDOW_CLOSE change the window's state (R67); LOST_TIME in COAST turns the lost
indication on and raises CHOIR_LOST, and under FINISH_VERSE ends the hymn with the verse in hand (R80,
R81, R112; log 15, 16, 22); a match window is placed from its follow point and the follow points beside it
(R64 to R68), with the previous used follow point before it held in it, the model's field (log 24); a rebase
outside OFF replaces the anchor and keeps the period, and in OFF is ignored (R83). -/
def Obligations.FollowerTimesAndRebase : Prop :=
  (∀ (dt : Nat) (m : MatchWindow) (s : State), InService s → s.follow.window = some m →
      (m.phase = .PENDING → m.opens = s.now + BitVec.ofNat 32 dt → exec (.windowOpen dt) s
        = .next { elapse dt s with follow := { s.follow with window := some { m with phase := .OPEN } } })
      ∧ (m.phase = .OPEN → m.closes = s.now + BitVec.ofNat 32 dt → exec (.windowClose dt) s
        = .next { elapse dt s with follow := { s.follow with window := some { m with phase := .DECIDING } } }))
  ∧ (∀ (dt : Nat) (s : State), InService s → s.follow.state = .COAST → s.follow.lost = false →
      s.params.finishVerse = false →
      timePlus s.follow.lastMatch s.params.lostAfter = s.now + BitVec.ofNat 32 dt →
      exec (.lostTime dt) s = .next (raise (.choirLost s.follow.lastMatch s.follow.anchor)
        { elapse dt s with follow := { s.follow with lost := true } }))
  ∧ LostTimeFinishesTheVerse
  ∧ WindowsArePlaced
  ∧ (∀ (t : Time) (p : HymnPos) (s : State),
      (s.follow.state = .OFF → rebase t p s = s)
      ∧ (s.follow.state ≠ .OFF →
        let f := (rebase t p s).follow
        f.anchorTime = t ∧ f.anchor = p ∧ f.period = s.follow.period ∧ f.rebased = true
          ∧ f.prevUsed = none ∧ f.cursor = p ∧ f.state = s.follow.state ∧ f.matched = s.follow.matched
          ∧ f.missed = s.follow.missed ∧ f.lastMatch = s.follow.lastMatch ∧ f.lost = s.follow.lost
          ∧ f.lastClose = s.follow.lastClose
          ∧ (∀ m, s.follow.window = some m → m.phase = .PENDING → f.window = none)
          ∧ (∀ m, s.follow.window = some m → m.phase ≠ .PENDING → f.window = some m)))

/-- R70 to R76, for the anchor, the period and the rebased indication. An on-time match in TRACK moves the
anchor to the follow point, by the phase shift from its predicted time (R71, R72), and takes the period
step, limited (R73), the period clamped to the tune's bounds (R74), or, with the rebased indication on, no
period step (R73). One in LEAD or COAST moves the anchor along the prediction (R75). A miss leaves the
anchor, the period and the rebased indication (R76), and so does a late decision that does not return from
COAST (R70). Every decision ends its window and leaves its record: outcome, onset, surplus, stale, error,
phase shift, period step, clamping and the state after (R86); that the period step of a miss and of a late
match is 0 in TRACK too is the model's reading (log 52). -/
def Obligations.DecisionsCorrectTheFollower : Prop :=
  (∀ (s : State) (m : MatchWindow) (o : Onset), s.follow.state = .TRACK →
      strongest (candidates m s.listen.queue) = some o → posBefore m.point s.follow.anchor = false →
      let g := (followAfterDecision s m).1
      g.anchor = m.point
        ∧ g.anchorTime = timePlus (predict s.follow m.point.pos) (shiftOf s.params m o)
        ∧ g.rebased = false
        ∧ (s.follow.rebased = true → g.period = s.follow.period)
        ∧ (s.follow.rebased = false → ∀ h, playingHeader s = some h → h.pmin ≤ h.pmax →
            (g.period : Int) = max (h.pmin : Int) (min (h.pmax : Int) ((s.follow.period : Int) + stepOf s m o))))
  ∧ (∀ (s : State) (m : MatchWindow) (o : Onset), (s.follow.state = .LEAD ∨ s.follow.state = .COAST) →
      strongest (candidates m s.listen.queue) = some o → posBefore m.point s.follow.anchor = false →
      let g := (followAfterDecision s m).1
      g.anchor = m.point ∧ g.anchorTime = predict s.follow m.point.pos ∧ g.period = s.follow.period
        ∧ (¬ (s.follow.state = .COAST ∧ g.state = .TRACK) → g.rebased = s.follow.rebased))
  ∧ (∀ (s : State) (m : MatchWindow),
      (strongest (candidates m s.listen.queue) = none ∨ posBefore m.point s.follow.anchor = true) →
      let g := (followAfterDecision s m).1
      g.anchor = s.follow.anchor ∧ g.anchorTime = s.follow.anchorTime ∧ g.period = s.follow.period
        ∧ (¬ (s.follow.state = .COAST ∧ g.state = .TRACK) → g.rebased = s.follow.rebased))
  ∧ (∀ (s : State) (m : MatchWindow),
      let g := (followAfterDecision s m).1
      g.window = none ∧ g.lastClose = some m.closes
        ∧ (∃ d, g.lastDecision = some d ∧ DecisionRecorded s m d)
        ∧ (∀ o, strongest (candidates m s.listen.queue) = some o → g.lastMatch = o.time)
        ∧ (strongest (candidates m s.listen.queue) = none → g.lastMatch = s.follow.lastMatch))

/-- R77: the counts of matches and misses after a decision, and the follow state that they give. -/
def Obligations.DecisionCountsAndStates : Prop :=
  ∀ (s : State) (m : MatchWindow),
    let g := (followAfterDecision s m).1
    let hit := (strongest (candidates m s.listen.queue)).isSome
    (hit = true → g.matched = min 255 (s.follow.matched + 1) ∧ g.missed = 0)
    ∧ (hit = false → g.missed = min 255 (s.follow.missed + 1) ∧ g.matched = 0)
    ∧ (s.follow.state = .OFF → g.state = .OFF)
    ∧ (s.follow.state = .LEAD → g.state
        = if hit = true ∧ s.params.lockCount ≤ g.matched then .TRACK else .LEAD)
    ∧ (s.follow.state = .TRACK → g.state
        = if hit = false ∧ s.params.missLimit ≤ g.missed then .COAST else .TRACK)
    ∧ (s.follow.state = .COAST → g.state
        = if hit = true ∧ s.params.lockCount ≤ g.matched then .TRACK else .COAST)
    ∧ (s.follow.state = .COAST → g.state = .TRACK → g.rebased = true ∧ g.lost = false)

/-- WINDOW_DECISION at its time, nothing ahead and the Follower not in COAST after it: the Follower is
that of the decision, the window and the onsets up to its close are gone, and the Player, the Sounding Map
and the Keyline stay (R69, R70). The matched onset is the strongest of the window, the earliest among
equals (R69). With steps ahead and none read ahead, the search for the next follow point follows the
decision (R65, R70). The search is made with the steps that stand before any leaves in the same event (R97); that
order of the look and the departures is the model's reading (log 20), and the previous used follow point that a
window made keeps is its own field (log 24). In every follow state: backlog is judged on the onsets left (R56), a
clamped period raises TEMPO_LIMIT (R74), a return from COAST that was lost raises CHOIR_FOUND (R78), and a
decision that leaves the Follower in COAST at or after the lost time turns the lost indication on, raises
CHOIR_LOST and, under FINISH_VERSE, ends the hymn with the verse in hand (R80, R81, R112; log 15, 16, 22). A
change of the anchor or the period is made known (R63): the events are retimed (R127), and what the event brings
with it comes behind; that it comes in this order is the model's reading (log 23). So are that the notices of
TEMPO_LIMIT and CHOIR_FOUND give the follow point as its hymn position alone (log 48), and that the record of a
miss and of a late match in TRACK has the period step 0 (R86; log 52). -/
def Obligations.DecisionTakesEffect : Prop :=
  (∀ (dt : Nat) (m : MatchWindow) (s : State), InService s → s.follow.window = some m →
      m.decides = s.now + BitVec.ofNat 32 dt → NothingAhead s.player →
      (followAfterDecision (elapse dt s) m).1.state ≠ .COAST →
      ∃ t, exec (.windowDecision dt) s = .next t
        ∧ t.follow = (followAfterDecision (elapse dt s) m).1 ∧ t.follow.window = none
        ∧ t.follow.lastClose = some m.closes
        ∧ t.listen.queue = s.listen.queue.filter (fun o => later o.time m.closes)
        ∧ t.player = s.player ∧ t.map = s.map ∧ t.keyline = s.keyline ∧ t.leak = s.leak
        ∧ t.store = s.store ∧ t.organ = s.organ ∧ t.params = s.params ∧ t.link = s.link
        ∧ t.keys.events.length = s.keys.events.length
        ∧ (changed s.follow t.follow = false → t.keys = s.keys))
  ∧ (∀ (m : MatchWindow) (q : List Onset),
      (∀ o, strongest (candidates m q) = some o →
        ∃ before after, q = before ++ o :: after ∧ inWindow m o = true
          ∧ (∀ x ∈ q, inWindow m x = true → x.strength ≤ o.strength)
          ∧ ∀ x ∈ before, inWindow m x = true → x.strength < o.strength)
      ∧ (strongest (candidates m q) = none ↔ ∀ x ∈ q, inWindow m x = false))
  ∧ (∀ (dt : Nat) (m : MatchWindow) (s : State), InService s → s.follow.window = some m →
      m.decides = s.now + BitVec.ofNat 32 dt → s.player.readAhead = none →
      let decided := { elapse dt s with follow := (followAfterDecision (elapse dt s) m).1 }
      decided.follow.state ≠ .COAST →
      (∀ m', (seekWindow decided).follow.window = some m' → later m'.decides decided.now = true) →
      ∃ t, exec (.windowDecision dt) s = .next t ∧ t.follow = (seekWindow decided).follow
        ∧ t.player = { s.player with window := t.player.window }
        ∧ (∀ w ∈ t.player.window, w ∈ s.player.window) ∧ t.map = s.map ∧ t.keyline = s.keyline)
  ∧ DecisionsAreTold

/-! ### The Hymn Player: events -/

/-- STEP_ENTRY when the read-ahead step enters (R96, R98): the walk has moved past it, and it stands in the
Lookahead Window with the fields it was read with while its sound time is later than now, where a match
window stands or the introduction is walked (otherwise a match window made late may be decided at once
and move the anchor, log 20). Each entry adds the step at the window's end and sets the fence. An event
lets every step enter that it admits before the Follower looks, once, and the departures come last, but for
those that make room for an entry (R65, R68, R97; that order of the departures is the model's reading, log
20). -/
def Obligations.StepEntryEntersTheWindow : Prop :=
  (∀ (dt : Nat) (r : ReadAhead) (s : State), InService s → entryDue (elapse dt s) = some r →
    ∃ t, exec (.stepEntry dt) s = .next t
      ∧ (∀ r', t.player.readAhead = some r' → r'.sec = r.sec ∧ r.index < r'.index)
      ∧ t.map = s.map ∧ t.leak = s.leak
      ∧ ((WindowStands s.follow
            ∨ (s.follow.window = none ∧ r.sec = 0 ∧ ∀ w ∈ s.player.window, w.sec = 0)) →
          r.sec = s.follow.anchor.sec → later (predict s.follow r.pos) (s.now + BitVec.ofNat 32 dt) = true →
          ∃ w ∈ t.player.window, stepFields w = aheadFields r))
  ∧ (∀ (r : ReadAhead) (s : State),
      (enterStep r s).player.window.map stepFields = s.player.window.map stepFields ++ [aheadFields r]
      ∧ (enterStep r s).player.fence
          = (if r.record.fermata ≠ none ∨ (enterStep r s).player.readAhead = none then .upTo ⟨r.sec, r.pos⟩
             else s.player.fence)
      ∧ (enterStep r s).follow = s.follow ∧ (enterStep r s).map = s.map)
  ∧ (∀ (dt : Nat) (s : State), InService s → (entryDue (elapse dt s)).isSome = true →
      exec (.stepEntry dt) s = .next (settle (elapse dt s)))
  ∧ EventLooksOnce

/-- STEP_SOUND_TIME with a match window placed and no entry due: the planned steps whose time has come
leave the Lookahead Window, a fermata step only once its key-ups are planned, and nothing else
changes (R97). The mark that says that they are planned is the model's own (log 24). -/
def Obligations.SoundedStepsLeave : Prop :=
  ∀ (dt : Nat) (m : MatchWindow) (s : State), InService s → s.follow.window = some m →
    let now := elapse dt s
    let stays (w : WindowStep) : Bool :=
      !(w.planned && (w.fermata.isNone || w.released) && soundArrived now w)
    let t := { now with player := { s.player with window := s.player.window.filter stays } }
    (∃ w ∈ s.player.window, stays w = false) → entryDue now = none → entryDue t = none →
    exec (.stepSoundTime dt) s = .next t

/-- FERMATA_SOUND_TIME of a CUED fermata: FERMATA is entered, the hold is found from the factor, the
duration and the period and kept to the cap, every down key's cipher deadline is renewed, and the
cued wait begins with the hold as its minimum (R104, R106, R107, R145). -/
def Obligations.CuedFermataBeginsItsWait : Prop :=
  ∀ (dt : Nat) (w : WindowStep) (f : Fermata) (s : State), InService s →
    fermataDue (elapse dt s) = some w → w.fermata = some f → f.kind = .CUED →
    let now := s.now + BitVec.ofNat 32 dt
    let hold : Int := min (roundDiv (f.factor * w.dur * s.follow.period : Nat) (4 * 19200)) s.params.fermataCap
    0 < hold → s.params.fermataCap ≤ 290000 →
    ∃ t, exec (.fermataSoundTime dt) s = .next t
      ∧ t.player.state = .FERMATA ∧ t.player.sec = s.player.sec
      ∧ (∃ r, t.player.fermata = some r ∧ r.step = w ∧ r.kind = .CUED ∧ r.sound = now ∧ r.hold = hold)
      ∧ (∃ x, t.player.wait = some x ∧ x.kind = .fermata ∧ x.phase = .MINIMUM
          ∧ x.minimumEnd = timePlus now hold)
      ∧ (∀ d k, (keyEntry t.map d k).holders = (keyEntry s.map d k).holders)
      ∧ (∀ d k, keyDown s.map d k = true →
          (keyEntry t.map d k).deadline = timePlus now s.params.cipherLimit)
      ∧ t.follow = s.follow ∧ t.keys = s.keys ∧ t.keyline = s.keyline ∧ t.listen = s.listen
      ∧ t.store = s.store ∧ t.flags = s.flags ∧ t.player.window = s.player.window
      ∧ t.player.fence = s.player.fence ∧ t.player.goLatch = s.player.goLatch

/-- How the pauses begin and end. FERMATA_SOUND_TIME of a TIMED fermata: FERMATA, the key-ups at the end
of the hold, the rebase behind the breath, and the fence lifted (R98, R104, R105). SECTION_END before a GAP: the
OMIT verses between are passed over, the next verse is latched, a HELD reservation that names one of them is LOST
with RESERVATION_LOST raised, and the gap begins, TIMED with its rebase, the fence lifted and the next section's
first step read, or CUED with its wait (R91, R92, R95, R96, R98, R101, R102); that the gap keeps the section that
ended, that the read-ahead step goes with it, and what the gap record holds are the model's readings (log 22, log
18, log 24). A gap of no length ends in the event that begins it: a TIMED one in the next section, where nothing
more is due, and a CUED one in WAITING or, with the Go latch set, void (R102, R107). FERMATA_REBASED_TIME, GAP_END
and BREATH_END, where nothing more is due: the Player is in its section state again, or in the next section's with
VERSE raised, and the record of the pause is emptied (R100, R102, R105, R109). MINIMUM_END in a CUED gap and in a
CUED fermata: WAITING with the Go latch clear, and BREATH, the latch cleared and the wait VOID, with it set, with
the rebase and the lifted fence of a GO, and a breath of 0 ending at once (R98, R106, R107, R108, R109). -/
def Obligations.PausesBeginAndEnd : Prop :=
  TimedFermataBegins ∧ SectionEndsInGap ∧ PausesReturn ∧ GapMinimumEnds ∧ FermataMinimumEnds

/-- SECTION_END of the last played section: ENDING, with no read-ahead step and without the section's
steps that are unplanned or wait for a release; the OMIT verses behind it are passed over, one that a HELD
reservation names making it LOST with RESERVATION_LOST raised; the key events stay (R92, R97, R101). While an
event waits or a key is down the Player stands in ENDING. With neither the hymn has ended at once: IDLE, with
plan and last wait outcome kept, the slot READY, the HYMN flag raised with the event ENDED, the Follower OFF
with its anchor and period kept, the Onset Queue empty and the settle watch none (R57, R82, R103, R157). That
the read-ahead step goes and that ENDING keeps the section are the model's readings (log 18, log 22). So is what
the return to IDLE does beside the words of R82 and R103: the Follower keeps its cursor, its previous used follow
point and its last close (log 38), no section state stands (log 22), and the Player's own records of the gap and
of the ties are empty (log 24); that the silent voice channels' transpositions are 0 there is its choice (log 60).
A section end that leads to a GAP is in `Obligations.PausesBeginAndEnd`. -/
def Obligations.LastSectionEndsInEnding : Prop :=
  ∀ (dt n : Nat) (pl : Plan) (s : State), InService s → s.player.sec = some n →
    sectionEndDue (elapse dt s) = true → s.player.wait = none → s.player.plan = some pl → PlanNumbered pl →
    (n = 13 ∨ (pl.amen = false ∧ ∀ e ∈ pl.entries, n < e.verse → e.mode = .OMIT)) →
    let now := s.now + BitVec.ofNat 32 dt
    let ended := overPassed 13 pl { elapse dt s with player := { s.player with
      state := .ENDING, readAhead := none,
      window := s.player.window.filter (fun w =>
        !(w.sec == n && (!w.planned || (w.fermata.isSome && !w.released)))) } }
    ((s.keys.events ≠ [] ∨ anyDown s.map = true) → exec (.sectionEnd dt) s = .next ended)
    ∧ (∀ m sl, s.keys.events = [] → anyDown s.map = false → s.player.slot = some m →
        slotRec s.store m = some sl → s.store.slots.wf none = true → 2 ≤ s.params.critical →
        ∃ st, exec (.sectionEnd dt) s = .next
            { elapse dt s with
              player := { playerAfterReset with
                plan := ended.player.plan, lastOutcome := s.player.lastOutcome },
              follow := { s.follow with state := .OFF, window := none, lost := false, matched := 0,
                                        missed := 0, rebased := false },
              listen := { s.listen with queue := [], backlog := false },
              keyline := { s.keyline with watch := none }, store := st,
              flags := raiseFlags now (.hymn .ended m sl.header.number) ended.flags }
          ∧ slotRec st m = some { sl with state := .READY }
          ∧ (∀ j, j ≠ m → slotRec st j = slotRec s.store j) ∧ st = { s.store with slots := st.slots })

/-- The latch of a verse: its entry is marked with the registration in force, which is the one that applies
or, where none applies, the one that stood; the voice channels take that registration's routing and the
entry's transposition, it is presented to the Stop Queue, and a reservation that names the verse is LOST
(R91). The passing over of the OMIT verses below a section marks their entries latched and nothing else, but
that a HELD reservation that names one of them is LOST and RESERVATION_LOST rises (R92). A registration presents the stop groups of the present divisions and the expression targets of the
enclosed ones, but those that it leaves UNCHANGED. Of what it presents, each target whose asked state differs
from the map has one entry with that state and no earlier than now, each that agrees has none, and every other
target's entries stay; a target in the queue keeps its place, and a new one joins at the newest end (R155);
the settle watch is set when a target is handed, and is none otherwise (R157). -/
def Obligations.LatchFixesTheVerse : Prop :=
  (∀ (sec v : Nat) (e : PlanEntry) (pl : Plan) (s : State),
      s.player.plan = some pl → planEntry s.player v = some e → s.flags.raised.wf none = true →
      let t := latch sec v s
      let inForce : Option (Nat × Registration) :=
        match applies s.organ e.registration e.verse with
        | some x => some x
        | none => s.player.registration
      t.player.registration = inForce
        ∧ (∀ i r, inForce = some (i, r) → t.keyline = (presentRegistration sec r s).keyline
          ∧ ∀ x, (voiceGet t.player.channels x).division = voiceGet r.routing x
            ∧ (voiceGet t.player.channels x).transposition = e.transposition)
        ∧ (inForce = none → t.keyline = s.keyline ∧ t.player.channels = s.player.channels)
        ∧ (∃ pl', t.player.plan = some pl' ∧ pl'.entries = pl.entries.map (fun x =>
            if x.verse = v then { x with latched := true, recorded := inForce.map (·.1) } else x))
        ∧ (s.player.reservation = .HELD v → t.player.reservation = .LOST
            ∧ flagUp t.flags .RESERVATION_LOST = true)
        ∧ (s.player.reservation ≠ .HELD v → t.player.reservation = s.player.reservation)
        ∧ t.keys = s.keys ∧ t.map = s.map ∧ t.follow = s.follow)
  ∧ (∀ (k : Nat) (pl : Plan) (s : State), s.player.plan = some pl → PlanNumbered pl →
      passOverBelow k s = overPassed k pl s)
  ∧ (∀ (sec : Nat) (r : Registration) (s : State),
      let k := (presentRegistration sec r s).keyline
      let q := k.stopQueue
      (∀ t v, Presents s.organ r t v →
        (v = targetState s.organ s.map t → ∀ e ∈ q, e.target ≠ t)
        ∧ (v ≠ targetState s.organ s.map t → k.watch = some ⟨sec, timePlus s.now s.params.stopSettle⟩
            ∧ (⟨t, v, s.now⟩ : StopEntry) ∈ q ∧ ∀ e ∈ q, e.target = t → e = ⟨t, v, s.now⟩))
      ∧ ((∀ t v, Presents s.organ r t v → v = targetState s.organ s.map t) → k.watch = none)
      ∧ k = { s.keyline with stopQueue := q, watch := k.watch }
      ∧ (∀ t, (∀ v, ¬ Presents s.organ r t v) →
          q.filter (fun e => e.target == t) = s.keyline.stopQueue.filter (fun e => e.target == t))
      ∧ ∃ kept new, q.map (·.target) = kept ++ new ∧ kept.Sublist (s.keyline.stopQueue.map (·.target))
          ∧ ∀ t ∈ new, ∀ e ∈ s.keyline.stopQueue, e.target ≠ t)

/-! ### The Key Scheduler -/

/-- R119: a key pitch folds to a key of the compass in the same pitch class, by the fewest octaves; it
is dropped exactly when no key of the compass has its pitch class. -/
def Obligations.FoldTakesTheFewestOctaves : Prop :=
  ∀ (lowest count : Nat) (p : Int), 0 < count →
    (∀ k, foldPitch lowest count p = some k →
      k < count ∧ ((lowest : Int) + k - p) % 12 = 0
        ∧ ∀ j : Nat, j < count → ((lowest : Int) + j - p) % 12 = 0 →
            ((lowest : Int) + k - p).natAbs ≤ ((lowest : Int) + j - p).natAbs)
    ∧ (foldPitch lowest count p = none ↔
        ∀ j : Nat, j < count → ((lowest : Int) + j - p) % 12 ≠ 0)

/-- R125: a firming pass sets the boundary to now and the firm lead and firms exactly the PROVISIONAL
events at or before it, those already past at now; FIRM events keep their times and stand first. R127: a
change of anchor or period retimes every PROVISIONAL event of basis POSITION and no other, and a firming
pass follows. Where the key times lie within 2^30 units of now, the insertion numbers within 2^30 of the
counter and no FIRM event behind the boundary, the whole schedule is then in schedule order, the key time
of every FIRM event no later than that of any PROVISIONAL one (R116). -/
def Obligations.FirmingAndRetiming : Prop :=
  (∀ (now : Time) (lead : Nat) (k : Schedule),
      let t := firmPass now lead k
      t.boundary = timePlus now lead ∧ t.counter = k.counter ∧ FirmFirst t.events
        ∧ t.events.Perm (k.events.map (firmed now (timePlus now lead))))
  ∧ (∀ s : State, (retime s).keys.events.Perm
        (s.keys.events.map (fun e => firmed s.now (timePlus s.now s.params.firmLead)
          (retimed s.follow s.organ e)))
      ∧ (retime s).follow = s.follow ∧ (retime s).player = s.player)
  ∧ (∀ (now : Time) (lead : Nat) (k : Schedule), lead ≤ 1000 →
      (∀ e ∈ k.events, (-1073741824 < timeDiff e.time now ∧ timeDiff e.time now < 1073741824)
        ∧ -1073741824 < (e.number - k.counter).toInt ∧ (e.number - k.counter).toInt ≤ 0
        ∧ (e.firm = true → later e.time (timePlus now lead) = false)) →
      (firmPass now lead k).events.Pairwise MayFollow)

/-- R117: a planning is all or none. When the places suffice, every event is placed; otherwise none is,
and SCHEDULE_FULL is raised with the places needed and the free places. R118 to R124: the events that a
step's planning makes, note by note: DOWN or RENEW, the UP at its release position, ties, the strike rule
between an UP and the next DOWN of its key, and the extension over a faulty run, known at the planning or
found later. The asked events are placed one after the other, each with the next insertion number (R115), and
the firming pass follows (R125); the planned step is marked (R97). The step's tie and release marks are the
model's fields (log 24). That the events of a later extension take their insertion numbers in the schedule's
order of the cancelled UPs, and that in either way of an extension the UP takes its number before its RENEW, is
its choice (log 53). That the UPs of a fermata whose release is decided before its step is planned take theirs in
the written order of the notes, each right behind its own note's DOWN or RENEW, is the model's reading (R104,
R123; log 55). -/
def Obligations.PlanningIsAllOrNone : Prop :=
  (∀ (s : State) (sec step : Nat) (d : List Draft),
    (d.length ≤ 256 - s.keys.events.length →
      (placeOrRefuse s sec step d).2 = true
        ∧ (placeOrRefuse s sec step d).1.keys.events.length = s.keys.events.length + d.length
        ∧ (placeOrRefuse s sec step d).1.flags = s.flags)
    ∧ (256 - s.keys.events.length < d.length →
      placeOrRefuse s sec step d
        = (raise (.scheduleFull sec step d.length (256 - s.keys.events.length)) s, false)))
  ∧ PlanningMakesTheStepsEvents ∧ ExtensionReplacesTheUps


/-! ### Sounding Map, Leak Mask and Keyline -/

/-- R134, R135, R140, R141: what a DOWN, an UP and a RENEW of voice `v`, taken at `f`, do to a key
entry and to the Leak Mask; no other key and no other class changes. -/
def Obligations.TakenEventsChangeTheMap : Prop :=
  ∀ (f : Time) (v : Voice) (d : Division) (k : Nat) (s : State), k < 64 →
    s.map.keys.wf noKey = true → s.leak.wf noLeak = true →
    let e := keyEntry s.map d k
    let r := divRec s.organ d
    let c := keyClass s.organ d k
    let m := leakEntry s.leak c
    let struck := takeDown f v d k s
    let released := takeUp f v d k s
    let renewed := takeRenew f v d k s
    ((∀ w, w ∈ (keyEntry struck.map d k).holders ↔ w = v ∨ w ∈ e.holders)
      ∧ (keyEntry struck.map d k).deadline = timePlus f s.params.cipherLimit
      ∧ OtherKeysStay s.map struck.map d k
      ∧ (e.holders ≠ [] ∨ r.leakTracking = false → struck.leak = s.leak)
      ∧ (e.holders = [] → r.leakTracking = true →
          leakEntry struck.leak c
            = ⟨m.held + 1, m.tail, laterDeadline f m.fresh (timePlus f (r.acoustic + 500))⟩
          ∧ ∀ c', c' ≠ c → leakEntry struck.leak c' = leakEntry s.leak c'))
    ∧ (v ∉ e.holders → released = s ∧ renewed = s)
    ∧ (v ∈ e.holders →
      (∀ w, w ∈ (keyEntry released.map d k).holders ↔ w ≠ v ∧ w ∈ e.holders)
      ∧ (keyEntry released.map d k).deadline = e.deadline ∧ OtherKeysStay s.map released.map d k
      ∧ ((∃ w ∈ e.holders, w ≠ v) ∨ r.leakTracking = false → released.leak = s.leak)
      ∧ ((∀ w ∈ e.holders, w = v) → r.leakTracking = true →
          leakEntry released.leak c
            = ⟨m.held - 1, if m.held = 1 then laterDeadline f m.tail (timePlus f r.leakTail) else m.tail,
               m.fresh⟩
          ∧ ∀ c', c' ≠ c → leakEntry released.leak c' = leakEntry s.leak c')
      ∧ keyEntry renewed.map d k = { e with deadline := timePlus f s.params.cipherLimit }
      ∧ OtherKeysStay s.map renewed.map d k ∧ renewed.leak = s.leak)

/-- R144: at a composition every key that is down with its deadline at or before `f` goes up, every
other key stays as it is, and CIPHER is up when a key was released; with none due nothing changes. -/
def Obligations.CipherGuardReleasesDueKeys : Prop :=
  ∀ (f : Time) (s : State), s.map.keys.wf noKey = true → keysInRange s.map = true →
    s.flags.raised.wf none = true →
    let t := (composeReleases f s).state
    (∀ d k, k < 64 → keyEntry t.map d k
        = if timeDiff (keyEntry s.map d k).deadline f ≤ 0 then { keyEntry s.map d k with holders := [] }
          else keyEntry s.map d k)
    ∧ ((∃ d k, k < 64 ∧ keyDown s.map d k = true ∧ timeDiff (keyEntry s.map d k).deadline f ≤ 0) →
        flagUp t.flags .CIPHER = true)
    ∧ ((∀ d k, k < 64 → keyDown s.map d k = true → 0 < timeDiff (keyEntry s.map d k).deadline f) → t = s)
    ∧ t.keys = s.keys ∧ t.keyline = s.keyline ∧ t.map.stops = s.map.stops
    ∧ t.map.expression = s.map.expression

/-- ECHO_RECEIVED (R150): a record whose length, start code or check is wrong, and any record in OFF or
with no echo awaited, only lets time pass; a good record is held when none is held, or when it is the
first for the awaited frame; otherwise it is discarded. The judgement of an awaited echo gives the
outcome, the counts and the Keyline state, and changes nothing else but a flag: entering FAULT, from RUNNING or
at a sweep's end, raises KEYLINE_FAULT with the frame number judged, its outcome and the last board count;
leaving FAULT for RUNNING, and a sweep's end in RUNNING whose origin is FAULT, raises KEYLINE_RESTORED with the
number and the board count (R150, R151, R160). That a board count above 31 is held as received is the
model's reading (log 25). -/
def Obligations.EchoesAreHeldAndJudged : Prop :=
  (∀ (dt : Nat) (s : State), InService s →
      (∀ bs, (bs.length ≠ 6 ∨ bs.head? ≠ some 0x5B#8 ∨ bs.drop 4 ≠ checkBytes ((bs.drop 1).take 3)
          ∨ s.keyline.state = .OFF ∨ s.keyline.awaited = none) →
        exec (.echoReceived dt bs) s = .next (elapse dt s))
      ∧ ∀ (number result boards : Byte) (n : Nat), s.keyline.state ≠ .OFF → s.keyline.awaited = some n →
        let record : List Byte := 0x5B#8 :: [number, result, boards] ++ checkBytes [number, result, boards]
        ((s.keyline.heldEcho = none
            ∨ ∃ h, s.keyline.heldEcho = some h ∧ number.toNat = n ∧ h.number ≠ n) →
          exec (.echoReceived dt record) s = .next { elapse dt s with
            keyline := { s.keyline with
              heldEcho := some ⟨number.toNat, result == 0#8, boards.toNat⟩ } })
        ∧ (∀ h, s.keyline.heldEcho = some h → (h.number = n ∨ number.toNat ≠ n) →
          exec (.echoReceived dt record) s = .next (elapse dt s)))
  ∧ (∀ (n : Nat) (s : State), s.keyline.awaited = some n →
      let k := s.keyline
      let x := outcomeOf n k.heldEcho
      let u := judgeEcho s
      let t := u.keyline
      let raised (y : Kind) : Flags := raiseFlags s.now y s.flags
      let bad := if x = .GOOD then 0 else min 255 (k.errors + 1)
      let good := if x = .GOOD then min 255 (k.goods + 1) else 0
      t.lastOutcome = some x
        ∧ (∀ e, k.heldEcho = some e → t.lastBoards = some e.boards)
        ∧ (k.heldEcho = none → t.lastBoards = k.lastBoards)
        ∧ (k.state = .OFF → t.state = .OFF)
        ∧ (k.state = .RUNNING → t.state
            = if x ≠ .GOOD ∧ s.params.echoLimit ≤ bad then .FAULT else .RUNNING)
        ∧ (k.state = .FAULT → t.state
            = if x = .GOOD ∧ s.params.recoverCount ≤ good then .RUNNING else .FAULT)
        ∧ (k.state = .SWEEP → k.sweep ≠ [] → t.state = .SWEEP)
        ∧ (k.state = .SWEEP → k.sweep = [] → t.state
            = if s.params.echoLimit ≤ bad then .FAULT else .RUNNING)
        ∧ (k.state ≠ .FAULT → t.state = .FAULT → t.errors = bad ∧ t.goods = 0 ∧ t.carry = []
            ∧ u.flags = raised (.keylineFault n x t.lastBoards))
        ∧ (k.state = .FAULT → t.state = .RUNNING → t.errors = 0 ∧ t.goods = good ∧ t.carry = k.carry
            ∧ u.flags = raised (.keylineRestored n t.lastBoards))
        ∧ (k.state = .SWEEP → t.state = .RUNNING → t.errors = bad ∧ t.goods = good ∧ t.carry = k.carry
            ∧ u.flags = if k.originFault = true then raised (.keylineRestored n t.lastBoards) else s.flags)
        ∧ (k.state = t.state → t.errors = bad ∧ t.goods = good ∧ t.carry = k.carry ∧ u.flags = s.flags)
        ∧ t = { k with state := t.state, errors := t.errors, goods := t.goods, carry := t.carry,
                       lastOutcome := t.lastOutcome, lastBoards := t.lastBoards }
        ∧ u = { s with keyline := t, flags := u.flags })

/-- What a composition takes (R126, R136, R138, R152 to R160). RUNNING: the cipher releases and the
groups owed a slot, then the due FIRM events one by one, each taken, held back or slipped, then the due
Stop Queue entries as far as slots remain, and one refresh slot; FAULT: everything due, with refresh
slots alone; SWEEP: nothing of the map, with sweep slots. The settle watch is judged at the DOWNs taken
(R157). That the slip count is held at 255, and stays as it was in SWEEP, is the model's reading (log
28). -/
def Obligations.CompositionTakesDueEvents : Prop :=
  RunningComposition ∧ FaultComposition ∧ SweepComposition ∧ WatchJudged

/-- FRAME_START at its time: the pending interval comes into force, the next start is set, one frame of at most
sixteen slots is sent with the current number, and its echo is awaited (R148, R149, R152, R159, R160, R163); the
firm boundary is one firm lead from now (R126), and the parameters, the divisions and the link stay. The awaited
echo is judged first (R150); the frame's bytes, the map, the mask and the Keyline after it are those of the
composition (R152), and so is the rest of the part where no freed place is waited for (R117); the slots carry
the states of the map (R163). The frame that sends the last key-up of a hymn brings the return to IDLE (R103):
the Follower OFF with its counts and its rebased indication at their reset values (R82), the Onset Queue empty
and backlog off (R57), and the settle watch none (R157). That a start taken late acts at the moment it is taken,
and the next lies one interval from there, is the model's reading (log 27). So is that a frame start with no
echo awaited ends no sweep (log 18), and what the composition holds as its slip count (log 28). So is what the
return to IDLE does beside the words of R82 and R103: the cursor, the previous used follow point and the last
close stay (log 38), no section state stands (log 22), and the Player's own records are empty (log 24); that the
silent voice channels' transpositions are 0 there is its choice (log 60). -/
def Obligations.FrameStartSendsOneFrame : Prop :=
  (∀ (dt : Nat) (s : State), InService s → frameDue (elapse dt s) = true →
      let interval := s.keyline.pendingInterval.getD s.keyline.interval
      ∃ t, exec (.frameStart dt) s = .next t
        ∧ t.keyline.interval = interval ∧ t.keyline.pendingInterval = none
        ∧ t.keyline.nextStart = some (timePlus (s.now + BitVec.ofNat 32 dt) interval)
        ∧ t.keyline.awaited = some s.keyline.frameNumber ∧ t.keyline.heldEcho = none
        ∧ t.keyline.frameNumber = (s.keyline.frameNumber + 1) % 256
        ∧ (∃ n slots, n ≤ 16 ∧ slots.length = 3 * n ∧ t.keyline.lastFrame
            = 0xA6#8 :: (u8 s.keyline.frameNumber ++ u8 n ++ slots)
              ++ checkBytes (u8 s.keyline.frameNumber ++ u8 n ++ slots))
        ∧ t.params = s.params ∧ t.organ = s.organ ∧ t.link = s.link ∧ t.store.pool = s.store.pool
        ∧ t.keys.boundary = timePlus (s.now + BitVec.ofNat 32 dt) s.params.firmLead)
  ∧ FrameStartSendsTheComposition ∧ LastFrameEndsTheHymn ∧ SlotStatesOfTheMap

/-! ### Invariants -/

/-- R6: every step keeps the pool divided among the free runs and the slots' extents, the free runs
maximal, and the part's tables in canonical form. -/
def Obligations.StoreStaysSound : Prop :=
  ∀ s t : State, StoreSound s → step s = .next t → StoreSound t

/-- R54, R116, R168, R176: every step keeps the queues within their places, and the Key Schedule in its
order: FIRM events before PROVISIONAL ones, each class in schedule order, the PROVISIONAL ones behind the
firm boundary. -/
def Obligations.QueuesStayWithinCapacity : Prop :=
  ∀ s t : State, (withinCapacity s = true → step s = .next t → withinCapacity t = true)
    ∧ (ScheduleInOrder s.keys → step s = .next t → ScheduleInOrder t.keys)

/-- R84, R87, R93: every step keeps the Player's wait and fermata records to the states they belong
to, the Follower OFF exactly in IDLE and STOPPING, a HELD reservation on an unlatched verse, and the verses of
the plan numbered from 1 (R89, R94). -/
def Obligations.PlayerRecordsStayBound : Prop :=
  ∀ s t : State, (PlayerBound s → step s = .next t → PlayerBound t)
    ∧ (ReservationOpen s → step s = .next t → ReservationOpen t)
    ∧ (PlanSound s → step s = .next t → PlanSound t)

/-- R139: every step keeps the Leak Mask in agreement with the Sounding Map, and no key is down in an
OFF Keyline. What this rests on is kept with it, the keys of waiting release requests, a list of the model's
own (log 24), among it. -/
def Obligations.MaskKeepsAgreeing : Prop :=
  ∀ s t : State, MaskAgrees s → step s = .next t → MaskAgrees t

/-- The state after a full reset has every property that the steps keep. -/
def Obligations.ResetIsSound : Prop :=
  StoreSound State.reset ∧ withinCapacity State.reset = true ∧ PlayerBound State.reset
    ∧ ReservationOpen State.reset ∧ PlanSound State.reset ∧ MaskAgrees State.reset ∧ ScheduleInOrder State.reset.keys
end

