-- ==== Sys2Proof/Laws/Frames.lean ====
section
/-! SUPPORT. What the shared operations leave alone, said once per operation: `Frame` for everything
the Player and the Follower do, `Still` for what brings no latch, no walk and no cued wait. -/

namespace Sys2Proof.Laws

open Sys2Proof.Machine

/-- What no event of the Player, the Follower or the Listening Unit changes. -/
structure Frame (s t : State) : Prop where
  pending : t.pending = s.pending
  now : t.now = s.now
  held : t.heldInReset = s.heldInReset
  link : t.link = s.link
  params : t.params = s.params
  organ : t.organ = s.organ
  leak : t.leak = s.leak

/-- Beside the frame: the Sounding Map, the Keyline Controller but for its settle watch, and the
Listening Unit but for its queue and backlog. -/
structure Still (s t : State) : Prop where
  frame : Frame s t
  map : t.map = s.map
  keyline : { t.keyline with watch := none } = { s.keyline with watch := none }
  listen : { t.listen with queue := [], backlog := false } = { s.listen with queue := [], backlog := false }

theorem Frame.refl (s : State) : Frame s s := ⟨rfl, rfl, rfl, rfl, rfl, rfl, rfl⟩

theorem Frame.trans {s t u : State} (a : Frame s t) (b : Frame t u) : Frame s u :=
  ⟨b.pending.trans a.pending, b.now.trans a.now, b.held.trans a.held, b.link.trans a.link,
    b.params.trans a.params, b.organ.trans a.organ, b.leak.trans a.leak⟩

theorem Still.refl (s : State) : Still s s := ⟨Frame.refl s, rfl, rfl, rfl⟩

theorem Still.trans {s t u : State} (a : Still s t) (b : Still t u) : Still s u :=
  ⟨a.frame.trans b.frame, b.map.trans a.map, b.keyline.trans a.keyline, b.listen.trans a.listen⟩

variable (s : State)

/-! ### Updates of one block -/

theorem still_player (p : Player) : Still s { s with player := p } := ⟨⟨rfl, rfl, rfl, rfl, rfl, rfl, rfl⟩, rfl, rfl, rfl⟩
theorem still_follow (f : Follow) : Still s { s with follow := f } := ⟨⟨rfl, rfl, rfl, rfl, rfl, rfl, rfl⟩, rfl, rfl, rfl⟩
theorem still_keys (k : Schedule) : Still s { s with keys := k } := ⟨⟨rfl, rfl, rfl, rfl, rfl, rfl, rfl⟩, rfl, rfl, rfl⟩
theorem still_store (st : Store) : Still s { s with store := st } := ⟨⟨rfl, rfl, rfl, rfl, rfl, rfl, rfl⟩, rfl, rfl, rfl⟩
theorem still_raise (k : Kind) : Still s (raise k s) := ⟨⟨rfl, rfl, rfl, rfl, rfl, rfl, rfl⟩, rfl, rfl, rfl⟩

/-! ### The Lookahead Window -/

theorem still_noteFault (n i : Nat) (r : Reader) : Still s (noteFault n i r s) :=
  (still_store s _).trans (still_raise _ _)

theorem still_readGood (n : Nat) (sl : Slot) :
    ∀ (left i : Nat) (run : Bool) (s : State), Still s (readGood n sl left i run s).1
  | 0, _, _, s => Still.refl s
  | left + 1, i, run, s => by
    unfold readGood
    split
    · exact Still.refl s
    · exact (still_noteFault s n i .player).trans (still_readGood n sl left _ _ _)

theorem still_readAheadFrom (sec i : Nat) : Still s (readAheadFrom sec i s).1 := by
  unfold readAheadFrom
  split
  · exact still_player s _
  · exact (still_readGood _ _ _ _ _ s).trans (still_player _ _)

theorem still_beginWalk (sec : Nat) : Still s (beginWalk sec s) := by
  unfold beginWalk
  split
  · exact still_readAheadFrom s _ _
  · exact Still.refl s

theorem still_placeOrRefuse (sec step : Nat) (d : List Draft) : Still s (placeOrRefuse s sec step d).1 := by
  unfold placeOrRefuse
  split
  · exact still_keys s _
  · exact still_raise s _

theorem still_handStep (w : WindowStep) : Still s (handStep w s).1 := by
  unfold handStep
  dsimp only
  split
  · exact (still_placeOrRefuse s _ _ _).trans (still_player _ _)
  · exact still_placeOrRefuse s _ _ _

theorem still_planSteps : ∀ (n : Nat) (s : State), Still s (planSteps n s)
  | 0, s => Still.refl s
  | n + 1, s => by
    unfold planSteps
    split
    · exact Still.refl s
    · dsimp only
      split
      · exact (still_handStep s _).trans (still_planSteps n _)
      · exact still_handStep s _

theorem still_handIfFirst (sec i : Nat) : Still s (handIfFirst sec i s) := by
  unfold handIfFirst
  split
  · split
    · exact still_handStep s _
    · exact Still.refl s
  · exact Still.refl s

theorem still_extendStep (w : WindowStep) (e : Nat) : Still s (extendStep w e s) := by
  unfold extendStep
  dsimp only
  split
  · split
    · exact Still.refl s
    · exact (still_keys s _).trans (still_keys _ _)
  · exact still_raise s _

theorem still_attachSuccessor (sec i : Nat) (run : Bool) : Still s (attachSuccessor sec i run s) := by
  unfold attachSuccessor
  dsimp only
  split
  · split
    · exact (still_player s _).trans (still_extendStep _ _ _)
    · exact still_player s _
  · exact still_player s _

theorem still_enterStep (r : ReadAhead) : Still s (enterStep r s) := by
  unfold enterStep
  exact ((((still_player s _).trans (still_readAheadFrom _ _ _)).trans (still_attachSuccessor _ _ _ _)).trans
    (still_player _ _)).trans (still_handIfFirst _ _ _)

theorem still_enterDueSteps : ∀ (n : Nat) (s : State), Still s (enterDueSteps n s).1
  | 0, s => Still.refl s
  | n + 1, s => by
    unfold enterDueSteps
    split
    · exact (still_enterStep s _).trans (still_enterDueSteps n _)
    · exact Still.refl s

theorem still_leaveWindow : Still s (leaveWindow s) := still_player s _

theorem still_leaveFirst : Still s (leaveFirst s) := still_player s _

theorem still_admitSteps : ∀ (n : Nat) (s : State), Still s (admitSteps n s).1
  | 0, s => Still.refl s
  | n + 1, s => by
    have entered := still_enterDueSteps (Config.windowPlaces + 1) s
    unfold admitSteps
    dsimp only
    split
    · exact (entered.trans (still_leaveFirst _)).trans (still_admitSteps n _)
    · exact entered

theorem still_releaseHeld (sec : Nat) : Still s (releaseHeld sec s) := still_keys s _

theorem still_handRelease (q : ReleaseRequest) : Still s (handRelease q s).1 := by
  unfold handRelease
  dsimp only
  split
  · exact (still_placeOrRefuse s _ _ _).trans (still_player _ _)
  · exact still_placeOrRefuse s _ _ _

theorem still_handReleases : ∀ (qs : List ReleaseRequest) (s : State), Still s (handReleases qs s).1
  | [], s => Still.refl s
  | q :: rest, s => by
    unfold handReleases
    dsimp only
    split
    · exact (still_handRelease s q).trans (still_handReleases rest _)
    · exact still_handRelease s q

theorem still_placesFreed : Still s (placesFreed s) := by
  have released : ∀ u, Still s u →
      Still s { (handReleases u.player.releases u).1 with player :=
        { (handReleases u.player.releases u).1.player with
          releases := (handReleases u.player.releases u).2 } } :=
    fun u h => (h.trans (still_handReleases _ u)).trans (still_player _ _)
  unfold placesFreed
  dsimp only
  split <;> split
  · exact (released _ (still_releaseHeld s _)).trans (still_planSteps _ _)
  · exact released _ (still_releaseHeld s _)
  · exact (released _ (Still.refl s)).trans (still_planSteps _ _)
  · exact released _ (Still.refl s)

theorem still_decideRelease (w : WindowStep) (t : Time) : Still s (decideRelease w t s) := by
  unfold decideRelease
  dsimp only
  split
  · exact still_player s _
  · split
    · split
      · exact (still_player s _).trans (still_handRelease _ _)
      · exact ((still_player s _).trans (still_handRelease _ _)).trans (still_player _ _)
    · exact (still_player s _).trans (still_handIfFirst _ _ _)

/-! ### The Onset Queue and the end of a hymn -/

theorem still_setOnsets (q : List Onset) : Still s (setOnsets q s) := by
  unfold setOnsets judgeBacklog
  dsimp only
  split
  · exact ⟨⟨rfl, rfl, rfl, rfl, rfl, rfl, rfl⟩, rfl, rfl, rfl⟩
  · split
    · exact ⟨⟨rfl, rfl, rfl, rfl, rfl, rfl, rfl⟩, rfl, rfl, rfl⟩
    · exact ⟨⟨rfl, rfl, rfl, rfl, rfl, rfl, rfl⟩, rfl, rfl, rfl⟩

theorem still_emptyOnsets : Still s (emptyOnsets s) := still_setOnsets s []

theorem still_becomeIdle : Still s (becomeIdle s) := by
  unfold becomeIdle
  refine Still.trans ?_ (still_emptyOnsets _)
  refine Still.trans ?_ (still_raise _ _)
  exact ⟨⟨rfl, rfl, rfl, rfl, rfl, rfl, rfl⟩, rfl, rfl, rfl⟩

theorem still_idleIfDone : Still s (idleIfDone s) := by
  unfold idleIfDone
  split
  · exact still_becomeIdle s
  · exact Still.refl s

theorem still_stopNow : Still s (stopNow s) := by
  unfold stopNow
  refine Still.trans ?_ (still_emptyOnsets _)
  exact ⟨⟨rfl, rfl, rfl, rfl, rfl, rfl, rfl⟩, rfl, rfl, rfl⟩

theorem still_dropAmen : Still s (dropAmen s) := by
  unfold dropAmen
  refine Still.trans ?_ (still_placesFreed _)
  exact ⟨⟨rfl, rfl, rfl, rfl, rfl, rfl, rfl⟩, rfl, rfl, rfl⟩

theorem still_endOfVerse (drop : Bool) (t : State) (h : endOfVerse drop s = some t) : Still s t := by
  unfold endOfVerse at h
  dsimp only at h
  repeat' split at h
  all_goals cases h
  all_goals first
    | exact still_player s _
    | exact ((still_player s _).trans (still_dropAmen _)).trans (still_idleIfDone _)

theorem still_finishVerse : Still s (finishVerse s) := by
  unfold finishVerse
  split
  · exact Still.refl s
  · cases h : endOfVerse true s with
    | none => exact Still.refl s
    | some t => exact still_endOfVerse s true t h

/-! ### The Follower -/

theorem still_retime : Still s (retime s) := still_keys s _

theorem still_seek : ∀ (n : Nat) (s : State), Still s (seek n s)
  | 0, s => Still.refl s
  | n + 1, s => by
    unfold seek
    split
    · exact Still.refl s
    · split
      · exact Still.refl s
      · dsimp only
        split
        · exact (still_follow s _).trans (still_seek n _)
        · exact still_follow s _

theorem still_seekWindow : Still s (seekWindow s) := still_seek _ s

theorem still_recompute : Still s (recompute s) := by
  unfold recompute
  split
  · exact Still.refl s
  · split
    · exact Still.refl s
    · split
      · exact still_follow s _
      · exact (still_follow s _).trans (still_seekWindow _)

theorem still_lookForWindow (again : Bool) : Still s (lookForWindow again s).1 := by
  unfold lookForWindow
  split
  · exact still_seekWindow s
  · split
    · exact still_recompute s
    · exact Still.refl s

theorem still_loseChoir : Still s (loseChoir s) := by
  unfold loseChoir
  dsimp only
  split
  · exact ((still_follow s _).trans (still_raise _ _)).trans (still_finishVerse _)
  · exact (still_follow s _).trans (still_raise _ _)

theorem still_checkLost : Still s (checkLost s) := by
  unfold checkLost
  split
  · exact still_loseChoir s
  · exact Still.refl s

theorem still_decisionFlags (m : MatchWindow) (hit : Option Onset) (c : Correction) (found : Bool) :
    Still s (decisionFlags m hit c found s) := by
  unfold decisionFlags
  dsimp only
  cases c.bound <;> cases hit <;> cases found
  all_goals first
    | exact Still.refl s
    | exact still_raise s _
    | exact (still_raise s _).trans (still_raise _ _)

theorem still_decideWindow (m : MatchWindow) : Still s (decideWindow m s).1 := by
  unfold decideWindow
  exact (((still_follow s _).trans (still_setOnsets _ _)).trans (still_decisionFlags _ _ _ _ _)).trans
    (still_checkLost _)

theorem still_progress : ∀ (n : Nat) (s : State), Still s (progress n s)
  | 0, s => Still.refl s
  | n + 1, s => by
    have looked := (still_admitSteps Config.cascadeBound s).trans
      (still_lookForWindow (admitSteps Config.cascadeBound s).1 (admitSteps Config.cascadeBound s).2)
    unfold progress
    dsimp only
    split
    · rename_i m _
      refine Still.trans ?_ (still_progress n _)
      split
      · exact (looked.trans (still_decideWindow _ m)).trans (still_retime _)
      · exact looked.trans (still_decideWindow _ m)
    · exact looked.trans (still_leaveWindow _)

theorem still_settle : Still s (settle s) := still_progress _ s

theorem still_makeKnown : Still s (makeKnown s) := (still_retime s).trans (still_settle _)

theorem still_takeDecision (m : MatchWindow) : Still s (takeDecision m s) := by
  unfold takeDecision
  dsimp only
  split
  · exact (still_decideWindow s m).trans (still_makeKnown _)
  · exact (still_decideWindow s m).trans (still_settle _)

theorem still_rebase (t : Time) (p : HymnPos) : Still s (rebase t p s) := by
  unfold rebase
  split
  · exact Still.refl s
  · exact (still_follow s _).trans (still_retime _)

theorem still_startFollow (p : HymnPos) (n : Nat) : Still s (startFollow p n s) := still_follow s _

/-! ### Walking -/

theorem still_liftAndRebase (t : Time) (p : HymnPos) : Still s (liftAndRebase t p s) :=
  (still_player s _).trans (still_rebase _ t p)

theorem still_enterSection (sec : Nat) : Still s (enterSection sec s) :=
  (still_player s _).trans (still_raise _ _)

theorem still_beginWait (k : WaitKind) (p : HymnPos) (m : Int) : Still s (beginWait k p m s) :=
  still_player s _

theorem still_resumeWait (w : Wait) (t : Time) (b : Bool) : Still s (resumeWait w t b s) := by
  unfold resumeWait
  dsimp only
  split
  · exact ((still_player s _).trans (still_liftAndRebase _ _ _)).trans (still_settle _)
  · exact (((still_player s _).trans (still_liftAndRebase _ _ _)).trans (still_beginWalk _ _)).trans
      (still_settle _)

theorem still_voidWait (w : Wait) : Still s (voidWait w s) :=
  ((still_player s _).trans (still_raise _ _)).trans (still_resumeWait _ _ _ _)

theorem still_enterWaiting (w : Wait) : Still s (enterWaiting w s) :=
  (still_player s _).trans (still_raise _ _)

theorem still_releaseAtMinimum (w : Wait) : Still s (releaseAtMinimum w s) := by
  unfold releaseAtMinimum
  split
  · split
    · exact (still_decideRelease s _ _).trans (still_settle _)
    · exact Still.refl s
  · exact Still.refl s

theorem still_endMinimum (w : Wait) : Still s (endMinimum w s) := by
  unfold endMinimum
  dsimp only
  split
  · exact (still_releaseAtMinimum s w).trans (still_voidWait _ _)
  · exact (still_releaseAtMinimum s w).trans (still_enterWaiting _ _)

theorem still_endBreath (w : Wait) : Still s (endBreath w s) := by
  unfold endBreath
  split
  · exact still_player s _
  · exact still_enterSection s _
  · exact still_enterSection s _

theorem still_pullBreath (w : Wait) (t : Time) : Still s (pullBreath w t s) :=
  ((still_player s _).trans (still_rebase _ _ _)).trans (still_settle _)

theorem still_knowOnset (t : Time) : Still s (knowOnset t s).1 := by
  unfold knowOnset
  dsimp only
  split
  · split
    · split
      · exact Still.refl s
      · exact still_resumeWait s _ _ _
      · split
        · exact still_pullBreath s _ _
        · exact Still.refl s
    · exact Still.refl s
  · exact Still.refl s

/-- The entry to FERMATA changes cipher deadlines beside (R104). -/
theorem frame_enterFermata (w : WindowStep) (f : Fermata) : Frame s (enterFermata w f s) := by
  have began : ∀ p m, Frame s { s with player := p, map := m } := fun _ _ => ⟨rfl, rfl, rfl, rfl, rfl, rfl, rfl⟩
  unfold enterFermata
  dsimp only
  split
  · exact (((began _ _).trans (still_decideRelease _ _ _).frame).trans
      (still_liftAndRebase _ _ _).frame).trans (still_settle _).frame
  · exact (began _ _).trans (still_beginWait _ _ _ _).frame

theorem still_returnFromFermata : Still s (returnFromFermata s) := still_player s _

theorem still_loseReservation (v : Nat) : Still s (loseReservation v s) := by
  unfold loseReservation
  split
  · split
    · exact (still_player s _).trans (still_raise _ _)
    · exact Still.refl s
  · exact Still.refl s

theorem still_passOver (v : Nat) : Still s (passOver v s) :=
  (still_player s _).trans (still_loseReservation _ v)

theorem still_passOverAll : ∀ (vs : List Nat) (s : State), Still s (vs.foldl (fun acc x => passOver x acc) s)
  | [], s => Still.refl s
  | v :: vs, s => (still_passOver s v).trans (still_passOverAll vs _)

theorem still_passOverBelow (v : Nat) : Still s (passOverBelow v s) := by
  unfold passOverBelow
  split
  · exact still_passOverAll _ s
  · exact Still.refl s

theorem frame_presentRegistration (sec : Nat) (r : Registration) : Frame s (presentRegistration sec r s) :=
  ⟨rfl, rfl, rfl, rfl, rfl, rfl, rfl⟩

/-- A latch hands a registration to the Stop Queue beside (R91). -/
theorem frame_latch (sec v : Nat) : Frame s (latch sec v s) := by
  unfold latch
  split
  · exact Frame.refl s
  · dsimp only
    split
    · exact (((still_player s _).frame.trans (frame_presentRegistration _ _ _)).trans
        (still_player _ _).frame).trans (still_loseReservation _ _).frame
    · exact (still_player s _).frame.trans (still_loseReservation _ _).frame

theorem frame_fixSection (sec : Nat) : Frame s (fixSection sec s) := by
  unfold fixSection
  dsimp only
  split
  · split
    · exact (still_passOverBelow s sec).frame
    · exact (still_passOverBelow s sec).frame.trans (frame_latch _ _ _)
  · exact (still_passOverBelow s sec).frame

theorem still_enterGap (next : Nat) (g : Gap) : Still s (enterGap next g s) := by
  unfold enterGap
  dsimp only
  split
  · exact (still_player s _).trans (still_beginWait _ _ _ _)
  · exact (((still_player s _).trans (still_liftAndRebase _ _ _)).trans (still_beginWalk _ _)).trans
      (still_settle _)

theorem frame_endSection (sec : Nat) : Frame s (endSection sec s) := by
  unfold endSection
  dsimp only
  split
  · exact ((still_player s _).frame.trans (frame_fixSection _ _)).trans (still_enterGap _ _ _).frame
  · exact ((still_player s _).trans (still_passOverBelow _ _)).frame.trans (still_player _ _).frame

theorem frame_nextAtOnce (t : State) (h : nextAtOnce s = some t) : Frame s t := by
  unfold nextAtOnce at h
  repeat' split at h
  all_goals first
    | (cases h; done)
    | (cases h; exact (still_becomeIdle s).frame)
    | (cases h; exact (still_endMinimum s _).frame)
    | (cases h; exact (still_endBreath s _).frame)
    | (cases h; exact (still_enterSection s _).frame)
    | (cases h; exact (still_returnFromFermata s).frame)
    | (cases h; exact frame_endSection s _)
    | (rw [Option.map_eq_some_iff] at h
       obtain ⟨f, -, rfl⟩ := h
       exact frame_enterFermata s _ f)

theorem frame_chain : ∀ (n : Nat) (s : State), Frame s (chain n s)
  | 0, s => Frame.refl s
  | n + 1, s => by
    unfold chain
    split
    · exact (frame_nextAtOnce s _ ‹_›).trans (frame_chain n _)
    · exact Frame.refl s

theorem frame_follows : Frame s (follows s) := frame_chain _ s

theorem frame_openHymn (n : Nat) (h : Header) (pl : Plan) (opening : Nat) :
    Frame s (openHymn n h pl opening s) :=
  ((((((still_player s _).trans (still_passOverBelow _ _)).frame.trans (frame_latch _ _ _)).trans
    (still_store _ _).frame).trans (still_startFollow _ _ _).frame).trans (still_retime _).frame).trans
    (still_raise _ _).frame

theorem frame_startHymn (n : Nat) (h : Header) (pl : Plan) (opening : Nat) :
    Frame s (startHymn n h pl opening s) := by
  unfold startHymn
  dsimp only
  split
  · exact (((frame_openHymn s n h pl opening).trans (still_player _ _).frame).trans
      (still_beginWait _ _ _ _).frame).trans (frame_follows _)
  · exact ((((frame_openHymn s n h pl opening).trans (still_enterSection _ _).frame).trans
      (still_beginWalk _ _).frame).trans (still_settle _).frame).trans (frame_follows _)

end Sys2Proof.Laws
end

