-- ==== Sys2Proof/Laws/Link.lean ====
section
/-! SUPPORT. The lines: what a transmit line gives, and the serial form of a byte on the Console Link, where what
is sent is what is received. -/

namespace Sys2Proof.Laws

open Sys2Proof.Machine

@[simp] theorem length_byteLevels (b : Byte) : (byteLevels b).length = 10 := by simp [byteLevels]

/-- What a transmit line gives, said once (R185). -/
@[simp] theorem lineOutput_held {α : Type} {s : State} (x : Option (List α)) (h : s.heldInReset = true) :
    lineOutput s x = .idle true := by
  simp [lineOutput, h, stopLevel]

@[simp] theorem lineOutput_none {α : Type} (s : State) : lineOutput s (none : Option (List α)) = .idle true := by
  cases h : s.heldInReset <;> simp [lineOutput, h, stopLevel]

@[simp] theorem lineOutput_some {α : Type} {s : State} (sent : List α) (h : s.heldInReset = false) :
    lineOutput s (some sent) = .carries sent := by
  simp [lineOutput, h]

/-- A byte sent is received as itself (R165). -/
@[simp] theorem lineEvent_byteLevels : ∀ b : Byte, lineEvent (byteLevels b) = some (.byte b) := by
  decide +kernel

/-- Ten levels whose start and stop bits are low are a framing error, whatever the data bits (R165). -/
theorem lineEvent_stop_low {bits : List Bool} (h : bits.length = 8) :
    lineEvent (false :: bits ++ [false]) = some .framingError := by
  simp [lineEvent, h]

/-- A byte or a framing error has a start bit and ten levels (R165). -/
theorem lineEvent_start {levels : List Bool} {e : LineEvent} (h : lineEvent levels = some e) :
    levels.head? = some false ∧ levels.length = 10 := by
  unfold lineEvent at h
  split at h
  · rename_i rest
    have drop (x : Bool) (hx : rest.drop 8 = [x]) : rest.length = 9 := by
      have := congrArg List.length hx
      simp only [List.length_drop, List.length_singleton] at this
      omega
    split at h
    · exact ⟨rfl, congrArg (· + 1) (drop _ ‹_›)⟩
    · exact ⟨rfl, congrArg (· + 1) (drop _ ‹_›)⟩
    · cases h
  · cases h

end Sys2Proof.Laws
end

