-- ==== Sys2Proof/Laws/Listen.lean ====
section
/-! SUPPORT. The samples of a hop, and what the detector does to the Listening Unit, said once. -/

namespace Sys2Proof.Laws

open Sys2Proof.Machine

/-- R38: a sample lies from −32 768 to +32 767. -/
theorem sampleOf_range (p : WordPeriod) : -32768 ≤ sampleOf p ∧ sampleOf p ≤ 32767 := by
  have low := BitVec.le_two_mul_toInt (x := BitVec.ofNat 16 (bitsValue p.low))
  have high := BitVec.two_mul_toInt_lt (x := BitVec.ofNat 16 (bitsValue p.low))
  simp only [sampleOf]
  omega

/-- R38: one sample for each word-clock period. -/
@[simp] theorem samplesOf_length (i : HopInput) : (samplesOf i).length = i.periods.length := by
  simp [samplesOf]

/-- R40: a hop completes with the 128th period of the pacing channel, or at the hop timer's end. -/
theorem hopDue_iff (a b : HopInput) (s : State) :
    hopDue a b s = true ↔
      (s.listen.a.present = true ∧ a.periods.length = 128)
        ∨ (s.listen.a.present = false ∧ s.listen.b.present = true ∧ b.periods.length = 128)
        ∨ (s.listen.a.present = false ∧ s.listen.b.present = false
            ∧ due s (timePlus s.listen.hopBegan 80) = true) := by
  unfold hopDue pacing
  cases s.listen.a.present <;> cases s.listen.b.present <;> simp [Config.hopSamples, Config.hopUnits]

/-- What the detector leaves: the channels and the candidate are those of the hop measured, the novelties
move by one, the hop begins now, and the Onset Queue, the backlog and the count of analyses are
`s`'s, the last one further. -/
theorem detect_listen (s : State) (a b : HopInput) :
    let m := measureHop s.listen a b
    let l := (detect s a b).2
    l.a = m.2.1 ∧ l.b = m.2.2 ∧ l.candidate = some m.1 ∧ l.hopBegan = s.now
      ∧ l.recent = (m.1.novelty, s.listen.recent.1, s.listen.recent.2.1)
      ∧ l.queue = s.listen.queue ∧ l.backlog = s.listen.backlog
      ∧ l.analyses = s.listen.analyses + 1 := by
  unfold detect
  dsimp only
  split <;> exact ⟨rfl, rfl, rfl, rfl, rfl, rfl, rfl, rfl⟩

/-- The onset that the detector declares is its candidate's (R46, R48). -/
theorem detect_onset (s : State) (a b : HopInput) (o : Onset) :
    (detect s a b).1 = some o ↔ ∃ c, s.listen.candidate = some c
      ∧ declares s.params s.listen c (measureHop s.listen a b).1.novelty = true ∧ o = onsetOf s c := by
  unfold detect
  dsimp only
  split
  · rename_i hc
    constructor
    · intro h
      exact nomatch h
    · rintro ⟨c, h, _⟩
      rw [hc] at h
      exact nomatch h
  · rename_i c hc
    constructor
    · intro h
      split at h
      · exact ⟨c, hc, ‹_›, (Option.some.inj h).symm⟩
      · exact nomatch h
    · rintro ⟨c', h, d, rfl⟩
      obtain rfl := Option.some.inj (hc.symm.trans h)
      exact if_pos d

end Sys2Proof.Laws
end

