-- ==== Sys2Proof/Laws/Memory.lean ====
section
/-! SUPPORT. The sparse tables, among them the step pool: reading after writing, and the canonical form
kept by every operation; the queues within their places, and schedule order keeping every event. -/

namespace Sys2Proof.Laws

open Sys2Proof.Machine

variable {β : Type} [DecidableEq β] {d : β}

/-- A canonical list: a head that is not blank, below every later index, and a canonical rest. -/
theorem wfCells_cons {i : Nat} {v : β} {l : List (Nat × β)} :
    wfCells d ((i, v) :: l) = true ↔ v ≠ d ∧ (∀ c ∈ l, i < c.1) ∧ wfCells d l = true := by
  simp [wfCells, and_assoc]

/-- What is written below every index or replaces nothing is found among the old cells or is new. -/
theorem mem_writeCells {l : List (Nat × β)} {k : Nat} {v : β} {c : Nat × β}
    (h : c ∈ writeCells d l k v) : c ∈ l ∨ c = (k, v) := by
  induction l with
  | nil =>
    simp only [writeCells] at h
    split at h
    · cases h
    · exact .inr (by simpa using h)
  | cons x rest ih =>
    obtain ⟨i, w⟩ := x
    simp only [writeCells] at h
    split at h
    · split at h
      · exact .inl h
      · rcases List.mem_cons.mp h with h | h
        · exact .inr h
        · exact .inl h
    · split at h
      · split at h
        · exact .inl (List.mem_cons_of_mem _ h)
        · rcases List.mem_cons.mp h with h | h
          · exact .inr h
          · exact .inl (List.mem_cons_of_mem _ h)
      · rcases List.mem_cons.mp h with h | h
        · exact .inl (h ▸ List.mem_cons_self ..)
        · rcases ih h with h | h
          · exact .inl (List.mem_cons_of_mem _ h)
          · exact .inr h

/-- A write keeps the canonical form. -/
theorem wf_writeCells {l : List (Nat × β)} {k : Nat} {v : β} (h : wfCells d l = true) :
    wfCells d (writeCells d l k v) = true := by
  induction l with
  | nil =>
    simp only [writeCells]
    split
    · rfl
    · rename_i hv
      exact wfCells_cons.mpr ⟨hv, by simp, rfl⟩
  | cons x rest ih =>
    obtain ⟨i, w⟩ := x
    obtain ⟨hw, hi, hr⟩ := wfCells_cons.mp h
    simp only [writeCells]
    split
    · rename_i hk
      split
      · exact h
      · rename_i hv
        refine wfCells_cons.mpr ⟨hv, ?_, h⟩
        intro c hc
        rcases List.mem_cons.mp hc with rfl | hc
        · exact hk
        · exact hk.trans (hi c hc)
    · rename_i hk
      split
      · rename_i he
        split
        · exact hr
        · rename_i hv
          exact wfCells_cons.mpr ⟨hv, fun c hc => he ▸ hi c hc, hr⟩
      · rename_i he
        refine wfCells_cons.mpr ⟨hw, ?_, ih hr⟩
        intro c hc
        rcases mem_writeCells hc with hc | rfl
        · exact hi c hc
        · show i < k
          omega

omit [DecidableEq β] in
/-- Below every index a canonical list reads blank. -/
theorem readCells_below {l : List (Nat × β)} {k : Nat} (h : ∀ c ∈ l, k < c.1) : readCells d l k = d := by
  cases l with
  | nil => rfl
  | cons x rest =>
    obtain ⟨i, w⟩ := x
    have hk : k < i := h (i, w) (List.mem_cons_self ..)
    simp [readCells, hk]

/-- Reading where a value has just been written gives it. -/
theorem read_write_same {l : List (Nat × β)} (k : Nat) (v : β) (h : wfCells d l = true) :
    readCells d (writeCells d l k v) k = v := by
  induction l with
  | nil =>
    simp only [writeCells]
    split
    · rename_i hv
      simp [readCells, hv]
    · simp [readCells]
  | cons x rest ih =>
    obtain ⟨i, w⟩ := x
    obtain ⟨hw, hi, hr⟩ := wfCells_cons.mp h
    simp only [writeCells]
    split
    · rename_i hk
      split
      · rename_i hv
        simp [readCells, hk, hv]
      · simp [readCells]
    · rename_i hk
      split
      · rename_i he
        split
        · rename_i hv
          rw [hv]
          exact readCells_below (fun c hc => he ▸ hi c hc)
        · simp [readCells]
      · rename_i he
        simp [readCells, hk, he, ih hr]

/-- Reading anywhere else gives what was there. -/
theorem read_write_other {l : List (Nat × β)} {k j : Nat} (v : β) (hj : j ≠ k) (h : wfCells d l = true) :
    readCells d (writeCells d l k v) j = readCells d l j := by
  induction l with
  | nil =>
    simp only [writeCells]
    split
    · rfl
    · simp [readCells, hj]
  | cons x rest ih =>
    obtain ⟨i, w⟩ := x
    obtain ⟨hw, hi, hr⟩ := wfCells_cons.mp h
    simp only [writeCells]
    split
    · rename_i hk
      split
      · rfl
      · by_cases hjk : j < k
        · simp [readCells, hjk, hjk.trans hk]
        · simp [readCells, hjk, hj]
    · rename_i hk
      split
      · rename_i he
        have hk' : ¬ k < k := Nat.lt_irrefl k
        subst he
        split
        · by_cases hjk : j < k
          · have hb : ∀ c ∈ rest, j < c.1 := fun c hc => hjk.trans (hi c hc)
            simp [readCells, hjk, readCells_below hb]
          · simp [readCells, hjk, hj]
        · simp [readCells, hj]
      · by_cases hji : j < i
        · simp [readCells, hji]
        · by_cases hje : j = i
          · simp [readCells, hje]
          · simp [readCells, hji, hje, ih hr]

theorem Table.wf_set {t : Table β} (k : Nat) (v : β) (h : t.wf d = true) : (t.set d k v).wf d = true :=
  wf_writeCells h

theorem Table.get_set_same {t : Table β} (k : Nat) (v : β) (h : t.wf d = true) : (t.set d k v).get d k = v :=
  read_write_same k v h

theorem Table.get_set_other {t : Table β} {k j : Nat} (v : β) (hj : j ≠ k) (h : t.wf d = true) :
    (t.set d k v).get d j = t.get d j := read_write_other v hj h

theorem Table.wf_setRun : ∀ (l : List β) (t : Table β) (k : Nat), t.wf d = true → (t.setRun d k l).wf d = true
  | [], _, _, h => h
  | v :: rest, t, k, h => Table.wf_setRun rest (t.set d k v) (k + 1) (Table.wf_set k v h)

/-- A run written from `k` on leaves every number below `k` and from its end on. -/
theorem Table.get_setRun_other : ∀ (l : List β) (t : Table β) (k j : Nat), t.wf d = true →
    (j < k ∨ k + l.length ≤ j) → (t.setRun d k l).get d j = t.get d j
  | [], _, _, _, _, _ => rfl
  | v :: rest, t, k, j, h, hj => by
    have h1 : (t.set d k v).wf d = true := Table.wf_set k v h
    have hj' : j < k + 1 ∨ k + 1 + rest.length ≤ j := by
      simp only [List.length_cons] at hj
      omega
    have hne : j ≠ k := by
      simp only [List.length_cons] at hj
      omega
    exact (Table.get_setRun_other rest (t.set d k v) (k + 1) j h1 hj').trans (Table.get_set_other v hne h)

/-- A run that has just been written is read back whole. -/
theorem Table.getRun_setRun : ∀ (l : List β) (t : Table β) (k : Nat), t.wf d = true →
    Table.getRun d (t.setRun d k l) k l.length = l
  | [], _, _, _ => rfl
  | v :: rest, t, k, h => by
    have h1 : (t.set d k v).wf d = true := Table.wf_set k v h
    show (Table.setRun d (t.set d k v) (k + 1) rest).get d k :: _ = _
    rw [Table.get_setRun_other rest (t.set d k v) (k + 1) k h1 (.inl (by omega)), Table.get_set_same k v h]
    exact congrArg (v :: ·) (Table.getRun_setRun rest (t.set d k v) (k + 1) h1)

/-! ### The step pool -/

theorem Memory.wf_writeStep (sl : Slot) (pool : Table PoolEntry) (f : StepFields) (h : Memory.wf pool = true) :
    Memory.wf (writeStep sl pool f).2 = true := Table.wf_setRun _ _ _ h

theorem Memory.wf_writeSteps : ∀ (l : List StepFields) (sl : Slot) (pool : Table PoolEntry),
    Memory.wf pool = true → Memory.wf (writeSteps sl pool l).2 = true
  | [], _, _, h => h
  | f :: rest, sl, pool, h => Memory.wf_writeSteps rest _ _ (Memory.wf_writeStep sl pool f h)

/-- A clearing leaves a blank pool (R22). -/
theorem Memory.wf_storeClearing (t : Time) : Memory.wf (storeClearing t).pool = true := rfl

theorem Memory.wf_reset : Memory.wf State.reset.store.pool = true := rfl

/-- A step fills its head and its notes, and no entry beyond them (R9). -/
theorem length_stepEntries (f : StepFields) : (stepEntries f).length = 1 + f.notes.length := by
  simp [stepEntries, Nat.add_comm]

/-! ### Places -/

theorem offerNotice_length {f : Flags} (r : Raise) (h : f.queue.length ≤ Config.noticePlaces) :
    (offerNotice f r).queue.length ≤ Config.noticePlaces := by
  unfold offerNotice
  split
  · simp only [List.length_append, List.length_singleton]
    omega
  · exact h

theorem raise_queue_length {s : State} (k : Kind) (h : s.flags.queue.length ≤ Config.noticePlaces) :
    (raise k s).flags.queue.length ≤ Config.noticePlaces := by
  show (raiseFlags s.now k s.flags).queue.length ≤ _
  unfold raiseFlags
  split
  · exact h
  · dsimp only
    split
    · exact offerNotice_length _ h
    · exact h

/-- An event put at its place stands beside the same others (R116). -/
theorem placeEvent_perm (e : KeyEvent) (l : List KeyEvent) : (placeEvent e l).Perm (e :: l) := by
  induction l with
  | nil => exact .rfl
  | cons h rest ih =>
    simp only [placeEvent]
    split
    · exact .rfl
    · exact (ih.cons h).trans (.swap e h rest)

theorem orderEvents_perm (l : List KeyEvent) : (orderEvents l).Perm l := by
  induction l with
  | nil => exact .rfl
  | cons h rest ih => exact (placeEvent_perm h _).trans (ih.cons h)

/-- Putting events in schedule order keeps them all (R116). -/
theorem orderSchedule_perm (l : List KeyEvent) : (orderSchedule l).Perm l :=
  ((orderEvents_perm _).append (orderEvents_perm _)).trans (List.filter_append_perm (·.firm) l)

@[simp] theorem length_orderSchedule (l : List KeyEvent) : (orderSchedule l).length = l.length :=
  (orderSchedule_perm l).length_eq

@[simp] theorem mem_orderSchedule {e : KeyEvent} {l : List KeyEvent} : e ∈ orderSchedule l ↔ e ∈ l :=
  (orderSchedule_perm l).mem_iff

/-- A firming pass keeps the number of events (R125). -/
theorem length_firmPass (now : Time) (lead : Nat) (k : Schedule) :
    (firmPass now lead k).events.length = k.events.length := by
  show (orderSchedule _).length = _
  rw [length_orderSchedule, List.length_map]

end Sys2Proof.Laws
end

