-- ==== Sys2Proof/Laws/State.lean ====
section
/-! SUPPORT. One lemma per field per named update of the state, so that no later proof unfolds a record
update. -/

namespace Sys2Proof.Machine

@[simp] theorem elapse_pending (dt : Nat) (s : State) : (elapse dt s).pending = s.pending := rfl
@[simp] theorem elapse_heldInReset (dt : Nat) (s : State) : (elapse dt s).heldInReset = s.heldInReset := rfl
@[simp] theorem elapse_link (dt : Nat) (s : State) : (elapse dt s).link = s.link := rfl
@[simp] theorem elapse_params (dt : Nat) (s : State) : (elapse dt s).params = s.params := rfl
@[simp] theorem elapse_store (dt : Nat) (s : State) : (elapse dt s).store = s.store := rfl
@[simp] theorem elapse_organ (dt : Nat) (s : State) : (elapse dt s).organ = s.organ := rfl
@[simp] theorem elapse_listen (dt : Nat) (s : State) : (elapse dt s).listen = s.listen := rfl
@[simp] theorem elapse_follow (dt : Nat) (s : State) : (elapse dt s).follow = s.follow := rfl
@[simp] theorem elapse_player (dt : Nat) (s : State) : (elapse dt s).player = s.player := rfl
@[simp] theorem elapse_keys (dt : Nat) (s : State) : (elapse dt s).keys = s.keys := rfl
@[simp] theorem elapse_map (dt : Nat) (s : State) : (elapse dt s).map = s.map := rfl
@[simp] theorem elapse_leak (dt : Nat) (s : State) : (elapse dt s).leak = s.leak := rfl
@[simp] theorem elapse_keyline (dt : Nat) (s : State) : (elapse dt s).keyline = s.keyline := rfl
@[simp] theorem elapse_flags (dt : Nat) (s : State) : (elapse dt s).flags = s.flags := rfl

@[simp] theorem raise_pending (k : Kind) (s : State) : (raise k s).pending = s.pending := rfl
@[simp] theorem raise_now (k : Kind) (s : State) : (raise k s).now = s.now := rfl
@[simp] theorem raise_heldInReset (k : Kind) (s : State) : (raise k s).heldInReset = s.heldInReset := rfl
@[simp] theorem raise_link (k : Kind) (s : State) : (raise k s).link = s.link := rfl
@[simp] theorem raise_params (k : Kind) (s : State) : (raise k s).params = s.params := rfl
@[simp] theorem raise_store (k : Kind) (s : State) : (raise k s).store = s.store := rfl
@[simp] theorem raise_organ (k : Kind) (s : State) : (raise k s).organ = s.organ := rfl
@[simp] theorem raise_listen (k : Kind) (s : State) : (raise k s).listen = s.listen := rfl
@[simp] theorem raise_follow (k : Kind) (s : State) : (raise k s).follow = s.follow := rfl
@[simp] theorem raise_player (k : Kind) (s : State) : (raise k s).player = s.player := rfl
@[simp] theorem raise_keys (k : Kind) (s : State) : (raise k s).keys = s.keys := rfl
@[simp] theorem raise_map (k : Kind) (s : State) : (raise k s).map = s.map := rfl
@[simp] theorem raise_leak (k : Kind) (s : State) : (raise k s).leak = s.leak := rfl
@[simp] theorem raise_keyline (k : Kind) (s : State) : (raise k s).keyline = s.keyline := rfl

@[simp] theorem expireFrame_pending (s : State) : (expireFrame s).pending = s.pending := rfl
@[simp] theorem expireFrame_now (s : State) : (expireFrame s).now = s.now := rfl
@[simp] theorem expireFrame_heldInReset (s : State) : (expireFrame s).heldInReset = s.heldInReset := rfl
@[simp] theorem expireFrame_params (s : State) : (expireFrame s).params = s.params := rfl
@[simp] theorem expireFrame_store (s : State) : (expireFrame s).store = s.store := rfl
@[simp] theorem expireFrame_organ (s : State) : (expireFrame s).organ = s.organ := rfl
@[simp] theorem expireFrame_listen (s : State) : (expireFrame s).listen = s.listen := rfl
@[simp] theorem expireFrame_follow (s : State) : (expireFrame s).follow = s.follow := rfl
@[simp] theorem expireFrame_player (s : State) : (expireFrame s).player = s.player := rfl
@[simp] theorem expireFrame_keys (s : State) : (expireFrame s).keys = s.keys := rfl
@[simp] theorem expireFrame_map (s : State) : (expireFrame s).map = s.map := rfl
@[simp] theorem expireFrame_leak (s : State) : (expireFrame s).leak = s.leak := rfl
@[simp] theorem expireFrame_keyline (s : State) : (expireFrame s).keyline = s.keyline := rfl
@[simp] theorem expireFrame_flags (s : State) : (expireFrame s).flags = s.flags := rfl

@[simp] theorem windowPhase_pending (x : WindowPhase) (m : MatchWindow) (s : State) : (windowPhase x m s).pending = s.pending := rfl
@[simp] theorem windowPhase_now (x : WindowPhase) (m : MatchWindow) (s : State) : (windowPhase x m s).now = s.now := rfl
@[simp] theorem windowPhase_heldInReset (x : WindowPhase) (m : MatchWindow) (s : State) : (windowPhase x m s).heldInReset = s.heldInReset := rfl
@[simp] theorem windowPhase_link (x : WindowPhase) (m : MatchWindow) (s : State) : (windowPhase x m s).link = s.link := rfl
@[simp] theorem windowPhase_params (x : WindowPhase) (m : MatchWindow) (s : State) : (windowPhase x m s).params = s.params := rfl
@[simp] theorem windowPhase_store (x : WindowPhase) (m : MatchWindow) (s : State) : (windowPhase x m s).store = s.store := rfl
@[simp] theorem windowPhase_organ (x : WindowPhase) (m : MatchWindow) (s : State) : (windowPhase x m s).organ = s.organ := rfl
@[simp] theorem windowPhase_listen (x : WindowPhase) (m : MatchWindow) (s : State) : (windowPhase x m s).listen = s.listen := rfl
@[simp] theorem windowPhase_player (x : WindowPhase) (m : MatchWindow) (s : State) : (windowPhase x m s).player = s.player := rfl
@[simp] theorem windowPhase_keys (x : WindowPhase) (m : MatchWindow) (s : State) : (windowPhase x m s).keys = s.keys := rfl
@[simp] theorem windowPhase_map (x : WindowPhase) (m : MatchWindow) (s : State) : (windowPhase x m s).map = s.map := rfl
@[simp] theorem windowPhase_leak (x : WindowPhase) (m : MatchWindow) (s : State) : (windowPhase x m s).leak = s.leak := rfl
@[simp] theorem windowPhase_keyline (x : WindowPhase) (m : MatchWindow) (s : State) : (windowPhase x m s).keyline = s.keyline := rfl
@[simp] theorem windowPhase_flags (x : WindowPhase) (m : MatchWindow) (s : State) : (windowPhase x m s).flags = s.flags := rfl

@[simp] theorem startFollow_pending (p : HymnPos) (n : Nat) (s : State) : (startFollow p n s).pending = s.pending := rfl
@[simp] theorem startFollow_now (p : HymnPos) (n : Nat) (s : State) : (startFollow p n s).now = s.now := rfl
@[simp] theorem startFollow_heldInReset (p : HymnPos) (n : Nat) (s : State) : (startFollow p n s).heldInReset = s.heldInReset := rfl
@[simp] theorem startFollow_link (p : HymnPos) (n : Nat) (s : State) : (startFollow p n s).link = s.link := rfl
@[simp] theorem startFollow_params (p : HymnPos) (n : Nat) (s : State) : (startFollow p n s).params = s.params := rfl
@[simp] theorem startFollow_store (p : HymnPos) (n : Nat) (s : State) : (startFollow p n s).store = s.store := rfl
@[simp] theorem startFollow_organ (p : HymnPos) (n : Nat) (s : State) : (startFollow p n s).organ = s.organ := rfl
@[simp] theorem startFollow_listen (p : HymnPos) (n : Nat) (s : State) : (startFollow p n s).listen = s.listen := rfl
@[simp] theorem startFollow_player (p : HymnPos) (n : Nat) (s : State) : (startFollow p n s).player = s.player := rfl
@[simp] theorem startFollow_keys (p : HymnPos) (n : Nat) (s : State) : (startFollow p n s).keys = s.keys := rfl
@[simp] theorem startFollow_map (p : HymnPos) (n : Nat) (s : State) : (startFollow p n s).map = s.map := rfl
@[simp] theorem startFollow_leak (p : HymnPos) (n : Nat) (s : State) : (startFollow p n s).leak = s.leak := rfl
@[simp] theorem startFollow_keyline (p : HymnPos) (n : Nat) (s : State) : (startFollow p n s).keyline = s.keyline := rfl
@[simp] theorem startFollow_flags (p : HymnPos) (n : Nat) (s : State) : (startFollow p n s).flags = s.flags := rfl

@[simp] theorem beginWait_pending (k : WaitKind) (p : HymnPos) (n : Int) (s : State) : (beginWait k p n s).pending = s.pending := rfl
@[simp] theorem beginWait_now (k : WaitKind) (p : HymnPos) (n : Int) (s : State) : (beginWait k p n s).now = s.now := rfl
@[simp] theorem beginWait_heldInReset (k : WaitKind) (p : HymnPos) (n : Int) (s : State) : (beginWait k p n s).heldInReset = s.heldInReset := rfl
@[simp] theorem beginWait_link (k : WaitKind) (p : HymnPos) (n : Int) (s : State) : (beginWait k p n s).link = s.link := rfl
@[simp] theorem beginWait_params (k : WaitKind) (p : HymnPos) (n : Int) (s : State) : (beginWait k p n s).params = s.params := rfl
@[simp] theorem beginWait_store (k : WaitKind) (p : HymnPos) (n : Int) (s : State) : (beginWait k p n s).store = s.store := rfl
@[simp] theorem beginWait_organ (k : WaitKind) (p : HymnPos) (n : Int) (s : State) : (beginWait k p n s).organ = s.organ := rfl
@[simp] theorem beginWait_listen (k : WaitKind) (p : HymnPos) (n : Int) (s : State) : (beginWait k p n s).listen = s.listen := rfl
@[simp] theorem beginWait_follow (k : WaitKind) (p : HymnPos) (n : Int) (s : State) : (beginWait k p n s).follow = s.follow := rfl
@[simp] theorem beginWait_keys (k : WaitKind) (p : HymnPos) (n : Int) (s : State) : (beginWait k p n s).keys = s.keys := rfl
@[simp] theorem beginWait_map (k : WaitKind) (p : HymnPos) (n : Int) (s : State) : (beginWait k p n s).map = s.map := rfl
@[simp] theorem beginWait_leak (k : WaitKind) (p : HymnPos) (n : Int) (s : State) : (beginWait k p n s).leak = s.leak := rfl
@[simp] theorem beginWait_keyline (k : WaitKind) (p : HymnPos) (n : Int) (s : State) : (beginWait k p n s).keyline = s.keyline := rfl
@[simp] theorem beginWait_flags (k : WaitKind) (p : HymnPos) (n : Int) (s : State) : (beginWait k p n s).flags = s.flags := rfl

@[simp] theorem leaveFirst_pending (s : State) : (leaveFirst s).pending = s.pending := rfl
@[simp] theorem leaveFirst_now (s : State) : (leaveFirst s).now = s.now := rfl
@[simp] theorem leaveFirst_heldInReset (s : State) : (leaveFirst s).heldInReset = s.heldInReset := rfl
@[simp] theorem leaveFirst_link (s : State) : (leaveFirst s).link = s.link := rfl
@[simp] theorem leaveFirst_params (s : State) : (leaveFirst s).params = s.params := rfl
@[simp] theorem leaveFirst_store (s : State) : (leaveFirst s).store = s.store := rfl
@[simp] theorem leaveFirst_organ (s : State) : (leaveFirst s).organ = s.organ := rfl
@[simp] theorem leaveFirst_listen (s : State) : (leaveFirst s).listen = s.listen := rfl
@[simp] theorem leaveFirst_follow (s : State) : (leaveFirst s).follow = s.follow := rfl
@[simp] theorem leaveFirst_keys (s : State) : (leaveFirst s).keys = s.keys := rfl
@[simp] theorem leaveFirst_map (s : State) : (leaveFirst s).map = s.map := rfl
@[simp] theorem leaveFirst_leak (s : State) : (leaveFirst s).leak = s.leak := rfl
@[simp] theorem leaveFirst_keyline (s : State) : (leaveFirst s).keyline = s.keyline := rfl
@[simp] theorem leaveFirst_flags (s : State) : (leaveFirst s).flags = s.flags := rfl

@[simp] theorem leaveWindow_pending (s : State) : (leaveWindow s).pending = s.pending := rfl
@[simp] theorem leaveWindow_now (s : State) : (leaveWindow s).now = s.now := rfl
@[simp] theorem leaveWindow_heldInReset (s : State) : (leaveWindow s).heldInReset = s.heldInReset := rfl
@[simp] theorem leaveWindow_link (s : State) : (leaveWindow s).link = s.link := rfl
@[simp] theorem leaveWindow_params (s : State) : (leaveWindow s).params = s.params := rfl
@[simp] theorem leaveWindow_store (s : State) : (leaveWindow s).store = s.store := rfl
@[simp] theorem leaveWindow_organ (s : State) : (leaveWindow s).organ = s.organ := rfl
@[simp] theorem leaveWindow_listen (s : State) : (leaveWindow s).listen = s.listen := rfl
@[simp] theorem leaveWindow_follow (s : State) : (leaveWindow s).follow = s.follow := rfl
@[simp] theorem leaveWindow_keys (s : State) : (leaveWindow s).keys = s.keys := rfl
@[simp] theorem leaveWindow_map (s : State) : (leaveWindow s).map = s.map := rfl
@[simp] theorem leaveWindow_leak (s : State) : (leaveWindow s).leak = s.leak := rfl
@[simp] theorem leaveWindow_keyline (s : State) : (leaveWindow s).keyline = s.keyline := rfl
@[simp] theorem leaveWindow_flags (s : State) : (leaveWindow s).flags = s.flags := rfl

@[simp] theorem returnFromFermata_pending (s : State) : (returnFromFermata s).pending = s.pending := rfl
@[simp] theorem returnFromFermata_now (s : State) : (returnFromFermata s).now = s.now := rfl
@[simp] theorem returnFromFermata_heldInReset (s : State) : (returnFromFermata s).heldInReset = s.heldInReset := rfl
@[simp] theorem returnFromFermata_link (s : State) : (returnFromFermata s).link = s.link := rfl
@[simp] theorem returnFromFermata_params (s : State) : (returnFromFermata s).params = s.params := rfl
@[simp] theorem returnFromFermata_store (s : State) : (returnFromFermata s).store = s.store := rfl
@[simp] theorem returnFromFermata_organ (s : State) : (returnFromFermata s).organ = s.organ := rfl
@[simp] theorem returnFromFermata_listen (s : State) : (returnFromFermata s).listen = s.listen := rfl
@[simp] theorem returnFromFermata_follow (s : State) : (returnFromFermata s).follow = s.follow := rfl
@[simp] theorem returnFromFermata_keys (s : State) : (returnFromFermata s).keys = s.keys := rfl
@[simp] theorem returnFromFermata_map (s : State) : (returnFromFermata s).map = s.map := rfl
@[simp] theorem returnFromFermata_leak (s : State) : (returnFromFermata s).leak = s.leak := rfl
@[simp] theorem returnFromFermata_keyline (s : State) : (returnFromFermata s).keyline = s.keyline := rfl
@[simp] theorem returnFromFermata_flags (s : State) : (returnFromFermata s).flags = s.flags := rfl

@[simp] theorem enterSection_pending (n : Nat) (s : State) : (enterSection n s).pending = s.pending := rfl
@[simp] theorem enterSection_now (n : Nat) (s : State) : (enterSection n s).now = s.now := rfl
@[simp] theorem enterSection_heldInReset (n : Nat) (s : State) : (enterSection n s).heldInReset = s.heldInReset := rfl
@[simp] theorem enterSection_link (n : Nat) (s : State) : (enterSection n s).link = s.link := rfl
@[simp] theorem enterSection_params (n : Nat) (s : State) : (enterSection n s).params = s.params := rfl
@[simp] theorem enterSection_store (n : Nat) (s : State) : (enterSection n s).store = s.store := rfl
@[simp] theorem enterSection_organ (n : Nat) (s : State) : (enterSection n s).organ = s.organ := rfl
@[simp] theorem enterSection_listen (n : Nat) (s : State) : (enterSection n s).listen = s.listen := rfl
@[simp] theorem enterSection_follow (n : Nat) (s : State) : (enterSection n s).follow = s.follow := rfl
@[simp] theorem enterSection_keys (n : Nat) (s : State) : (enterSection n s).keys = s.keys := rfl
@[simp] theorem enterSection_map (n : Nat) (s : State) : (enterSection n s).map = s.map := rfl
@[simp] theorem enterSection_leak (n : Nat) (s : State) : (enterSection n s).leak = s.leak := rfl
@[simp] theorem enterSection_keyline (n : Nat) (s : State) : (enterSection n s).keyline = s.keyline := rfl

@[simp] theorem enterWaiting_pending (w : Wait) (s : State) : (enterWaiting w s).pending = s.pending := rfl
@[simp] theorem enterWaiting_now (w : Wait) (s : State) : (enterWaiting w s).now = s.now := rfl
@[simp] theorem enterWaiting_heldInReset (w : Wait) (s : State) : (enterWaiting w s).heldInReset = s.heldInReset := rfl
@[simp] theorem enterWaiting_link (w : Wait) (s : State) : (enterWaiting w s).link = s.link := rfl
@[simp] theorem enterWaiting_params (w : Wait) (s : State) : (enterWaiting w s).params = s.params := rfl
@[simp] theorem enterWaiting_store (w : Wait) (s : State) : (enterWaiting w s).store = s.store := rfl
@[simp] theorem enterWaiting_organ (w : Wait) (s : State) : (enterWaiting w s).organ = s.organ := rfl
@[simp] theorem enterWaiting_listen (w : Wait) (s : State) : (enterWaiting w s).listen = s.listen := rfl
@[simp] theorem enterWaiting_follow (w : Wait) (s : State) : (enterWaiting w s).follow = s.follow := rfl
@[simp] theorem enterWaiting_keys (w : Wait) (s : State) : (enterWaiting w s).keys = s.keys := rfl
@[simp] theorem enterWaiting_map (w : Wait) (s : State) : (enterWaiting w s).map = s.map := rfl
@[simp] theorem enterWaiting_leak (w : Wait) (s : State) : (enterWaiting w s).leak = s.leak := rfl
@[simp] theorem enterWaiting_keyline (w : Wait) (s : State) : (enterWaiting w s).keyline = s.keyline := rfl

@[simp] theorem retime_pending (s : State) : (retime s).pending = s.pending := rfl
@[simp] theorem retime_now (s : State) : (retime s).now = s.now := rfl
@[simp] theorem retime_heldInReset (s : State) : (retime s).heldInReset = s.heldInReset := rfl
@[simp] theorem retime_link (s : State) : (retime s).link = s.link := rfl
@[simp] theorem retime_params (s : State) : (retime s).params = s.params := rfl
@[simp] theorem retime_store (s : State) : (retime s).store = s.store := rfl
@[simp] theorem retime_organ (s : State) : (retime s).organ = s.organ := rfl
@[simp] theorem retime_listen (s : State) : (retime s).listen = s.listen := rfl
@[simp] theorem retime_follow (s : State) : (retime s).follow = s.follow := rfl
@[simp] theorem retime_player (s : State) : (retime s).player = s.player := rfl
@[simp] theorem retime_map (s : State) : (retime s).map = s.map := rfl
@[simp] theorem retime_leak (s : State) : (retime s).leak = s.leak := rfl
@[simp] theorem retime_keyline (s : State) : (retime s).keyline = s.keyline := rfl
@[simp] theorem retime_flags (s : State) : (retime s).flags = s.flags := rfl

@[simp] theorem placeAll_pending (s : State) (n : Nat) (i : Option Nat) (l : List Draft) : (placeAll s n i l).pending = s.pending := rfl
@[simp] theorem placeAll_now (s : State) (n : Nat) (i : Option Nat) (l : List Draft) : (placeAll s n i l).now = s.now := rfl
@[simp] theorem placeAll_heldInReset (s : State) (n : Nat) (i : Option Nat) (l : List Draft) : (placeAll s n i l).heldInReset = s.heldInReset := rfl
@[simp] theorem placeAll_link (s : State) (n : Nat) (i : Option Nat) (l : List Draft) : (placeAll s n i l).link = s.link := rfl
@[simp] theorem placeAll_params (s : State) (n : Nat) (i : Option Nat) (l : List Draft) : (placeAll s n i l).params = s.params := rfl
@[simp] theorem placeAll_store (s : State) (n : Nat) (i : Option Nat) (l : List Draft) : (placeAll s n i l).store = s.store := rfl
@[simp] theorem placeAll_organ (s : State) (n : Nat) (i : Option Nat) (l : List Draft) : (placeAll s n i l).organ = s.organ := rfl
@[simp] theorem placeAll_listen (s : State) (n : Nat) (i : Option Nat) (l : List Draft) : (placeAll s n i l).listen = s.listen := rfl
@[simp] theorem placeAll_follow (s : State) (n : Nat) (i : Option Nat) (l : List Draft) : (placeAll s n i l).follow = s.follow := rfl
@[simp] theorem placeAll_player (s : State) (n : Nat) (i : Option Nat) (l : List Draft) : (placeAll s n i l).player = s.player := rfl
@[simp] theorem placeAll_map (s : State) (n : Nat) (i : Option Nat) (l : List Draft) : (placeAll s n i l).map = s.map := rfl
@[simp] theorem placeAll_leak (s : State) (n : Nat) (i : Option Nat) (l : List Draft) : (placeAll s n i l).leak = s.leak := rfl
@[simp] theorem placeAll_keyline (s : State) (n : Nat) (i : Option Nat) (l : List Draft) : (placeAll s n i l).keyline = s.keyline := rfl
@[simp] theorem placeAll_flags (s : State) (n : Nat) (i : Option Nat) (l : List Draft) : (placeAll s n i l).flags = s.flags := rfl

@[simp] theorem inOrder_events (k : Schedule) : (inOrder k).events = orderSchedule k.events := rfl
@[simp] theorem inOrder_boundary (k : Schedule) : (inOrder k).boundary = k.boundary := rfl
@[simp] theorem inOrder_counter (k : Schedule) : (inOrder k).counter = k.counter := rfl

@[simp] theorem releaseHeld_pending (n : Nat) (s : State) : (releaseHeld n s).pending = s.pending := rfl
@[simp] theorem releaseHeld_now (n : Nat) (s : State) : (releaseHeld n s).now = s.now := rfl
@[simp] theorem releaseHeld_heldInReset (n : Nat) (s : State) : (releaseHeld n s).heldInReset = s.heldInReset := rfl
@[simp] theorem releaseHeld_link (n : Nat) (s : State) : (releaseHeld n s).link = s.link := rfl
@[simp] theorem releaseHeld_params (n : Nat) (s : State) : (releaseHeld n s).params = s.params := rfl
@[simp] theorem releaseHeld_store (n : Nat) (s : State) : (releaseHeld n s).store = s.store := rfl
@[simp] theorem releaseHeld_organ (n : Nat) (s : State) : (releaseHeld n s).organ = s.organ := rfl
@[simp] theorem releaseHeld_listen (n : Nat) (s : State) : (releaseHeld n s).listen = s.listen := rfl
@[simp] theorem releaseHeld_follow (n : Nat) (s : State) : (releaseHeld n s).follow = s.follow := rfl
@[simp] theorem releaseHeld_player (n : Nat) (s : State) : (releaseHeld n s).player = s.player := rfl
@[simp] theorem releaseHeld_map (n : Nat) (s : State) : (releaseHeld n s).map = s.map := rfl
@[simp] theorem releaseHeld_leak (n : Nat) (s : State) : (releaseHeld n s).leak = s.leak := rfl
@[simp] theorem releaseHeld_keyline (n : Nat) (s : State) : (releaseHeld n s).keyline = s.keyline := rfl
@[simp] theorem releaseHeld_flags (n : Nat) (s : State) : (releaseHeld n s).flags = s.flags := rfl

@[simp] theorem noteFault_pending (n i : Nat) (r : Reader) (s : State) : (noteFault n i r s).pending = s.pending := rfl
@[simp] theorem noteFault_now (n i : Nat) (r : Reader) (s : State) : (noteFault n i r s).now = s.now := rfl
@[simp] theorem noteFault_heldInReset (n i : Nat) (r : Reader) (s : State) : (noteFault n i r s).heldInReset = s.heldInReset := rfl
@[simp] theorem noteFault_link (n i : Nat) (r : Reader) (s : State) : (noteFault n i r s).link = s.link := rfl
@[simp] theorem noteFault_params (n i : Nat) (r : Reader) (s : State) : (noteFault n i r s).params = s.params := rfl
@[simp] theorem noteFault_organ (n i : Nat) (r : Reader) (s : State) : (noteFault n i r s).organ = s.organ := rfl
@[simp] theorem noteFault_listen (n i : Nat) (r : Reader) (s : State) : (noteFault n i r s).listen = s.listen := rfl
@[simp] theorem noteFault_follow (n i : Nat) (r : Reader) (s : State) : (noteFault n i r s).follow = s.follow := rfl
@[simp] theorem noteFault_player (n i : Nat) (r : Reader) (s : State) : (noteFault n i r s).player = s.player := rfl
@[simp] theorem noteFault_keys (n i : Nat) (r : Reader) (s : State) : (noteFault n i r s).keys = s.keys := rfl
@[simp] theorem noteFault_map (n i : Nat) (r : Reader) (s : State) : (noteFault n i r s).map = s.map := rfl
@[simp] theorem noteFault_leak (n i : Nat) (r : Reader) (s : State) : (noteFault n i r s).leak = s.leak := rfl
@[simp] theorem noteFault_keyline (n i : Nat) (r : Reader) (s : State) : (noteFault n i r s).keyline = s.keyline := rfl

@[simp] theorem writeDivision_pending (d : Division) (r : DivisionRec) (s : State) : (writeDivision d r s).pending = s.pending := rfl
@[simp] theorem writeDivision_now (d : Division) (r : DivisionRec) (s : State) : (writeDivision d r s).now = s.now := rfl
@[simp] theorem writeDivision_heldInReset (d : Division) (r : DivisionRec) (s : State) : (writeDivision d r s).heldInReset = s.heldInReset := rfl
@[simp] theorem writeDivision_link (d : Division) (r : DivisionRec) (s : State) : (writeDivision d r s).link = s.link := rfl
@[simp] theorem writeDivision_params (d : Division) (r : DivisionRec) (s : State) : (writeDivision d r s).params = s.params := rfl
@[simp] theorem writeDivision_store (d : Division) (r : DivisionRec) (s : State) : (writeDivision d r s).store = s.store := rfl
@[simp] theorem writeDivision_listen (d : Division) (r : DivisionRec) (s : State) : (writeDivision d r s).listen = s.listen := rfl
@[simp] theorem writeDivision_follow (d : Division) (r : DivisionRec) (s : State) : (writeDivision d r s).follow = s.follow := rfl
@[simp] theorem writeDivision_player (d : Division) (r : DivisionRec) (s : State) : (writeDivision d r s).player = s.player := rfl
@[simp] theorem writeDivision_keys (d : Division) (r : DivisionRec) (s : State) : (writeDivision d r s).keys = s.keys := rfl
@[simp] theorem writeDivision_leak (d : Division) (r : DivisionRec) (s : State) : (writeDivision d r s).leak = s.leak := rfl
@[simp] theorem writeDivision_keyline (d : Division) (r : DivisionRec) (s : State) : (writeDivision d r s).keyline = s.keyline := rfl
@[simp] theorem writeDivision_flags (d : Division) (r : DivisionRec) (s : State) : (writeDivision d r s).flags = s.flags := rfl

@[simp] theorem writeRegistration_pending (i : Nat) (r : Option Registration) (s : State) : (writeRegistration i r s).pending = s.pending := rfl
@[simp] theorem writeRegistration_now (i : Nat) (r : Option Registration) (s : State) : (writeRegistration i r s).now = s.now := rfl
@[simp] theorem writeRegistration_heldInReset (i : Nat) (r : Option Registration) (s : State) : (writeRegistration i r s).heldInReset = s.heldInReset := rfl
@[simp] theorem writeRegistration_link (i : Nat) (r : Option Registration) (s : State) : (writeRegistration i r s).link = s.link := rfl
@[simp] theorem writeRegistration_params (i : Nat) (r : Option Registration) (s : State) : (writeRegistration i r s).params = s.params := rfl
@[simp] theorem writeRegistration_store (i : Nat) (r : Option Registration) (s : State) : (writeRegistration i r s).store = s.store := rfl
@[simp] theorem writeRegistration_listen (i : Nat) (r : Option Registration) (s : State) : (writeRegistration i r s).listen = s.listen := rfl
@[simp] theorem writeRegistration_follow (i : Nat) (r : Option Registration) (s : State) : (writeRegistration i r s).follow = s.follow := rfl
@[simp] theorem writeRegistration_player (i : Nat) (r : Option Registration) (s : State) : (writeRegistration i r s).player = s.player := rfl
@[simp] theorem writeRegistration_keys (i : Nat) (r : Option Registration) (s : State) : (writeRegistration i r s).keys = s.keys := rfl
@[simp] theorem writeRegistration_map (i : Nat) (r : Option Registration) (s : State) : (writeRegistration i r s).map = s.map := rfl
@[simp] theorem writeRegistration_leak (i : Nat) (r : Option Registration) (s : State) : (writeRegistration i r s).leak = s.leak := rfl
@[simp] theorem writeRegistration_keyline (i : Nat) (r : Option Registration) (s : State) : (writeRegistration i r s).keyline = s.keyline := rfl
@[simp] theorem writeRegistration_flags (i : Nat) (r : Option Registration) (s : State) : (writeRegistration i r s).flags = s.flags := rfl

@[simp] theorem pullInDeadlines_pending (s : State) : (pullInDeadlines s).pending = s.pending := rfl
@[simp] theorem pullInDeadlines_now (s : State) : (pullInDeadlines s).now = s.now := rfl
@[simp] theorem pullInDeadlines_heldInReset (s : State) : (pullInDeadlines s).heldInReset = s.heldInReset := rfl
@[simp] theorem pullInDeadlines_link (s : State) : (pullInDeadlines s).link = s.link := rfl
@[simp] theorem pullInDeadlines_params (s : State) : (pullInDeadlines s).params = s.params := rfl
@[simp] theorem pullInDeadlines_store (s : State) : (pullInDeadlines s).store = s.store := rfl
@[simp] theorem pullInDeadlines_organ (s : State) : (pullInDeadlines s).organ = s.organ := rfl
@[simp] theorem pullInDeadlines_listen (s : State) : (pullInDeadlines s).listen = s.listen := rfl
@[simp] theorem pullInDeadlines_follow (s : State) : (pullInDeadlines s).follow = s.follow := rfl
@[simp] theorem pullInDeadlines_player (s : State) : (pullInDeadlines s).player = s.player := rfl
@[simp] theorem pullInDeadlines_keys (s : State) : (pullInDeadlines s).keys = s.keys := rfl
@[simp] theorem pullInDeadlines_leak (s : State) : (pullInDeadlines s).leak = s.leak := rfl
@[simp] theorem pullInDeadlines_keyline (s : State) : (pullInDeadlines s).keyline = s.keyline := rfl
@[simp] theorem pullInDeadlines_flags (s : State) : (pullInDeadlines s).flags = s.flags := rfl

@[simp] theorem silenceMap_pending (s : State) : (silenceMap s).pending = s.pending := rfl
@[simp] theorem silenceMap_now (s : State) : (silenceMap s).now = s.now := rfl
@[simp] theorem silenceMap_heldInReset (s : State) : (silenceMap s).heldInReset = s.heldInReset := rfl
@[simp] theorem silenceMap_link (s : State) : (silenceMap s).link = s.link := rfl
@[simp] theorem silenceMap_params (s : State) : (silenceMap s).params = s.params := rfl
@[simp] theorem silenceMap_store (s : State) : (silenceMap s).store = s.store := rfl
@[simp] theorem silenceMap_organ (s : State) : (silenceMap s).organ = s.organ := rfl
@[simp] theorem silenceMap_listen (s : State) : (silenceMap s).listen = s.listen := rfl
@[simp] theorem silenceMap_follow (s : State) : (silenceMap s).follow = s.follow := rfl
@[simp] theorem silenceMap_player (s : State) : (silenceMap s).player = s.player := rfl
@[simp] theorem silenceMap_keys (s : State) : (silenceMap s).keys = s.keys := rfl
@[simp] theorem silenceMap_keyline (s : State) : (silenceMap s).keyline = s.keyline := rfl
@[simp] theorem silenceMap_flags (s : State) : (silenceMap s).flags = s.flags := rfl

@[simp] theorem takeDown_pending (f : Time) (v : Voice) (d : Division) (k : Nat) (s : State) : (takeDown f v d k s).pending = s.pending := rfl
@[simp] theorem takeDown_now (f : Time) (v : Voice) (d : Division) (k : Nat) (s : State) : (takeDown f v d k s).now = s.now := rfl
@[simp] theorem takeDown_heldInReset (f : Time) (v : Voice) (d : Division) (k : Nat) (s : State) : (takeDown f v d k s).heldInReset = s.heldInReset := rfl
@[simp] theorem takeDown_link (f : Time) (v : Voice) (d : Division) (k : Nat) (s : State) : (takeDown f v d k s).link = s.link := rfl
@[simp] theorem takeDown_params (f : Time) (v : Voice) (d : Division) (k : Nat) (s : State) : (takeDown f v d k s).params = s.params := rfl
@[simp] theorem takeDown_store (f : Time) (v : Voice) (d : Division) (k : Nat) (s : State) : (takeDown f v d k s).store = s.store := rfl
@[simp] theorem takeDown_organ (f : Time) (v : Voice) (d : Division) (k : Nat) (s : State) : (takeDown f v d k s).organ = s.organ := rfl
@[simp] theorem takeDown_listen (f : Time) (v : Voice) (d : Division) (k : Nat) (s : State) : (takeDown f v d k s).listen = s.listen := rfl
@[simp] theorem takeDown_follow (f : Time) (v : Voice) (d : Division) (k : Nat) (s : State) : (takeDown f v d k s).follow = s.follow := rfl
@[simp] theorem takeDown_player (f : Time) (v : Voice) (d : Division) (k : Nat) (s : State) : (takeDown f v d k s).player = s.player := rfl
@[simp] theorem takeDown_keys (f : Time) (v : Voice) (d : Division) (k : Nat) (s : State) : (takeDown f v d k s).keys = s.keys := rfl
@[simp] theorem takeDown_keyline (f : Time) (v : Voice) (d : Division) (k : Nat) (s : State) : (takeDown f v d k s).keyline = s.keyline := rfl
@[simp] theorem takeDown_flags (f : Time) (v : Voice) (d : Division) (k : Nat) (s : State) : (takeDown f v d k s).flags = s.flags := rfl

@[simp] theorem presentRegistration_pending (n : Nat) (r : Registration) (s : State) : (presentRegistration n r s).pending = s.pending := rfl
@[simp] theorem presentRegistration_now (n : Nat) (r : Registration) (s : State) : (presentRegistration n r s).now = s.now := rfl
@[simp] theorem presentRegistration_heldInReset (n : Nat) (r : Registration) (s : State) : (presentRegistration n r s).heldInReset = s.heldInReset := rfl
@[simp] theorem presentRegistration_link (n : Nat) (r : Registration) (s : State) : (presentRegistration n r s).link = s.link := rfl
@[simp] theorem presentRegistration_params (n : Nat) (r : Registration) (s : State) : (presentRegistration n r s).params = s.params := rfl
@[simp] theorem presentRegistration_store (n : Nat) (r : Registration) (s : State) : (presentRegistration n r s).store = s.store := rfl
@[simp] theorem presentRegistration_organ (n : Nat) (r : Registration) (s : State) : (presentRegistration n r s).organ = s.organ := rfl
@[simp] theorem presentRegistration_listen (n : Nat) (r : Registration) (s : State) : (presentRegistration n r s).listen = s.listen := rfl
@[simp] theorem presentRegistration_follow (n : Nat) (r : Registration) (s : State) : (presentRegistration n r s).follow = s.follow := rfl
@[simp] theorem presentRegistration_player (n : Nat) (r : Registration) (s : State) : (presentRegistration n r s).player = s.player := rfl
@[simp] theorem presentRegistration_keys (n : Nat) (r : Registration) (s : State) : (presentRegistration n r s).keys = s.keys := rfl
@[simp] theorem presentRegistration_map (n : Nat) (r : Registration) (s : State) : (presentRegistration n r s).map = s.map := rfl
@[simp] theorem presentRegistration_leak (n : Nat) (r : Registration) (s : State) : (presentRegistration n r s).leak = s.leak := rfl
@[simp] theorem presentRegistration_flags (n : Nat) (r : Registration) (s : State) : (presentRegistration n r s).flags = s.flags := rfl

@[simp] theorem elapse_now (dt : Nat) (s : State) : (elapse dt s).now = s.now + BitVec.ofNat 32 dt := rfl
@[simp] theorem raise_flags (k : Kind) (s : State) : (raise k s).flags = raiseFlags s.now k s.flags := rfl
@[simp] theorem pullInDeadlines_stops (s : State) : (pullInDeadlines s).map.stops = s.map.stops := rfl
@[simp] theorem pullInDeadlines_expression (s : State) :
    (pullInDeadlines s).map.expression = s.map.expression := rfl
@[simp] theorem silenceMap_stops (s : State) : (silenceMap s).map.stops = s.map.stops := rfl
@[simp] theorem silenceMap_expression (s : State) : (silenceMap s).map.expression = s.map.expression := rfl
@[simp] theorem silenceMap_keyCells (s : State) : (silenceMap s).map.keys = ⟨[]⟩ := rfl
@[simp] theorem setKey_stops (m : SoundingMap) (d : Division) (k : Nat) (e : KeyEntry) :
    (setKey m d k e).stops = m.stops := rfl
@[simp] theorem setKey_expression (m : SoundingMap) (d : Division) (k : Nat) (e : KeyEntry) :
    (setKey m d k e).expression = m.expression := rfl

/-- A command taken while the part is in service (R185). -/
theorem onService_live (dt : Nat) (f : State → State) (s : State) (h : s.heldInReset = false) :
    onService dt f s = .next (f (elapse dt s)) := by simp [onService, h]

/-- A command taken while the part is held in reset does nothing (R185). -/
theorem onService_held (dt : Nat) (f : State → State) (s : State) (h : s.heldInReset = true) :
    onService dt f s = .next s := by simp [onService, h]

/-- Every command taken in service or in reset answers a next state. -/
theorem onService_answers (dt : Nat) (f : State → State) (s : State) : ∃ t, onService dt f s = .next t := by
  unfold onService
  split
  · exact ⟨_, rfl⟩
  · exact ⟨_, rfl⟩

/-- A request that arrives on an idle link is taken at once (R168). -/
theorem request_of_idle (r : Request) (tag : Byte) (s : State) (hq : s.link.queue = [])
    (hh : s.link.inHand = false) (hs : s.link.sending = none) (hb : s.link.busy = []) :
    request tag r s
      = takeRequest ⟨BitVec.ofNat 8 (kindOf r), tag, .request r⟩
          { s with link := { s.link with queue := [⟨BitVec.ofNat 8 (kindOf r), tag, .request r⟩] } } := by
  simp [request, submit, hq, Config.requestPlaces, pump, hh, hs, hb]

end Sys2Proof.Machine
end

