-- ==== Sys2Proof/Tests/Slice0.lean ====
section
/-! SUPPORT. The author's own tests: ill-formed commands that WellFormed refuses, checks against worked
figures of the manual, one step of each kind on small states, and, for every statement with
hypotheses, a state and operands that meet them together. -/

namespace Sys2Proof.Tests

set_option Elab.async false

open Sys2Proof.Machine Sys2Proof.Claims

/-! ### WellFormed: one ill-formed term for each check -/

def noteField : NoteFields := ⟨0, 60, 0⟩
def stepField : StepFields := ⟨0, 192, 1, .absent, [noteField]⟩
def headerField : HeaderFields := ⟨101, 4, 600000, 400000, 900000, 2, 1, .absent, 6⟩
def divisionField : DivisionFields := ⟨1, 36, 61, 400, 200, 300, 1, 8000, 16, 1⟩
def stops32 : List Nat := List.replicate 32 0
def registrationField : RegistrationFields :=
  ⟨1, 12, 1, 0, ⟨1, 1, 1, 1, 6, 6⟩, ⟨stops32, stops32, stops32, stops32, stops32⟩, ⟨16, 16, 16, 16, 16⟩, 12⟩
def entryField : EntryFields := ⟨1, 0, 16, 0, 192, 0⟩
def startField : StartFields := ⟨0, 2, 0, 1, 1, 192, 0, 0, 0, []⟩
def amendField : AmendFields := ⟨[], .absent, .absent⟩
/-- A word-clock period whose low half carries 0x8001; and an input that carried `n` of them. -/
def wordPeriod : WordPeriod := ⟨true :: List.replicate 14 false ++ [true], [true, true]⟩
def carried (n : Nat) : HopInput := ⟨true, List.replicate n wordPeriod⟩
def hopField : HopInput := carried 128

theorem wf_good_commands :
    WellFormed.command (.tuneSteps 0 1 0 0 [stepField]) = true
      ∧ WellFormed.command (.tuneBegin 5 2 0 headerField) = true
      ∧ WellFormed.command (.setDivision 0 3 1 divisionField) = true
      ∧ WellFormed.command (.setRegistration 0 4 0 (.present registrationField)) = true
      ∧ WellFormed.command (.startHymn 0 5 { startField with overrides := [entryField] }) = true
      ∧ WellFormed.command (.amendPlan 0 6 { amendField with entries := [entryField] }) = true
      ∧ WellFormed.command (.hopComplete 80 hopField hopField) = true
      ∧ WellFormed.command (.byteReceived 1 (List.replicate 10 false)) = true := by decide +kernel

theorem wf_interval_too_long : WellFormed.command (.go 2147483648 0) = false := by decide
theorem wf_interval_of_event_too_long : WellFormed.command (.frameStart 2147483648) = false := by decide
theorem wf_param_number_no_byte : WellFormed.command (.setParam 0 0 256 0) = false := by decide
theorem wf_param_value_too_high : WellFormed.command (.setParam 0 0 1 2147483648) = false := by decide
theorem wf_param_value_too_low : WellFormed.command (.setParam 0 0 1 (-2147483649)) = false := by decide
theorem wf_division_speech_no_word :
    WellFormed.command (.setDivision 0 0 1 { divisionField with speech := 65536 }) = false := by decide
theorem wf_registration_stops_short :
    WellFormed.command (.setRegistration 0 0 0 (.present
      { registrationField with stops := ⟨[], stops32, stops32, stops32, stops32⟩ })) = false := by decide
theorem wf_registration_routing_no_byte :
    WellFormed.command (.setRegistration 0 0 0 (.present
      { registrationField with routing := ⟨1, 1, 1, 1, 1, 256⟩ })) = false := by decide
theorem wf_presence_byte_in_its_values :
    WellFormed.command (.setRegistration 0 0 0 (.invalid 1)) = false := by decide
theorem wf_presence_byte_no_byte :
    WellFormed.command (.setRegistration 0 0 0 (.invalid 256)) = false := by decide
theorem wf_header_nominal_no_long :
    WellFormed.command (.tuneBegin 0 0 0 { headerField with nominal := 4294967296 }) = false := by decide
theorem wf_header_intro_no_word :
    WellFormed.command (.tuneBegin 0 0 0 { headerField with intro := .present ⟨0, 65536⟩ }) = false := by
  decide
theorem wf_step_notes_too_many :
    WellFormed.command (.tuneSteps 0 0 0 0 [{ stepField with notes := List.replicate 256 noteField }])
      = false := by decide +kernel
theorem wf_step_note_no_byte :
    WellFormed.command (.tuneSteps 0 0 0 0 [{ stepField with notes := [⟨0, 256, 0⟩] }]) = false := by decide
theorem wf_step_fermata_no_byte :
    WellFormed.command (.tuneSteps 0 0 0 0 [{ stepField with fermata := .present ⟨0, 256⟩ }]) = false := by
  decide
theorem wf_read_count_no_byte : WellFormed.command (.tuneRead 0 0 0 0 256) = false := by decide
theorem wf_transposition_no_signed_byte :
    WellFormed.command (.startHymn 0 0 { startField with transposition := 128 }) = false := by decide
theorem wf_override_transposition_no_signed_byte :
    WellFormed.command (.startHymn 0 0 { startField with
      overrides := [{ entryField with transposition := -129 }] }) = false := by decide
theorem wf_amend_count_no_byte :
    WellFormed.command (.amendPlan 0 0 { amendField with verseCount := .present 256 }) = false := by decide
theorem wf_enables_no_three_bytes : WellFormed.command (.setNotices 0 0 1 16777216) = false := by decide
theorem wf_flags_no_three_bytes : WellFormed.command (.ackFlags 0 0 16777216) = false := by decide
theorem wf_amen_byte_no_byte : WellFormed.command (.stopHymnEndOfVerse 0 0 256) = false := by decide
theorem wf_hop_low_half_not_sixteen_bits :
    WellFormed.command (.hopComplete 0 ⟨true, [{ wordPeriod with low := [true] }]⟩ hopField) = false := by
  decide +kernel
theorem wf_byte_time_without_start_bit :
    WellFormed.command (.byteReceived 0 (List.replicate 10 true)) = false := by decide
theorem wf_byte_time_of_nine_levels :
    WellFormed.command (.byteReceived 0 (List.replicate 9 false)) = false := by decide
theorem wf_body_too_long :
    WellFormed.command (.receiveFrame 0 1 0 (List.replicate 1023 0)) = false := by decide +kernel

/-! ### Worked figures -/

/-- R166: the check of the nine ASCII digits "123456789" is 0x29B1. -/
theorem check_of_nine_digits :
    check [0x31, 0x32, 0x33, 0x34, 0x35, 0x36, 0x37, 0x38, 0x39] = 0x29B1#16 := by decide +kernel

/-- Chapter 1, allocation and fragmentation: the free runs after each request. -/
theorem allocation_example :
    giveRun 0 5000 [(9000, 3288)] = [(0, 5000), (9000, 3288)]
      ∧ takeRun 3500 [(0, 5000), (9000, 3288)] = some (0, [(3500, 1500), (9000, 3288)])
      ∧ takeRun 3300 [(3500, 1500), (9000, 3288)] = none
      ∧ giveRun 5000 4000 [(3500, 1500), (9000, 3288)] = [(3500, 8788)]
      ∧ takeRun 3300 [(3500, 8788)] = some (3500, [(6800, 5488)]) := by decide

/-- Chapter 2: lowest pitch 100 with 64 keys is taken with 28, lowest pitch 140 as 127 with one key. -/
theorem division_limits_example :
    (clampDivision { divisionField with lowest := 100, keyCount := 64 }).keyCount = 28
      ∧ (clampDivision { divisionField with lowest := 140 }).lowest = 127
      ∧ (clampDivision { divisionField with lowest := 140 }).keyCount = 1 := by decide

/-- Chapter 3, one declaration: the tests of hops 3, 4 and 5 and the floor after each. -/
theorem declaration_example :
    let hop (n : Nat) : Hop := ⟨n, [], true, true⟩
    let l (a b c floor : Nat) : Listen :=
      { State.reset.listen with recent := (c, b, a), floor := floor }
    let test (a b c next floor : Nat) : Bool := declares paramDefaults (l a b c floor) (hop b) next
    test 52 90 90 90 39 = false ∧ test 90 90 61 61 42 = true ∧ test 90 61 44 44 45 = false
      ∧ moveFloor 40 38 = 39 ∧ moveFloor 39 52 = 39 ∧ moveFloor 39 90 = 42 ∧ moveFloor 42 90 = 45
      ∧ moveFloor 45 61 = 46 := by decide +kernel

/-- R41: a full-scale band reads 255, and a band 48 dB under full scale lies 48 dB above the floor, at 128
steps of 0.375 dB; at or under 96 dB below full scale it reads 0. Full scale is 10^12 (log 7). -/
theorem band_level_example :
    bandLevel 1000000000000 = 255 ∧ bandLevel 15848932 = 128 ∧ bandLevel 15848931 = 127
      ∧ bandLevel 251 = 0 ∧ bandLevel 0 = 0 := by decide +kernel

/-- R38: 0x8001 is −32 767 in two's complement, 0x8000 −32 768, 0xFFFF −1 and 0x7FFF 32 767, whatever is
sent while the word clock is high. -/
theorem sample_example :
    samplesOf (carried 2) = [-32767, -32767]
      ∧ sampleOf { wordPeriod with low := true :: List.replicate 15 false } = -32768
      ∧ sampleOf { wordPeriod with low := List.replicate 16 true } = -1
      ∧ sampleOf ⟨false :: List.replicate 15 true, []⟩ = 32767 := by decide +kernel

/-! ### Sample states -/

def great : DivisionRec := ⟨true, 36, 61, 250, 150, 1100, true, 30000, 14, false⟩
def pedal : DivisionRec := ⟨true, 24, 32, 900, 400, 1250, true, 45000, 8, false⟩
def registration0 : Registration :=
  { first := 1, last := 12, repeats := 1, base := 0,
    routing := ⟨some .d1, some .d1, some .d1, none, some .d4, none⟩,
    stops := ⟨some 5#32, none, none, some 0#32, none⟩, expression := ⟨none, none, none, none, none⟩,
    lift := 8 }
def organ0 : Organ :=
  { divisions := ⟨great, divisionAfterReset, divisionAfterReset, pedal, divisionAfterReset⟩,
    registrations := ⟨[(0, some registration0)]⟩ }

/-- Two verse steps and an Amen of one step, at entries 0 to 5. -/
def tuneFields : List StepFields :=
  [stepField, { stepField with position := 192, notes := [⟨0, 62, 0⟩] },
   { stepField with position := 0, duration := 384, follow := 0 }]
def loading : Slot × Table PoolEntry := writeSteps (loadingSlot (headerOf headerField) 0) ⟨[]⟩ tuneFields
def readySlot0 : Slot := { loading.1 with state := .READY, ends := some (sectionEnds loading.1) }

/-- After the clearing: the store is READY and empty. -/
def ready : State := { State.reset with store := { State.reset.store with clearEnd := none } }
/-- Slot 0 as given, its pool entries written. -/
def withSlot (sl : Slot) (s : State) : State :=
  { s with store := { s.store with slots := ⟨[(0, some sl)]⟩, pool := loading.2, freeRuns := [(6, 12282)] } }
/-- An organ, a tune in slot 0, and the Keyline RUNNING with its next frame at 20. -/
def armed : State :=
  withSlot readySlot0 { ready with organ := organ0,
                                   keyline := { ready.keyline with state := .RUNNING, nextStart := some 20#32 } }
def plan0 : Plan :=
  { intro := false, amen := true, cued := true, gap := ⟨192, false⟩, join := false, transposition := 0,
    entries := [⟨1, .PLAY, none, 0, ⟨192, false⟩, true, some 0⟩, ⟨2, .PLAY, none, 0, ⟨192, false⟩, false, none⟩] }
/-- Verse 1 being walked, its anchor at now, the steps of the tune not yet read. -/
def walking : State :=
  let p := { playerAfterReset with
    state := .VERSE, sec := some 1, slot := some 0, plan := some plan0,
    registration := some (0, registration0), channels := channelsOf registration0 0 }
  let s := withSlot { readySlot0 with state := .PLAYING } armed
  { s with player := p,
           follow := { followAfterReset with state := .TRACK, anchor := ⟨1, 0⟩, cursor := ⟨1, 0⟩ } }
/-- A cued wait of a fermata in the given sub-phase. -/
def fermataWait (x : WaitPhase) : Wait := ⟨.fermata, x, ⟨1, 192⟩, 0#32, 0#32, 0#32, 0#32, false⟩
def sampleStep : WindowStep :=
  ⟨1, 0, 0, 192, true, some ⟨.CUED, 8⟩, [⟨.S, 60, false⟩], none, false, true, none, false⟩
def fermataHeld (x : WaitPhase) : State :=
  { walking with player := { walking.player with
      state := .FERMATA, wait := some (fermataWait x),
      fermata := some ⟨sampleStep, .CUED, 0#32, 12000, 0#32⟩ } }
/-- Key 24 of the Great held by S until its deadline at 120 000. -/
def sounding (s : State) : State :=
  { s with map := { s.map with keys := ⟨[(88, ⟨[.S], 120000#32⟩)]⟩ }, leak := ⟨[(0, ⟨1, 0#32, 1600#32⟩)]⟩ }

theorem ready_idle : LinkIdle ready := ⟨rfl, rfl, rfl, rfl, rfl⟩
theorem armed_idle : LinkIdle armed := ⟨rfl, rfl, rfl, rfl, rfl⟩
theorem walking_idle : LinkIdle walking := ⟨rfl, rfl, rfl, rfl, rfl⟩
theorem fermata_idle (x : WaitPhase) : LinkIdle (fermataHeld x) := ⟨rfl, rfl, rfl, rfl, rfl⟩

/-! ### One step of each kind -/

/-- The state after a step. -/
def after (o : Host.Outcome State Fault Refusal) : Option State :=
  match o with
  | .next s => some s
  | .fault _ => none
  | .refused _ => none

def okReply (kind tag : Byte) (fields : List Byte) : Option Sending :=
  some ⟨linkFrame kind tag (0 :: fields), true, false⟩
def sent (o : Host.Outcome State Fault Refusal) : Option Sending := (after o).bind (·.link.sending)

/-- R166, R169: the reply to SET_NOTICES as its frame, byte by byte, the check aside. -/
theorem test_reply_frame :
    (sent (exec (.setNotices 0 7 1 5) ready)).map (fun x => x.frame.take 10)
      = some [0xC3, 7, 0, 0x98, 7, 0, 1, 5, 0, 0] := by decide +kernel
/-- R165: its first two bytes, 0xC3 and 7, as the levels of the transmit line. -/
theorem test_reply_on_the_line :
    (after (exec (.setNotices 0 7 1 5) ready)).map (fun t =>
        match transmitLine t with
        | .carries levels => levels.take 20
        | .idle _ => [])
      = some [false, true, true, false, false, false, false, true, true, true,
              false, true, true, true, false, false, false, false, false, true] := by decide +kernel
/-- R185: in reset the line that carries that reply is held at the level of a stop bit, high. -/
theorem test_line_held_in_reset :
    ((after (exec (.setNotices 0 7 1 5) ready)).bind (fun t => after (exec (.heldInReset 0 .supply) t))).map
      transmitLine = some (.idle true) := by decide +kernel
/-- R162: the first frame start lies one interval of 20 units from now. -/
theorem test_keyline_enable_on :
    (after (exec (.keylineEnableOn 5 9) ready)).map (fun t => (t.keyline.state, t.keyline.nextStart))
      = some (.SWEEP, some 25#32) := by decide +kernel
theorem test_identify :
    (sent (exec (.identify 0 7) ready)).map (fun x => (x.frame.drop 3).take 5)
      = some [0x81#8, 7#8, 0#8, 0x6C#8, 0x02#8] := by decide +kernel
/-- R181: the firm lead's bounds follow the frame interval; 20 is taken as 100. -/
theorem test_set_param_clamps_the_firm_lead :
    (after (exec (.setParam 0 1 11 20) ready)).map (·.params.firmLead) = some 100 := by decide +kernel
theorem test_set_division :
    (after (exec (.setDivision 0 1 1 divisionField) ready)).map (fun t => (divRec t.organ .d1).keyCount)
      = some 61 := by decide +kernel
theorem test_set_registration_limits_the_lift :
    (after (exec (.setRegistration 0 1 3 (.present { registrationField with lift := 99 })) armed)).map
      (fun t => (registrationAt t.organ 3).map (·.lift)) = some (some 48) := by decide +kernel
theorem test_tune_begin_takes_the_first_run :
    (after (exec (.tuneBegin 0 1 7 headerField) armed)).map (fun t => (t.store.freeRuns, (slotRec t.store 7).map (·.start)))
      = some ([(12, 12276)], some 6) := by decide +kernel
/-- Chapter 1, loading a short tune, with two verse steps and an Amen step. -/
theorem test_tune_steps_writes :
    (after (exec (.tuneSteps 0 1 0 0 tuneFields) (withSlot (loadingSlot (headerOf headerField) 0) ready))).map
      (fun t => (slotRec t.store 0).map (fun sl => (sl.stepsWritten, sl.entriesWritten, sl.lastPosition)))
      = some (some (3, 6, some 0)) := by decide +kernel
/-- R5: the last position written is absent before the first step of the Amen part. -/
theorem test_last_position_absent_at_a_part :
    (after (exec (.tuneSteps 0 1 0 0 (tuneFields.take 2))
      (withSlot (loadingSlot (headerOf headerField) 0) ready))).map
      (fun t => (slotRec t.store 0).map (fun sl => (sl.stepsWritten, sl.lastPosition)))
      = some (some (2, none)) := by decide +kernel
theorem test_tune_end_gives_the_ends :
    sent (exec (.tuneEnd 0 1 0) (withSlot loading.1 ready))
      = okReply 0x8C#8 1#8 [0x80, 0x01, 1, 0x80, 0x01, 0] := by decide +kernel
theorem test_tune_read_good_step :
    sent (exec (.tuneRead 0 1 0 1 1) armed)
      = okReply 0x8E#8 1#8 [1, 1, 0, 0, 0xC0, 0, 0xC0, 0, 1, 0, 1, 0, 62, 0] := by decide +kernel
theorem test_tune_read_faulty_step :
    (after (exec (.tuneRead 0 1 0 1 1) { armed with store := { armed.store with pool := ⟨[]⟩ } })).map
      (fun t => (t.store.faultHeld, flagUp t.flags .FAULTY_STEP)) = some (some (0, 1), true) := by
  decide +kernel
theorem test_tune_erase_joins_the_runs :
    (after (exec (.tuneErase 0 1 0) armed)).map (·.store.freeRuns) = some [(0, 12288)] := by decide +kernel
theorem test_clear_store :
    (after (exec (.clearStore 3 1) ready)).map (·.store.clearEnd) = some (some 253#32) := by decide +kernel
theorem test_clearing_end_from_reset :
    (after (exec (.clearingEnd 250) State.reset)).map (fun t => (t.store.clearEnd, flagUp t.flags .STORE_READY))
      = some (none, true) := by decide +kernel
/-- R79: the first anchor lies the firm lead of 300 and the Pedal's speech advance of 900 from now. -/
theorem test_start_hymn_cued :
    (after (exec (.startHymn 0 1 startField) armed)).map
      (fun t => (t.player.state, t.player.fence, t.follow.anchorTime, t.follow.state))
      = some (.START_WAIT, .CLOSED, 1200#32, .LEAD) := by decide +kernel
theorem test_start_hymn_at_once :
    (after (exec (.startHymn 0 1 { startField with startKind := 0 }) armed)).map
      (fun t => (t.player.state, t.player.sec, t.player.window.length))
      = some (.VERSE, some 1, 2) := by decide +kernel
/-- R63, R127: the first anchor is made known, so the firm boundary lies the firm lead of 300 from now. -/
theorem test_start_hymn_firms :
    (after (exec (.startHymn 5 1 startField) armed)).map (·.keys.boundary) = some 305#32 := by decide +kernel
theorem test_go_resumes_a_fermata :
    (after (exec (.go 0 1) (fermataHeld .WAITING))).map
      (fun t => (t.player.wait.map (·.phase), t.follow.anchor, t.follow.anchorTime))
      = some (some .BREATH, ⟨1, 192⟩, 2500#32) := by decide +kernel
theorem test_stop_now_releases :
    (after (exec (.stopHymnNow 0 1 0) (sounding walking))).map
      (fun t => (t.player.state, t.keys.events.map (fun e => (e.kind, e.key, e.firm))))
      = some (.STOPPING, [(.UP, 24, true)]) := by decide +kernel
theorem test_stop_end_of_verse_drops :
    (after (exec (.stopHymnEndOfVerse 0 1 1) walking)).map
      (fun t => t.player.plan.map (fun p => (p.entries.length, p.amen))) = some (some (1, false)) := by
  decide +kernel
theorem test_all_off :
    (after (exec (.allOff 0 1) (sounding walking))).map
      (fun t => (t.player.state, anyDown t.map, t.keyline.state, (leakEntry t.leak 0).held))
      = some (.IDLE, false, .SWEEP, 0) := by decide +kernel
theorem test_reserve_plan :
    (after (exec (.reservePlan 0 1) walking)).map (·.player.reservation) = some (.HELD 2) := by decide +kernel
theorem test_amend_plan :
    (after (exec (.amendPlan 0 1 { amendField with entries := [{ entryField with verse := 2, mode := 1 }] })
      { walking with player := { walking.player with reservation := .HELD 2 } })).map
      (fun t => (t.player.plan.map (fun p => p.entries.map (·.mode)), t.player.reservation))
      = some (some [.PLAY, .SILENT], .NONE) := by decide +kernel
theorem test_input_lost_moves_the_pace :
    (after (exec (.inputLost 7 .A) ready)).map (fun t => (pacing t.listen, t.listen.hopBegan))
      = some (some .B, 7#32) := by decide +kernel
/-- R45, R46: hop 4 of the example of chapter 3 is declared when the hop after it completes. -/
theorem test_hop_lowers_the_refractory_deadline :
    (after (exec (.hopComplete 80 hopField hopField) { ready with listen := { ready.listen with
        candidate := some ⟨61, List.replicate 12 0, true, true⟩, floor := 45, refractory := 7 } })).map
      (fun t => (t.listen.refractory, t.listen.floor)) = some (6, 46) := by decide +kernel
/-- R40: a hop is 128 samples of the pacing channel; with 127 it is not complete. -/
theorem test_hop_of_128_samples :
    (after (exec (.hopComplete 80 (carried 128) (carried 3)) ready)).map (·.listen.analyses) = some 1
      ∧ (after (exec (.hopComplete 80 (carried 127) (carried 128)) ready)).map (·.listen.analyses) = some 0 := by
  decide +kernel
/-- R37: the status report ends with the index latched for each verse, 0 for verse 1 and none for 2. -/
theorem test_status_carries_the_latched_indexes :
    (statusBytes walking).reverse.take 4 = [0, 0, 1, 2] := by decide +kernel
/-- Chapter 5, a fermata held: the hold of factor 8 over 384 su at 600 000 µs is 24 000 units. -/
theorem fermata_hold_example : holdOf walking 8 384 = 24000 := by decide +kernel
/-- Chapter 7, a pedal re-strike: the fresh deadline, then the tail deadline, and the count. -/
theorem test_pedal_restrike :
    let struck := takeDown 3005220#32 .PED .d4 9 armed
    let gone := takeUp 3011220#32 .PED .d4 9 struck
    (keyEntry struck.map .d4 9).deadline = 3125220#32 ∧ leakEntry struck.leak 9 = ⟨1, 0#32, 3006970#32⟩
      ∧ keyDown gone.map .d4 9 = false ∧ leakEntry gone.leak 9 = ⟨0, 3056220#32, 3006970#32⟩ := by
  decide +kernel
/-- Chapter 6, two steps planned: key numbers 35 and 9 and the prediction of position 960. -/
theorem planning_example :
    foldPitch 36 61 71 = some 35 ∧ foldPitch 24 32 21 = some 9
      ∧ predict { followAfterReset with anchor := ⟨2, 576⟩, anchorTime := 2994000#32 } 960 = 3006000#32
      ∧ predict { followAfterReset with anchor := ⟨2, 576⟩, anchorTime := 2994000#32 } 1144 = 3011750#32 := by
  decide +kernel
/-- R163: a frame with one refresh slot is 8 bytes, and its echo is awaited. -/
theorem test_frame_start :
    (after (exec (.frameStart 20) armed)).map
      (fun t => (t.keyline.lastFrame.length, t.keyline.awaited, t.keyline.nextStart))
      = some (8, some 0, some 40#32) := by decide +kernel
theorem test_echo_held :
    (after (exec (.echoReceived 0 (0x5B#8 :: [0, 0, 4] ++ checkBytes [0, 0, 4]))
      { armed with keyline := { armed.keyline with awaited := some 0 } })).map (·.keyline.heldEcho)
      = some (some ⟨0, true, 4⟩) := by decide +kernel
/-- R165, R167: 0xC3 least significant bit first begins a frame, and with its stop bit low is dropped. -/
theorem test_byte_received_starts_a_frame :
    let c3 (stop : Bool) : List Bool := [false, true, true, false, false, false, false, true, true, stop]
    (after (exec (.byteReceived 4 (c3 true)) ready)).map (·.link.assembly) = some (.ASSEMBLING [] 4#32)
      ∧ (after (exec (.byteReceived 4 (c3 false)) ready)).map (·.link.assembly) = some .HUNTING := by
  decide +kernel
/-- R165: 0x01 is sent with its one high data bit first. -/
theorem test_length_byte_least_significant_first :
    (after (exec (.byteReceived 1 [false, true, false, false, false, false, false, false, false, true])
      { ready with link := { ready.link with assembly := .ASSEMBLING [] 0#32 } })).map (·.link.assembly)
      = some (.ASSEMBLING [1#8] 1#32) := by decide +kernel
theorem test_receive_frame_bad_kind :
    sent (exec (.receiveFrame 0 0x1C 3 []) ready) = some ⟨linkFrame 0x9C 3 [5#8], true, false⟩ := by decide +kernel
theorem test_reset_pulse :
    (after (exec (.heldInReset 0 (.pin 1000)) ready)).map (·.heldInReset) = some true
      ∧ (after (exec (.heldInReset 0 (.pin 999)) ready)).map (·.heldInReset) = some false := by decide +kernel

/-! ### Witnesses: for every statement with hypotheses, a state and operands that meet them together -/

def queued (k tag : Byte) : Queued := ⟨k, tag, .request .getPlan⟩
/-- A request in hand and its reply in transmission. -/
def answering (q : List Queued) (busy : List Reply) (s : State) : State :=
  { s with link := { s.link with queue := q, inHand := true, sending := some ⟨linkFrame 0x97 1 [0], true, false⟩,
                                 busy := busy } }
def busyReply : Reply := ⟨0x97, 2, [4]⟩
def held (s : State) : State := { s with heldInReset := true }
def assembling (bs : List Byte) : State := { ready with link := { ready.link with assembly := .ASSEMBLING bs 0#32 } }

theorem witness_StepTakesTheNextCommand :
    (held ready).pending = [] ∧ (held ready).heldInReset = true
      ∧ ready.pending = [] ∧ ready.heldInReset = false ∧ dueNow ready = []
      ∧ dueNow { State.reset with now := 250#32 } = [.clearingEnd 0] := by decide +kernel
theorem witness_CommandsAnswerNextWithinTheirBlocks : blockEvent (.clearingEnd 0) = true := rfl
theorem witness_FullResetGivesResetValues : ∃ t, exec (.fullReset 3) (sounding walking) = .next t := ⟨_, rfl⟩
theorem witness_BothResetsSetTheFollower :
    (∃ t, exec (.fullReset 1) walking = .next t)
      ∧ (walking.heldInReset = false ∧ ∃ t, exec (.consoleReset 5) walking = .next t) :=
  ⟨⟨_, rfl⟩, rfl, ⟨_, rfl⟩⟩
theorem witness_ConsoleResetKeepsSettings :
    InService armed ∧ armed.keyline.state ≠ .OFF ∧ InService ready ∧ ready.keyline.state = .OFF
      ∧ slotRec armed.store 0 = some readySlot0 := ⟨rfl, by decide +kernel, rfl, rfl, rfl⟩
/-- R23, R143: a PLAYING slot, a mask with a held count, and a LOADING slot. -/
theorem test_console_reset_of_slots_and_mask :
    (after (exec (.consoleReset 5) (sounding walking))).map
        (fun t => ((slotRec t.store 0).map (·.state), leakEntry t.leak 0)) = some (some .READY, ⟨0, 45005#32, 1600#32⟩)
      ∧ (after (exec (.consoleReset 5) (withSlot { loading.1 with faultFirst := some 1 } ready))).map
        (fun t => (slotRec t.store 0).map (fun sl => (sl.state, sl.stepsWritten, sl.faultFirst)))
        = some (some (.LOADING, 3, some 1)) := by decide +kernel
theorem witness_HeldInResetStandsStill :
    InService ready ∧ 1000 ≤ 1000 ∧ 999 < 1000 ∧ (held ready).heldInReset = true
      ∧ ∀ straps, Instr.go 0 0 ≠ .fullReset straps := ⟨rfl, by decide, by decide, rfl, by simp⟩
theorem witness_IdleLinkTakesEachRequest :
    LinkIdle ready ∧ ∀ m a, Request.stopHymn 1 0 = .stopHymn m a → m < 2 :=
  ⟨ready_idle, fun m a h => by cases h; decide⟩
theorem witness_RequestsQueueAndAreAnswered :
    let one := answering [queued 0x17 1] [] ready
    let two := answering [queued 0x17 1, queued 0x17 2] [] ready
    let full := answering [queued 0x17 1, queued 0x17 2] [busyReply, busyReply] ready
    (InService two ∧ 2 ≤ two.link.queue.length ∧ two.link.busy.length < 2)
      ∧ (InService full ∧ 2 ≤ full.link.queue.length ∧ 2 ≤ full.link.busy.length)
      ∧ (InService one ∧ one.link.queue = [queued 0x17 1] ∧ one.link.inHand = true)
      ∧ (∃ x, one.link.sending = some x ∧ x.resets = false ∧ x.ofHand = true ∧ one.link.busy = []
          ∧ one.link.queue.length ≤ 1)
      ∧ (∃ x, full.link.sending = some x ∧ x.resets = false ∧ x.ofHand = true
          ∧ full.link.busy = busyReply :: [busyReply])
      ∧ (∃ x, two.link.sending = some x ∧ x.resets = false ∧ x.ofHand = true ∧ two.link.busy = []
          ∧ two.link.queue = [queued 0x17 1, queued 0x17 2])
      ∧ LinkIdle ready :=
  ⟨⟨rfl, by decide +kernel, by decide +kernel⟩, ⟨rfl, by decide +kernel, by decide +kernel⟩, ⟨rfl, rfl, rfl⟩,
    ⟨_, rfl, rfl, rfl, rfl, by decide +kernel⟩, ⟨_, rfl, rfl, rfl, rfl⟩, ⟨_, rfl, rfl, rfl, rfl, rfl⟩, ready_idle⟩
/-- A BUSY reply in transmission behind the reply of the last request in hand. -/
def sendingBusy (q : List Queued) (busy : List Reply) : State :=
  { ready with link := { ready.link with queue := q, sending := some ⟨replyFrame busyReply, false, false⟩,
                                         busy := busy } }
/-- The clauses of RequestsQueueAndAreAnswered at the end of a BUSY reply. -/
theorem witness_RequestsQueueAndAreAnswered_busy :
    let more := sendingBusy [queued 0x17 1] [busyReply]
    let waiting := sendingBusy [queued 0x17 1, queued 0x17 2] []
    let last := sendingBusy [] []
    ∃ x : Sending, x.resets = false ∧ x.ofHand = false ∧ (∀ q b, (sendingBusy q b).link.sending = some x)
      ∧ (InService more ∧ more.link.busy = busyReply :: [])
      ∧ (InService waiting ∧ waiting.link.busy = [] ∧ waiting.link.queue = queued 0x17 1 :: [queued 0x17 2]
          ∧ waiting.link.inHand = false)
      ∧ (InService last ∧ last.link.busy = [] ∧ last.link.queue = [])
      ∧ (∃ r tag, queued (BitVec.ofNat 8 (kindOf .getPlan)) 1 = queuedRow r tag) :=
  ⟨_, rfl, rfl, fun _ _ => rfl, ⟨rfl, rfl⟩, ⟨rfl, rfl, rfl, rfl⟩, ⟨rfl, rfl, rfl⟩, .getPlan, 1, rfl⟩
/-- R168: behind the BUSY reply the oldest waiting request is taken, and the queue keeps both. -/
theorem test_busy_reply_sent :
    (after (exec (.replySent 0) (sendingBusy [queued 0x17 1, queued 0x17 2] []))).map
      (fun t => (t.link.inHand, t.link.queue.length, t.link.sending.map (·.ofHand)))
      = some (true, 2, some true) := by decide +kernel
theorem witness_ReceiveLineFollowsTheAssembly :
    (InService ready ∧ ready.link.assembly = .HUNTING ∧ (0xC3#8 = 0xC3#8 ∧ 0xC2#8 ≠ 0xC3#8))
      ∧ (InService (assembling [1]) ∧ (assembling [1]).link.assembly = .ASSEMBLING [1] 0#32
          ∧ (assembling [1]).now + BitVec.ofNat 32 200 = 0#32 + BitVec.ofNat 32 200
          ∧ (assembling [1]).now + BitVec.ofNat 32 0 = 0#32 + BitVec.ofNat 32 0
          ∧ (1#8).toNat + 256 * (0#8).toNat < 2 ∧ 1024 < (1#8).toNat + 256 * (4#8).toNat)
      ∧ (let bs : List Byte := [2, 0, 0x17, 1, 0]
         (assembling bs).link.assembly = .ASSEMBLING bs 0#32
          ∧ [0#8].length + 1 = (2#8).toNat + 256 * (0#8).toNat
          ∧ checkBytes (bs.take 4) ≠ bs.drop 4 ++ [0#8])
      ∧ (assembling []).now + BitVec.ofNat 32 200 = 0#32 + 200#32 := by
  refine ⟨⟨rfl, rfl, by decide⟩, ⟨rfl, rfl, rfl, rfl, by decide, by decide⟩, by decide +kernel, by decide +kernel⟩
theorem witness_FrameBytesMakeTheRequest :
    InService ready ∧ ready.link.assembly = .HUNTING ∧ 200 ≤ 200
      ∧ (List.replicate 1022 (0 : Byte)).length ≤ 1022 := ⟨rfl, rfl, by decide, by rw [List.length_replicate]⟩
theorem witness_RequestBytesReadBack :
    WellFormed.request (.setParam 255 2147483647) = true ∧ WellFormed.request (.tuneSteps 0 0 tuneFields) = true
      ∧ WellFormed.request (.setRegistration 0 (.present registrationField)) = true := by decide +kernel
theorem witness_FramesAreReadAsRequests :
    WellFormed.request (.getParam 255) = true ∧ LinkIdle ready ∧ parseRequest 0 [] = .badKind
      ∧ parseRequest 0x1C [] = .badKind ∧ parseRequest 1 [0] = .badLength
      ∧ WellFormed.request (.setParam 255 (-2)) = true
      ∧ requestBytes (.setParam 255 (-2)) = [255, 254] ++ [255, 255, 255]
      ∧ requestBytes (.getParam 255) = [] ++ [255] ∧ [255, 0] = requestBytes (.getParam 255) ++ [0] :=
  ⟨by decide, ready_idle, by decide +kernel, by decide +kernel, by decide +kernel, by decide, by decide +kernel,
    by decide +kernel, by decide +kernel⟩
/-- R169: GET_PARAM with no parameter number, and with a byte behind it, is answered BAD_LENGTH. -/
theorem test_bodies_too_short_and_too_long :
    ∀ body ∈ [[], [7, 0]], sent (exec (.receiveFrame 0 5 9 body) ready)
      = some ⟨linkFrame 0x85 9 [6], true, false⟩ := by decide +kernel
theorem witness_ReportsChangeNothing :
    LinkIdle walking ∧ reports (.getParam 1) = true ∧ reports (.getParam 28) = true
      ∧ reports (.getDivision 5) = true ∧ reports (.getRegistration 15) = true
      ∧ reports (.getDirectory 31) = true := ⟨walking_idle, by decide⟩
theorem witness_ParametersAreClampedAndTaken :
    LinkIdle ready ∧ plainBounds 3 = some (0, 255) ∧ plainBounds 25 = some (1, 255)
      ∧ 20 ≤ ready.params.firmLead ∧ 40000 ≤ 40000 ∧ 40000 ≤ 300000 ∧ 40000 ≠ ready.params.cipherLimit
      ∧ LinkIdle walking ∧ walking.player.state ≠ .IDLE ∧ (-1 : Int) < 0 ∧ (1 : Int) < 2
      ∧ (4095 : Int) < 4096 ∧ LinkIdle (sounding walking) ∧ keyDown (sounding walking).map .d1 24 = true :=
  ⟨ready_idle, rfl, rfl, by decide +kernel, by decide, by decide, by decide +kernel, walking_idle,
    by decide +kernel, by decide, by decide, by decide, ⟨rfl, rfl, rfl, rfl, rfl⟩, by decide +kernel⟩
theorem witness_ActingParametersAreTaken :
    (LinkIdle ready ∧ ready.player.state = .IDLE
        ∧ [1, 2, 8, 9, 11, 13, 14, 26, 27, 28].map (actingBounds ready)
          = [some (0, 4000), some (200, 2500), some (20000, 300000), some (0, 1), some (100, 1000),
             some (0, 600000), some (10000, 110000), some (0, 1), some (0, 4095), some (4, 32)])
      ∧ (let s : State := { walking with now := 100#32, follow := { walking.follow with
            window := some ⟨⟨1, 192⟩, 1, 6000#32, 1500, 4500#32, 7500#32, 7660#32, .PENDING, none⟩ } }
         LinkIdle s ∧ s.player.window = [] ∧ 0 ≠ s.params.choirLag ∧ 4000 ≠ s.params.choirLag
          ∧ ∀ p : Params, p.choirLag = 4000 ∨ p.choirLag = 0 → p.halfWidth = 1500 →
              ∃ m m', s.follow.window = some m ∧ m.phase = .PENDING
                ∧ PlacedAround { elapse 0 s with params := p } m.prevBefore m.point m.index (some m')
                ∧ later m'.decides s.now = true)
      ∧ (let s := { walking with follow := { walking.follow with state := .COAST } }
         LinkIdle s ∧ s.follow.lost = false ∧ s.params.finishVerse = false ∧ 20000 ≠ s.params.lostAfter
          ∧ later (timePlus s.follow.lastMatch 20000) (s.now + BitVec.ofNat 32 20000) = false
          ∧ later (timePlus s.follow.lastMatch 20000) (s.now + BitVec.ofNat 32 19999) = true)
      ∧ (let s := fermataHeld .WAITING
         LinkIdle s ∧ s.player.state = .FERMATA ∧ s.player.wait = some (fermataWait .WAITING)
          ∧ NothingAhead s.player ∧ 0 < s.params.breath ∧ s.params.breath ≤ 10000 ∧ 1 ≠ s.params.maxWait
          ∧ later (timePlus (fermataWait .WAITING).start 1) (s.now + BitVec.ofNat 32 1) = false
          ∧ later (timePlus (fermataWait .WAITING).start 1) (s.now + BitVec.ofNat 32 0) = true)
      ∧ ready.listen.backlog = false := by
  refine ⟨⟨ready_idle, rfl, by decide +kernel⟩, ⟨⟨rfl, rfl, rfl, rfl, rfl⟩, rfl, by decide +kernel,
    by decide +kernel, ?_⟩, ⟨⟨rfl, rfl, rfl, rfl, rfl⟩, by decide +kernel⟩,
    ⟨fermata_idle _, rfl, rfl, ⟨rfl, rfl⟩, by decide +kernel⟩, rfl⟩
  rintro p h hw
  refine ⟨_, _, rfl, rfl, ⟨none, fun _ h => (nomatch h), fun o => absurd o ?_, fun _ => rfl⟩, ?_⟩ <;>
    rcases h with h | h <;> simp only [windowFor, elapse, h, hw] <;> decide +kernel
theorem witness_KeylineEnableSweepsOrEmpties :
    LinkIdle ready ∧ ready.keyline.state = .OFF
      ∧ LinkIdle armed ∧ armed.keyline.state ≠ .OFF ∧ armed.player.state = .IDLE ∧ anyDown armed.map = false
      ∧ LinkIdle (sounding armed) ∧ (sounding armed).keyline.state ≠ .OFF
      ∧ anyDown (sounding armed).map = true :=
  ⟨ready_idle, rfl, armed_idle, by decide +kernel, rfl, by decide +kernel, ⟨rfl, rfl, rfl, rfl, rfl⟩,
    by decide +kernel, by decide +kernel⟩
theorem witness_SetNoticesQueuesForUpFlags : LinkIdle ready ∧ 1 ≤ 1 ∧ 2 ^ 18 - 1 < 2 ^ 18 :=
  ⟨ready_idle, by decide, by decide⟩
theorem witness_NoticesAreFetchedAndFlagsPutDown :
    LinkIdle ready ∧ 2 ^ 18 - 1 < 2 ^ 18 ∧ ready.flags.raised.wf none = true :=
  ⟨ready_idle, by decide, by decide +kernel⟩
/-- STORE_READY up, every notice enabled, and a full Notice Queue. -/
def noticed : State :=
  { ready with flags := { raised := ⟨[(17, some ⟨0#32, .storeReady⟩)]⟩, global := true, enables := 0x3FFFF#18,
                          queue := List.replicate 16 ⟨0#32, .storeReady⟩, dropped := false } }
theorem witness_OnlyARiseIsNoticed :
    noticed.flags.raised.wf none = true ∧ flagUp noticed.flags .STORE_READY = true
      ∧ flagUp noticed.flags .INPUT_LOST = false ∧ noticesEnabled noticed.flags .INPUT_LOST = true
      ∧ 16 ≤ noticed.flags.queue.length
      ∧ ready.flags.raised.wf none = true ∧ noticesEnabled ready.flags .INPUT_LOST = false := by decide +kernel
theorem witness_SetDivisionReplacesTheRecord :
    (LinkIdle ready ∧ divisionOf 5 = some .d5 ∧ yesNoValid divisionField ∧ ready.player.state = .IDLE
        ∧ ready.keyline.state = .OFF ∧ ready.map.keys.wf noKey = true)
      ∧ (LinkIdle armed ∧ armed.keyline.state ≠ .OFF ∧ 5 < 6) :=
  ⟨⟨ready_idle, rfl, by unfold yesNoValid; decide, rfl, rfl, rfl⟩, armed_idle, by decide +kernel, by decide⟩
/-- Its clauses on the Registration Table: a division that stays present, one that goes, one that comes. -/
theorem witness_SetDivisionReplacesTheRecord_records :
    let s := { ready with organ := organ0 }
    LinkIdle s ∧ s.player.state = .IDLE ∧ s.keyline.state = .OFF ∧ s.map.keys.wf noKey = true
      ∧ registrationAt s.organ 0 = some registration0 ∧ registrationAt s.organ 15 = none
      ∧ (divRec s.organ .d1).present = true ∧ (divRec s.organ .d1).enclosed = false
      ∧ (limitedDivision divisionField).present = true ∧ (limitedDivision divisionField).enclosed = true
      ∧ (limitedDivision { divisionField with present := 0 }).present = false
      ∧ divGet registration0.stops .d1 = some 5#32 ∧ (divRec s.organ .d2).present = false :=
  ⟨⟨rfl, rfl, rfl, rfl, rfl⟩, rfl, rfl, rfl, by decide +kernel⟩
theorem witness_SetRegistrationStoresOrRemoves :
    LinkIdle armed ∧ 15 < 16 ∧ armed.organ.registrations.wf none = true
      ∧ registrationValid armed.organ registrationField := by
  refine ⟨armed_idle, by decide, by decide +kernel, by decide, by decide, by decide, by decide, by decide,
    by decide, ?_, fun d => ?_⟩
  · intro n hn
    have h : n = 1 ∨ n = 6 := by simpa [voiceList, registrationField] using hn
    rcases h with rfl | rfl
    · exact .inr ⟨.d1, rfl, rfl⟩
    · exact .inl rfl
  · cases d <;> decide +kernel
/-- An enclosed division, with an expression beyond its levels and a lift beyond its range. -/
theorem witness_SetRegistrationStoresOrRemoves_limited :
    let o := { organ0 with divisions := { organ0.divisions with d1 := { great with enclosed := true } } }
    let f := { registrationField with expression := ⟨17, 16, 16, 16, 16⟩, lift := 49 }
    registrationValid o f ∧ (divRec o .d1).present = true ∧ (divRec o .d1).enclosed = true
      ∧ 16 < divGet f.expression .d1 ∧ 48 < f.lift := by
  refine ⟨⟨by decide, by decide, by decide, by decide, by decide, by decide, ?_, fun d => ?_⟩, by decide +kernel⟩
  · intro n hn
    have h : n = 1 ∨ n = 6 := by simpa [voiceList, registrationField] using hn
    rcases h with rfl | rfl
    · exact .inr ⟨.d1, rfl, rfl⟩
    · exact .inl rfl
  · cases d <;> decide +kernel
theorem witness_ApplyingRegistrationIsFound :
    organ0.registrations.wf none = true ∧ registrationAt organ0 0 = some registration0 := ⟨by decide +kernel, rfl⟩
theorem headerField_valid : headerValid headerField :=
  ⟨by decide, by decide, by decide, by decide, by decide, by decide, by decide, by decide, by decide, by decide,
    .inl rfl, by decide, by decide⟩
theorem witness_TuneBeginTakesTheFirstFit :
    LinkIdle armed ∧ SlotServed armed 31 ∧ slotRec armed.store 31 = none ∧ headerValid headerField
      ∧ armed.store.freeRuns = [] ++ (6, 12282) :: [] ∧ headerField.entries ≤ 12282
      ∧ (let small := { armed with store := { armed.store with freeRuns := [(6, 5)] } }
         LinkIdle small ∧ ∀ r ∈ small.store.freeRuns, r.2 < headerField.entries) :=
  ⟨armed_idle, ⟨by decide, rfl⟩, by decide +kernel, headerField_valid, rfl, by decide,
    ⟨rfl, rfl, rfl, rfl, rfl⟩, by decide +kernel⟩
/-- Slot 0 LOADING with nothing written. -/
def emptyLoading : Slot := loadingSlot (headerOf headerField) 0
def loadingState : State := { withSlot emptyLoading ready with store :=
  { (withSlot emptyLoading ready).store with pool := ⟨[]⟩ } }
theorem loading_idle : LinkIdle loadingState := ⟨rfl, rfl, rfl, rfl, rfl⟩
theorem stepField_inRange : stepInRange stepField :=
  ⟨by decide, by decide, by decide, by decide, .inl rfl, by decide, by decide, by decide⟩
/-- A step of eight notes, with a fermata. -/
def fullStep : StepFields :=
  { stepField with fermata := .present ⟨1, 32⟩,
                   notes := List.replicate 8 noteField |>.mapIdx (fun i n => { n with pitch := i }) }
theorem fullStep_inRange : stepInRange fullStep :=
  ⟨by decide, by decide, by decide, by decide, .inr ⟨_, rfl, by decide⟩, by decide, by decide, by decide⟩
/-- Steps 0 to 2 of the tune: the first of the verse, one behind it, and the first of the Amen. -/
theorem tuneFields_valid : ∀ j, j < tuneFields.length → stepValid emptyLoading tuneFields j := by
  intro j hj
  have h : j = 0 ∨ j = 1 ∨ j = 2 := by
    have : tuneFields.length = 3 := rfl
    omega
  rcases h with rfl | rfl | rfl
  · exact ⟨_, rfl, stepField_inRange, fun h => absurd rfl h⟩
  · refine ⟨_, rfl, ⟨by decide, by decide, by decide, by decide, .inl rfl, by decide, by decide, by decide⟩,
      fun _ _ => ⟨fun h => (by cases h), fun i g hi hg => ?_⟩⟩
    obtain rfl : i = 0 := by omega
    cases hg; decide
  · exact ⟨_, rfl, ⟨by decide, by decide, by decide, by decide, .inl rfl, by decide, by decide, by decide⟩,
      fun _ h => absurd rfl h⟩
theorem witness_TuneStepsWritesAllOrNone :
    (LinkIdle loadingState ∧ SlotServed loadingState 0 ∧ slotRec loadingState.store 0 = some emptyLoading
        ∧ emptyLoading.state = .LOADING)
      ∧ ((∀ j, j < tuneFields.length → stepValid emptyLoading tuneFields j)
        ∧ emptyLoading.stepsWritten + tuneFields.length
            ≤ emptyLoading.header.verseSteps + emptyLoading.header.amenSteps
        ∧ emptyLoading.entriesWritten + entriesOf tuneFields ≤ emptyLoading.header.entries
        ∧ Memory.wf loadingState.store.pool = true ∧ loadingState.store.slots.wf none = true
        ∧ emptyLoading.written.length = emptyLoading.stepsWritten ∧ tuneFields[2]?.isSome = true)
      ∧ (1 ≠ emptyLoading.stepsWritten
        ∧ emptyLoading.header.entries < emptyLoading.entriesWritten + entriesOf [fullStep]) :=
  ⟨⟨loading_idle, ⟨by decide, rfl⟩, rfl, rfl⟩, ⟨tuneFields_valid, by decide +kernel⟩, by decide +kernel⟩
/-- An invalid step: one at the position of the step before it in the list, and one at that of the last
step written; and a valid step that does not fit. -/
theorem witness_TuneStepsWritesAllOrNone_invalid :
    (let l := [stepField, stepField]
     (∀ j, j < 1 → stepValid emptyLoading l j) ∧ ¬ stepValid emptyLoading l 1)
      ∧ ¬ stepValid { emptyLoading with stepsWritten := 1, lastPosition := some 0 } [stepField] 0
      ∧ (∀ j, j < [fullStep].length → stepValid emptyLoading [fullStep] j) := by
  refine ⟨⟨fun j hj => ?_, ?_⟩, ?_, fun j hj => ?_⟩
  · obtain rfl : j = 0 := by omega
    exact ⟨_, rfl, stepField_inRange, fun h => absurd rfl h⟩
  · rintro ⟨f, hf, -, h⟩
    cases hf
    exact absurd ((h (by decide) (by decide)).2 0 stepField rfl rfl) (by decide)
  · rintro ⟨f, hf, -, h⟩
    cases hf
    exact absurd ((h (by decide) (by decide)).1 rfl 0 rfl) (by decide)
  · obtain rfl : j = 0 := by simp at hj; omega
    exact ⟨_, rfl, fullStep_inRange, fun h => absurd rfl h⟩
/-- The last clause of TuneStepsWritesAllOrNone. -/
theorem witness_TuneStepsWritesAllOrNone_oneStep :
    stepInRange fullStep ∧ Memory.wf loading.2 = true ∧ ∃ r, recordsStep stepField r :=
  ⟨fullStep_inRange, by decide +kernel, ⟨0, 192, true, none, [⟨.S, 60, false⟩]⟩, rfl, rfl, rfl, fun _ => rfl,
    (by simp [stepField]), List.Forall₂.cons ⟨rfl, rfl, rfl⟩ List.Forall₂.nil⟩
theorem witness_TuneEndChecksTheCounts :
    let s := withSlot loading.1 ready
    LinkIdle s ∧ SlotServed s 0 ∧ slotRec s.store 0 = some loading.1 ∧ loading.1.state = .LOADING
      ∧ loading.1.stepsWritten = loading.1.header.verseSteps + loading.1.header.amenSteps
      ∧ loading.1.entriesWritten = loading.1.header.entries
      ∧ emptyLoading.stepsWritten ≠ emptyLoading.header.verseSteps + emptyLoading.header.amenSteps :=
  ⟨⟨rfl, rfl, rfl, rfl, rfl⟩, ⟨by decide, rfl⟩, rfl, by decide +kernel⟩
theorem witness_TuneEraseFreesTheExtent :
    LinkIdle armed ∧ SlotServed armed 31 ∧ armed.store.slots.wf none = true ∧ slotRec armed.store 31 = none
      ∧ SlotServed armed 0 ∧ slotRec armed.store 0 = some readySlot0 ∧ readySlot0.state ≠ .PLAYING
      ∧ LinkIdle walking ∧ (slotRec walking.store 0).map (·.state) = some .PLAYING :=
  ⟨armed_idle, ⟨by decide, rfl⟩, by decide +kernel, by decide +kernel, ⟨by decide, rfl⟩, rfl, by decide +kernel,
    walking_idle, by decide +kernel⟩
theorem witness_TuneReadChecksEachStep :
    LinkIdle armed ∧ SlotServed armed 0 ∧ slotRec armed.store 0 = some readySlot0 ∧ 1 ≤ 64 ∧ 64 ≤ 64
      ∧ 2 < readySlot0.stepsWritten ∧ armed.store.slots.wf none = true
      ∧ (readStep armed.store readySlot0 2).isSome = true :=
  ⟨armed_idle, ⟨by decide, rfl⟩, rfl, by decide, by decide, by decide +kernel⟩
/-- The clause on a faulty step: no entry of the pool stands, and the first step read is faulty. -/
theorem witness_TuneReadChecksEachStep_faulty :
    let s := { armed with store := { armed.store with pool := ⟨[]⟩ } }
    LinkIdle s ∧ SlotServed s 0 ∧ slotRec s.store 0 = some readySlot0 ∧ 2 < readySlot0.stepsWritten
      ∧ readStep s.store readySlot0 2 = none :=
  ⟨⟨rfl, rfl, rfl, rfl, rfl⟩, ⟨by decide, rfl⟩, rfl, by decide +kernel⟩
theorem witness_ClearStoreClearsFor250Units :
    LinkIdle walking ∧ walking.player.state ≠ .IDLE ∧ LinkIdle ready ∧ ready.player.state = .IDLE
      ∧ ready.store.clearEnd = none ∧ LinkIdle State.reset ∧ State.reset.store.clearEnd ≠ none
      ∧ InService State.reset ∧ State.reset.store.clearEnd = some (State.reset.now + BitVec.ofNat 32 250) :=
  ⟨walking_idle, by decide +kernel, ready_idle, rfl, rfl, ⟨rfl, rfl, rfl, rfl, rfl⟩, by decide +kernel, rfl,
    by decide +kernel⟩

theorem startField_startable (k : Nat) (h : k ≤ 1) :
    Startable { startField with startKind := k } armed readySlot0 []
      ⟨1, .PLAY, none, 0, ⟨192, false⟩, false, none⟩ (0, registration0) := by
  match k, h with
  | 0, _ => refine ⟨by decide, rfl, by decide +kernel, rfl, rfl, rfl, rfl, rfl, by decide, by decide +kernel, rfl, rfl⟩
  | 1, _ => refine ⟨by decide, rfl, by decide +kernel, rfl, rfl, rfl, rfl, rfl, by decide, by decide +kernel, rfl, rfl⟩
theorem witness_StartHymnStartsOrIsRefused :
    (LinkIdle armed ∧ armed.store.slots.wf none = true ∧ armed.flags.raised.wf none = true
        ∧ Startable startField armed readySlot0 [] ⟨1, .PLAY, none, 0, ⟨192, false⟩, false, none⟩
            (0, registration0) ∧ startField.startKind = 1)
      ∧ (32 ≤ 32 ∧ 31 < 32 ∧ walking.player.state ≠ .IDLE ∧ ready.keyline.state = .OFF
        ∧ armed.keyline.state ≠ .OFF ∧ slotRec armed.store 31 = none
        ∧ LinkIdle { armed with store := { armed.store with clearEnd := some 0#32 } }) :=
  ⟨⟨armed_idle, by decide +kernel, rfl, startField_startable 1 (by decide), rfl⟩,
    by decide, by decide, by decide +kernel, rfl, by decide +kernel, by decide +kernel, ⟨rfl, rfl, rfl, rfl, rfl⟩⟩
/-- The clause on an immediate start. -/
theorem witness_ImmediateStartEntersTheSection :
    LinkIdle armed ∧ Startable { startField with startKind := 0 } armed readySlot0 []
        ⟨1, .PLAY, none, 0, ⟨192, false⟩, false, none⟩ (0, registration0)
      ∧ armed.store.slots.wf none = true ∧ armed.flags.raised.wf none = true ∧ EndsBounded readySlot0
      ∧ (∀ j q, readStep armed.store readySlot0 j = some q → q.position ≤ 65535)
      ∧ readySlot0.header.nominal ≤ 1500000 ∧ 0 < armed.params.firmLead + largestSpeech armed.organ
      ∧ armed.params.firmLead + largestSpeech armed.organ ≤ 10000 ∧ armed.params.choirLag ≤ 4000
      ∧ armed.params.halfWidth ≤ 2500 := by
  refine ⟨armed_idle, startField_startable 0 (by decide), by decide +kernel, rfl, ?_, ?_, by decide +kernel,
    by decide +kernel, by decide +kernel, by decide +kernel, by decide +kernel⟩
  · intro e h
    have h' : e = sectionEnds loading.1 := by cases h; rfl
    rw [h']
    decide +kernel
  · have h : ∀ j, j < 3 → (readStep armed.store readySlot0 j).all (fun q => decide (q.position ≤ 65535)) = true := by
      decide +kernel
    intro j q hq
    by_cases hj : j < 3
    · have := h j hj
      rw [hq] at this
      simpa using this
    · have : readySlot0.written[j]? = none :=
        List.getElem?_eq_none (by have : readySlot0.written.length = 3 := by decide +kernel
                                  omega)
      simp [readStep, this] at hq
theorem witness_GoResumesLatchesOrIsRefused :
    let s := { fermataHeld .WAITING with now := 5#32, params := { paramDefaults with maxWait := 5 } }
    (LinkIdle ready ∧ ¬ HymnActive ready)
      ∧ (LinkIdle walking ∧ HymnActive walking ∧ waitIn walking.player .WAITING = none
          ∧ walking.player.goLatch = false)
      ∧ (let t := { walking with player := { walking.player with goLatch := true } }
         LinkIdle t ∧ HymnActive t ∧ waitIn t.player .WAITING = none ∧ t.player.goLatch = true)
      ∧ (InService s ∧ LinkIdle s ∧ s.player.state = .FERMATA ∧ s.player.wait = some (fermataWait .WAITING)
          ∧ (fermataWait .WAITING).kind = .fermata ∧ (fermataWait .WAITING).phase = .WAITING
          ∧ NothingAhead s.player ∧ 0 < s.params.breath ∧ s.params.breath ≤ 10000 ∧ 0 < s.params.maxWait
          ∧ timePlus (fermataWait .WAITING).start s.params.maxWait = s.now + BitVec.ofNat 32 0) := by
  refine ⟨⟨ready_idle, fun h => h.1 rfl⟩, ⟨walking_idle, ⟨by decide +kernel, by decide +kernel⟩, rfl, rfl⟩,
    ⟨⟨rfl, rfl, rfl, rfl, rfl⟩, ⟨by decide +kernel, by decide +kernel⟩, rfl, rfl⟩,
    ⟨rfl, ⟨rfl, rfl, rfl, rfl, rfl⟩, rfl, rfl, rfl, rfl, ⟨rfl, rfl⟩, by decide +kernel⟩⟩
/-- The Amen being walked. -/
def amenWalk : State := { walking with player := { walking.player with state := .AMEN, sec := some 13 } }
theorem witness_EndOfVerseCutsThePlan :
    (LinkIdle walking ∧ walking.player.state = .VERSE ∧ walking.player.plan = some plan0
        ∧ (∃ e ∈ plan0.entries, e.verse = 1 ∧ e.latched = true ∧ e.mode ≠ .OMIT)
        ∧ (∀ e ∈ plan0.entries, e.latched = true → e.mode ≠ .OMIT → e.verse ≤ 1))
      ∧ (LinkIdle ready ∧ ¬ HymnActive ready) ∧ (LinkIdle amenWalk ∧ amenWalk.player.state = .AMEN) :=
  ⟨⟨walking_idle, rfl, rfl, by decide +kernel, by decide +kernel⟩, ⟨ready_idle, fun h => h.1 rfl⟩,
    ⟨rfl, rfl, rfl, rfl, rfl⟩, rfl⟩
/-- In the given state, as the Amen is walked. -/
def amenIn (x : PlayerState) : State := { amenWalk with player := { amenWalk.player with state := x } }
/-- The clauses of EndOfVerseCutsThePlan on a fermata of the Amen and on ENDING. -/
theorem witness_EndOfVerseCutsThePlan_amen :
    LinkIdle (amenIn .FERMATA) ∧ (amenIn .FERMATA).player.sec = some 13
      ∧ LinkIdle (amenIn .ENDING) ∧ (amenIn .ENDING).player.state = .ENDING
      ∧ (amenIn .ENDING).player.plan = some plan0 :=
  ⟨⟨rfl, rfl, rfl, rfl, rfl⟩, rfl, ⟨rfl, rfl, rfl, rfl, rfl⟩, rfl, rfl⟩
theorem test_end_of_verse_in_the_amen :
    sent (exec (.stopHymnEndOfVerse 0 1 1) (amenIn .FERMATA))
        = some ⟨linkFrame 0x93 1 [13#8], true, false⟩
      ∧ ∀ x ∈ [PlayerState.FERMATA, .ENDING],
        sent (exec (.stopHymnEndOfVerse 0 1 0) (amenIn x)) = okReply 0x93 1 [2, 1] := by decide +kernel
/-- In the gap before the Amen, after verse 1. -/
def beforeTheAmen : State :=
  { walking with player := { walking.player with state := .GAP, gap := some ⟨13, none⟩ } }
/-- KEEP in the gap before the Amen. -/
theorem witness_EndOfVerseCutsThePlan_keep :
    LinkIdle beforeTheAmen ∧ beforeTheAmen.player.state = .GAP
      ∧ (∃ g, beforeTheAmen.player.gap = some g ∧ g.next = 13) ∧ beforeTheAmen.player.plan = some plan0 :=
  ⟨⟨rfl, rfl, rfl, rfl, rfl⟩, rfl, ⟨_, rfl, rfl⟩, rfl⟩
/-- The clause on DROP in the gap before the Amen, with a key down and with none. -/
theorem witness_DropBeforeTheAmenEndsTheWalk :
    let s := sounding beforeTheAmen
    LinkIdle s ∧ s.player.state = .GAP ∧ s.player.gap = some ⟨13, none⟩ ∧ s.player.sec = some 1
      ∧ s.player.plan = some plan0 ∧ (∃ e ∈ plan0.entries, e.verse = 1 ∧ e.latched = true ∧ e.mode ≠ .OMIT)
      ∧ (∀ e ∈ plan0.entries, e.latched = true → e.mode ≠ .OMIT → e.verse ≤ 1) ∧ s.player.releases = []
      ∧ (∀ w ∈ s.player.window, w.sec ≠ 13 → w.planned = true) ∧ anyDown s.map = true
      ∧ anyDown beforeTheAmen.map = false
      ∧ beforeTheAmen.keys.events.filter (fun e => e.sec != 13) = [] := by
  refine ⟨⟨rfl, rfl, rfl, rfl, rfl⟩, rfl, rfl, rfl, rfl, ?_⟩
  decide +kernel
theorem sounding_idle : LinkIdle (sounding walking) := ⟨rfl, rfl, rfl, rfl, rfl⟩
theorem witness_StopNowReleasesHeldKeys :
    LinkIdle (sounding walking) ∧ HymnActive (sounding walking) ∧ anyDown (sounding walking).map = true
      ∧ (heldPairs (sounding walking).map).length ≤ 256 :=
  ⟨sounding_idle, ⟨by decide +kernel, by decide +kernel⟩, by decide +kernel, by decide +kernel⟩
/-- The clauses of StopNowReleasesHeldKeys with no key down and with no hymn. -/
theorem witness_StopNowReleasesHeldKeys_silent :
    LinkIdle walking ∧ HymnActive walking ∧ anyDown walking.map = false ∧ walking.player.slot = some 0
      ∧ slotRec walking.store 0 = some { readySlot0 with state := .PLAYING }
      ∧ walking.store.slots.wf none = true ∧ 2 ≤ walking.params.critical
      ∧ LinkIdle ready ∧ ¬ HymnActive ready :=
  ⟨walking_idle, ⟨by decide +kernel, by decide +kernel⟩, by decide +kernel, rfl, rfl, by decide +kernel,
    by decide +kernel, ready_idle, fun h => h.1 rfl⟩
theorem test_stop_now_with_no_key_down :
    (after (exec (.stopHymnNow 0 1 0) walking)).map
      (fun t => (t.player.state, t.player.plan.isSome, (slotRec t.store 0).map (·.state), t.follow.state,
        raiseRecord t.flags .HYMN))
      = some (.IDLE, true, some .READY, .OFF, some ⟨0#32, .hymn .stopped 0 101⟩) := by decide +kernel
theorem witness_AllOffSilencesThePart :
    LinkIdle (sounding walking) ∧ (sounding walking).leak.wf noLeak = true
      ∧ (sounding walking).keyline.state ≠ .OFF ∧ LinkIdle ready ∧ ready.keyline.state = .OFF :=
  ⟨sounding_idle, by decide +kernel, by decide +kernel, ready_idle, rfl⟩
theorem witness_ReservePlanNamesTheFirstUnlatched :
    (LinkIdle walking ∧ walking.player.plan = some plan0 ∧ HymnActive walking
        ∧ plan0.entries = plan0.entries.take 1 ++ ⟨2, .PLAY, none, 0, ⟨192, false⟩, false, none⟩ :: []
        ∧ ∀ x ∈ plan0.entries.take 1, x.latched = true)
      ∧ (let done := { plan0 with entries := plan0.entries.take 1 }
         ∀ e ∈ done.entries, e.latched = true)
      ∧ (let ended := { ready with player := { ready.player with plan := some plan0 } }
         LinkIdle ended ∧ ¬ HymnActive ended) :=
  ⟨⟨walking_idle, rfl, ⟨by decide +kernel, by decide +kernel⟩, rfl, by decide +kernel⟩, by decide +kernel,
    ⟨rfl, rfl, rfl, rfl, rfl⟩, fun h => h.1 rfl⟩
def amendment : AmendFields := { amendField with entries := [{ entryField with verse := 2, mode := 1 }] }
def amended : PlanEntry := ⟨2, .SILENT, none, 0, ⟨192, false⟩, false, none⟩
def reserved (r : Reservation) : State := { walking with player := { walking.player with reservation := r } }
theorem reserved_idle (r : Reservation) : LinkIdle (reserved r) := ⟨rfl, rfl, rfl, rfl, rfl⟩
theorem witness_AmendPlanAppliesWhole :
    (∀ r, LinkIdle (reserved r) ∧ (reserved r).player.plan = some plan0 ∧ (reserved r).player.reservation = r)
      ∧ asEntries amendment.entries = some [amended] ∧ asOptional amendment.verseCount = some none
      ∧ asOptional amendment.amen = some none ∧ amendProblem amendment = none
      ∧ (∃ e ∈ [amended], e.verse < 3) ∧ (∀ e ∈ [amended], 2 ≤ e.verse ∧ e.verse ≤ plan0.entries.length)
      ∧ tuneHasAmen (reserved (.HELD 2)) = true :=
  ⟨fun r => ⟨reserved_idle r, rfl, rfl⟩, rfl, rfl, rfl, by decide +kernel, by decide +kernel, by decide +kernel,
    by decide +kernel⟩
/-- The clauses of AmendPlanAppliesWhole on the entries that no changed one names: verse 1 stays, and a verse
count of 4 brings two new ones. -/
theorem witness_AmendPlanAppliesWhole_others :
    plan0.entries = [] ++ ⟨1, .PLAY, none, 0, ⟨192, false⟩, true, some 0⟩ :: plan0.entries.drop 1
      ∧ (∀ x ∈ [amended], x.verse ≠ 1) ∧ asOptional (Wire.present 4) = some (some 4)
      ∧ amendProblem { amendment with verseCount := .present 4 } = none
      ∧ (∀ c, some 4 = some c → 2 ≤ c + 1) := by
  refine ⟨rfl, by decide +kernel, rfl, by decide +kernel, fun c h => ?_⟩
  cases h; decide
theorem test_amend_plan_keeps_the_others :
    (after (exec (.amendPlan 0 1 { amendment with verseCount := .present 4 }) (reserved (.HELD 2)))).map
      (fun t => t.player.plan.map (fun p => p.entries.map (fun e => (e.verse, e.mode, e.latched))))
      = some (some [(1, .PLAY, true), (2, .SILENT, false), (3, .PLAY, false), (4, .PLAY, false)]) := by
  decide +kernel
/-- A channel that is LOST, and a candidate hop of novelty 200 whose dominant class is D. -/
def deafA : State := { ready with listen := { ready.listen with a := ⟨false, none⟩ } }
def deaf : State := { deafA with listen := { deafA.listen with b := ⟨false, none⟩ } }
def candidate : Hop := ⟨200, [0, 0, 15, 3, 0, 0, 0, 15, 0, 0, 0, 9], true, false⟩
theorem witness_ChannelsAreLostAndHeard_hops :
    HopCompletes 0 (carried 128) (carried 0) ready.listen ready.now
      ∧ HopCompletes 0 (carried 0) (carried 128) deafA.listen deafA.now
      ∧ HopCompletes 80 (carried 0) (carried 0) deaf.listen deaf.now
      ∧ ready.listen.candidate = none ∧ ready.listen.a.present = true ∧ (carried 127).periods.length ≠ 128
      ∧ deafA.listen.a.present = false ∧ deafA.listen.b.present = true
      ∧ (List.replicate 15 true).length = 15 :=
  ⟨.inl ⟨rfl, by simp [carried]⟩, .inr (.inl ⟨rfl, rfl, by simp [carried]⟩),
    .inr (.inr ⟨rfl, rfl, by decide +kernel⟩), rfl, rfl, by simp [carried], rfl, rfl, rfl⟩
theorem witness_ChannelsAreLostAndHeard :
    (InService ready ∧ ready.listen.a.present = true ∧ ready.listen.b.present = true
        ∧ ready.player.state = .IDLE)
      ∧ (let deaf := { ready with listen := { ready.listen with a := ⟨false, none⟩, b := ⟨false, none⟩ } }
         (channelState deaf.listen .A).present = false ∧ (channelState deaf.listen .B).present = false)
      ∧ (let s := { ready with listen := { ready.listen with
            candidate := some ⟨61, List.replicate 12 0, true, true⟩, refractory := 1 } }
         InService s ∧ s.listen.candidate ≠ none ∧ s.listen.refractory ≠ 0) :=
  ⟨⟨rfl, rfl, rfl, rfl⟩, by decide +kernel, rfl, by decide +kernel, by decide +kernel⟩
def onsetAt (t : Time) (n : Nat) : Onset := ⟨t, n, List.replicate 12 1, 0, 0, .CHOIR, true, true⟩
def hearing (q : List Onset) (s : State) : State := { s with listen := { s.listen with queue := q } }
theorem witness_OnsetsAreDeclaredAndQueued :
    ready.flags.raised.wf none = true ∧ (hearing (List.replicate 31 (onsetAt 0 9)) ready).listen.queue.length < 32
      ∧ (hearing (List.replicate 32 (onsetAt 0 9)) ready).listen.queue
          = onsetAt 0 9 :: List.replicate 31 (onsetAt 0 9)
      ∧ 32 ≤ (hearing (List.replicate 32 (onsetAt 0 9)) ready).listen.queue.length := by decide +kernel
/-- Backlog at its critical level of 24, and just below it. -/
theorem witness_OnsetsAreDeclaredAndQueued_backlog :
    let q (n : Nat) : State := hearing (List.replicate n (onsetAt 0 9)) ready
    (q 23).listen.queue.length < 32 ∧ (q 23).listen.backlog = false ∧ (q 23).params.critical ≤ 23 + 1
      ∧ ¬ (q 22).params.critical ≤ 22 + 1 := by decide +kernel
theorem test_joining_brings_backlog :
    [22, 23].map (fun n =>
      let t := joinOnset (onsetAt 0 9) (hearing (List.replicate n (onsetAt 0 9)) ready)
      (t.listen.backlog, raiseRecord t.flags .ONSET_BACKLOG))
      = [(false, none), (true, some ⟨0#32, .onsetBacklog 24⟩)] := by decide +kernel
/-- A cued wait with join-on-onset, at 10 000 with the candidate to be tested. -/
def listening (s : State) : State :=
  { s with now := 10000#32,
           player := { s.player with plan := some { plan0 with join := true } },
           listen := { s.listen with candidate := some candidate, floor := 40 } }
def heardOnset : Onset := ⟨9880#32, 160, candidate.profile, 2, 0, .CHOIR, true, false⟩
/-- The clauses of DeclaredOnsetsAreHeard. With no levels held the next novelty is 0, and the candidate is
declared and admitted in a fermata's wait; it is not declared at a floor of 177, nor admitted in IDLE. -/
theorem witness_DeclaredOnsetsAreHeard :
    let s := listening (fermataHeld .WAITING)
    let w := fermataWait .WAITING
    InService s ∧ HopCompletes 0 hopField hopField s.listen s.now ∧ s.listen.candidate = some candidate
      ∧ candidate.profile.length = 12 ∧ (∀ l, noveltyOf s.listen.a l + noveltyOf s.listen.b l = 0)
      ∧ Declared s.params s.listen candidate 0
      ∧ ¬ Declared s.params { s.listen with floor := 177 } candidate 0
      ∧ RecordOf 10000#32 s candidate heardOnset ∧ Admitted s heardOnset
      ∧ ¬ Admitted (listening ready) heardOnset
      ∧ joinOn s.player = true ∧ s.player.wait = some w ∧ s.params.choirLag ≤ 4000
      ∧ s.params.finishVerse = false
      ∧ waitEnded 10000#32 9880#32 9080#32 w
          = some { w with phase := .BREATH, breathEnd := 9080#32, began := 10000#32, byOnset := true }
      ∧ (let b := { fermataWait .BREATH with breathEnd := 9081#32, began := 9880#32 }
         waitEnded 10000#32 9880#32 9080#32 b = some { b with breathEnd := 9080#32 }
          ∧ waitEnded 10000#32 9880#32 9080#32 { b with breathEnd := 9080#32 } = none
          ∧ waitEnded 10000#32 9880#32 9080#32 { b with began := 9881#32 } = none) := by
  refine ⟨rfl, .inl ⟨rfl, by simp [hopField, carried]⟩, rfl, rfl, fun _ => rfl, ?_, ?_, ?_, ?_, ?_, rfl, rfl,
    by decide +kernel, rfl, by decide +kernel, by decide +kernel⟩
  · unfold Declared; decide +kernel
  · unfold Declared; decide +kernel
  · unfold RecordOf; decide +kernel
  · exact ⟨.inr (.inr ⟨.inl rfl, fermataWait .WAITING, { plan0 with join := true }, rfl, .inl rfl, rfl, rfl⟩),
      by decide +kernel, by decide +kernel, by decide +kernel, by decide +kernel⟩
  · rintro ⟨h | h | ⟨h | h | h, _⟩, _⟩
    · exact absurd h.1 (by decide +kernel)
    all_goals exact absurd h (by decide +kernel)
def windowOf (x : WindowPhase) : MatchWindow := ⟨⟨1, 192⟩, 1, 6000#32, 1500, 4500#32, 7500#32, 7660#32, x, none⟩
def awaiting (x : WindowPhase) (now : Time) (s : State) : State :=
  { s with now := now, follow := { s.follow with window := some (windowOf x) } }
theorem witness_FollowerTimesAndRebase :
    (InService (awaiting .PENDING 4500 walking)
        ∧ (awaiting .PENDING 4500 walking).follow.window = some (windowOf .PENDING)
        ∧ (windowOf .PENDING).opens = (awaiting .PENDING 4500 walking).now + BitVec.ofNat 32 0)
      ∧ ((awaiting .OPEN 7500 walking).follow.window = some (windowOf .OPEN)
        ∧ (windowOf .OPEN).closes = (awaiting .OPEN 7500 walking).now + BitVec.ofNat 32 0)
      ∧ (let s := { walking with follow := { walking.follow with state := .COAST } }
         InService s ∧ s.follow.state = .COAST ∧ s.follow.lost = false ∧ s.params.finishVerse = false
          ∧ timePlus s.follow.lastMatch s.params.lostAfter = s.now + BitVec.ofNat 32 80000)
      ∧ ready.follow.state = .OFF ∧ walking.follow.state ≠ .OFF
      ∧ (windowOf .OPEN).phase ≠ .PENDING :=
  ⟨⟨rfl, rfl, by decide +kernel⟩, ⟨rfl, by decide +kernel⟩, ⟨rfl, rfl, rfl, rfl, by decide +kernel⟩, rfl,
    by decide +kernel, by decide +kernel⟩
def deciding (x : FollowState) : State :=
  let s := hearing [onsetAt 6200 40] (awaiting .DECIDING 7660 walking)
  { s with follow := { s.follow with state := x } }
theorem witness_DecisionsCorrectTheFollower :
    ((deciding .TRACK).follow.state = .TRACK
        ∧ strongest (candidates (windowOf .DECIDING) (deciding .TRACK).listen.queue) = some (onsetAt 6200 40)
        ∧ posBefore (windowOf .DECIDING).point (deciding .TRACK).follow.anchor = false
        ∧ (deciding .TRACK).follow.rebased = false
        ∧ playingHeader (deciding .TRACK) = some (headerOf headerField)
        ∧ (headerOf headerField).pmin ≤ (headerOf headerField).pmax)
      ∧ (deciding .LEAD).follow.state = .LEAD ∧ (deciding .COAST).follow.state = .COAST
      ∧ strongest (candidates (windowOf .DECIDING) walking.listen.queue) = none
      ∧ posBefore (windowOf .DECIDING).point ⟨2, 0⟩ = true := by decide +kernel
theorem witness_DecisionTakesEffect :
    InService (deciding .TRACK) ∧ (deciding .TRACK).follow.window = some (windowOf .DECIDING)
      ∧ (windowOf .DECIDING).decides = (deciding .TRACK).now + BitVec.ofNat 32 0
      ∧ NothingAhead (deciding .TRACK).player
      ∧ (followAfterDecision (elapse 0 (deciding .TRACK)) (windowOf .DECIDING)).1.state ≠ .COAST :=
  ⟨rfl, rfl, by decide +kernel, ⟨rfl, rfl⟩, by decide +kernel⟩
/-- Verse 1 with its first step read ahead. -/
def readingAhead : State := beginWalk 1 walking
/-- The same with its first anchor at 1200 and a match window standing, or in the introduction with none. -/
def entering (sec : Nat) : State :=
  let s := beginWalk sec { walking with
    store := { walking.store with slots := ⟨[(0, some { readySlot0 with
      state := .PLAYING, header := { readySlot0.header with intro := some (0, 1) } })]⟩ } }
  { s with follow := { s.follow with anchorTime := 1200#32, anchor := ⟨sec, 0⟩,
                                     window := if sec = 0 then none else some (windowOf .OPEN) } }
theorem witness_StepEntryEntersTheWindow :
    (InService readingAhead ∧ ∃ r, entryDue (elapse 0 readingAhead) = some r)
      ∧ (WindowStands (entering 1).follow
          ∧ ∃ r, entryDue (elapse 0 (entering 1)) = some r ∧ r.sec = (entering 1).follow.anchor.sec
            ∧ later (predict (entering 1).follow r.pos) ((entering 1).now + BitVec.ofNat 32 0) = true)
      ∧ ((entering 0).follow.window = none ∧ (∀ w ∈ (entering 0).player.window, w.sec = 0)
          ∧ ∃ r, entryDue (elapse 0 (entering 0)) = some r ∧ r.sec = 0
            ∧ r.sec = (entering 0).follow.anchor.sec
            ∧ later (predict (entering 0).follow r.pos) ((entering 0).now + BitVec.ofNat 32 0) = true) := by
  refine ⟨⟨show readingAhead.heldInReset = false by decide +kernel,
      Option.isSome_iff_exists.mp (by decide +kernel)⟩,
    ⟨⟨by decide +kernel, windowOf .OPEN, by decide +kernel, by decide +kernel⟩, ?_⟩,
    by decide +kernel, by decide +kernel, ?_⟩
  · exact ⟨⟨1, 0, 0, ⟨0, 192, true, none, [⟨.S, 60, false⟩]⟩, false⟩, by decide +kernel⟩
  · exact ⟨⟨0, 0, 0, ⟨0, 192, true, none, [⟨.S, 60, false⟩]⟩, false⟩, by decide +kernel⟩
/-- A planned step of verse 1 whose time has come, behind a match window. -/
def sounded : State :=
  let s := awaiting .PENDING 0 walking
  { s with player := { s.player with window := [{ sampleStep with fermata := none }] } }
theorem witness_SoundedStepsLeave :
    InService sounded ∧ sounded.follow.window = some (windowOf .PENDING)
      ∧ (∃ w ∈ sounded.player.window,
          (!(w.planned && (w.fermata.isNone || w.released) && soundArrived (elapse 0 sounded) w)) = false)
      ∧ entryDue (elapse 0 sounded) = none
      ∧ entryDue { elapse 0 sounded with player := { sounded.player with window := [] } } = none := by
  refine ⟨rfl, rfl, by decide +kernel, rfl, rfl⟩
def atFermata : State := { walking with player := { walking.player with window := [sampleStep] } }
theorem witness_CuedFermataBeginsItsWait :
    InService atFermata ∧ fermataDue (elapse 0 atFermata) = some sampleStep
      ∧ sampleStep.fermata = some ⟨.CUED, 8⟩
      ∧ 0 < min (roundDiv (8 * 192 * atFermata.follow.period : Nat) (4 * 19200)) atFermata.params.fermataCap
      ∧ atFermata.params.fermataCap ≤ 290000 := ⟨rfl, by decide +kernel, rfl, by decide +kernel⟩
/-- A TIMED fermata step at its sound time, planned and alone in the window. -/
def timedStep : WindowStep := { sampleStep with fermata := some ⟨.TIMED, 8⟩ }
def standing (s : State) : State := { s with follow := { s.follow with window := some (windowOf .OPEN) } }
def atTimed : State := { walking with player := { walking.player with window := [timedStep] } }
theorem witness_TimedFermataBegins :
    InService atTimed ∧ fermataDue (elapse 0 atTimed) = some timedStep ∧ atTimed.player.wait = none
      ∧ atTimed.params.fermataCap ≤ 290000 ∧ atTimed.params.breath ≤ 10000
      ∧ 0 < holdAt 8 192 atTimed.follow.period atTimed.params.fermataCap
      ∧ atTimed.player.window = [timedStep] ∧ atTimed.player.readAhead = none ∧ timedStep.planned = true
      ∧ timedStep.pos < endPosition atTimed timedStep.sec
      ∧ (stepKeys atTimed timedStep).length ≤ 256 - atTimed.keys.events.length
      ∧ stepKeys atTimed timedStep ≠ [] ∧ atTimed.follow.state ≠ .OFF
      ∧ fermataDue (elapse 0 (standing atTimed)) = some timedStep ∧ (standing atTimed).follow.state ≠ .OFF := by
  refine ⟨rfl, ?_⟩; decide +kernel
/-- No match window, and nothing read ahead or in the window behind position `p`: a rebase to it is quiet. -/
theorem quiet_at {p : HymnPos} {s : State}
    (h : (s.follow.state ≠ .OFF ∧ s.follow.period ≤ 1500000 ∧ s.params.choirLag ≤ 4000
        ∧ s.params.halfWidth ≤ 2500)
      ∧ (∀ x ∈ s.player.window, posBefore ⟨x.sec, x.pos⟩ p = true ∨ (x.sec = p.sec ∧ x.pos ≤ 65535))
      ∧ s.player.readAhead.all (fun r => decide (r.sec = p.sec ∧ r.pos ≤ 65535)) = true) : QuietAt p s :=
  .inr ⟨h.1.1, h.1.2.1, h.1.2.2.1, h.1.2.2.2, h.2.1, fun r hr => by simpa [hr] using h.2.2⟩
/-- The second step of verse 1 as it is read. -/
def secondStep : ReadAhead := ⟨1, 1, 192, ⟨192, 192, true, none, [⟨.S, 62, false⟩]⟩, false⟩
/-- The ordinary TIMED fermata, with no match window standing: the step behind it read ahead, and none. -/
theorem witness_TimedFermataBegins_quiet :
    (let s := { atTimed with player := { atTimed.player with readAhead := some secondStep } }
     fermataDue (elapse 0 s) = some timedStep ∧ s.player.readAhead = some secondStep
      ∧ secondStep.sec = timedStep.sec ∧ s.follow.window = none ∧ QuietAt ⟨1, 192⟩ s)
    ∧ atTimed.follow.window = none ∧ QuietAt ⟨1, endPosition atTimed 1⟩ atTimed :=
  ⟨⟨by decide +kernel, rfl, rfl, rfl, quiet_at (by decide +kernel)⟩, rfl, quiet_at (by decide +kernel)⟩
/-- R104, R105: the hold of 12 000 and the breath of 2 500; the step leaves, its key-up is at 12 000. -/
theorem test_timed_fermata_leaves :
    (after (exec (.fermataSoundTime 0) atTimed)).map
      (fun t => (t.player.window, t.follow.anchorTime, t.keys.events.map (fun e => (e.kind, e.time))))
      = some ([], 14500#32, [(.UP, 12000#32)]) := by decide +kernel
/-- Verse 1 at its end, the gap behind it as given. -/
def verseOver (c : Bool) : State :=
  let pl := { plan0 with entries := plan0.entries.map (fun e => { e with gap := ⟨192, c⟩ }) }
  standing { walking with now := 12000#32, player := { walking.player with plan := some pl } }
/-- Verse 2 at its end, the Amen to follow. -/
def lastVerseOver : State :=
  let s := verseOver false
  { s with player := { s.player with sec := some 2 },
           follow := { s.follow with anchor := ⟨2, 0⟩ } }
theorem witness_SectionEndsInGap :
    (∀ c, InService (verseOver c) ∧ (verseOver c).player.sec = some 1
        ∧ sectionEndDue (elapse 0 (verseOver c)) = true ∧ (verseOver c).player.wait = none
        ∧ (verseOver c).params.finishVerse = false ∧ (verseOver c).follow.state ≠ .OFF
        ∧ 0 < roundDiv (192 * (verseOver c).follow.period : Nat) 19200)
      ∧ (∀ c, ∃ pl, (verseOver c).player.plan = some pl ∧ PlanNumbered pl
          ∧ SectionAfter (verseOver c).params.introGap pl 1 2 ⟨192, c⟩
          ∧ ∃ e ∈ pl.entries, e.verse = 2 ∧ e.latched = false
            ∧ applies (verseOver c).organ e.registration 2 = some (0, registration0))
      ∧ (sectionEndDue (elapse 0 lastVerseOver) = true ∧ ∃ pl, lastVerseOver.player.plan = some pl
          ∧ SectionAfter lastVerseOver.params.introGap pl 2 13 pl.gap)
      ∧ SectionAfter 192 plan0 0 1 ⟨192, false⟩ := by
  refine ⟨?_, ?_, ?_, ?_⟩
  · intro c; cases c <;> (refine ⟨rfl, rfl, ?_⟩; decide +kernel)
  · intro c
    refine ⟨_, rfl, ⟨?_, ?_⟩, ⟨by decide, .inl ⟨_, .tail _ (.head _), rfl, by decide, (by decide : Mode.PLAY ≠ .OMIT), ?_, ?_⟩⟩,
      _, .tail _ (.head _), rfl, rfl, rfl⟩
    · cases c <;> decide
    · cases c <;> decide
    · cases c <;> decide
    · exact .inr ⟨_, .head _, rfl, by decide, rfl⟩
  · exact ⟨by decide +kernel, _, rfl, by decide, .inr ⟨rfl, rfl, rfl, by decide⟩⟩
  · exact ⟨by decide, .inl ⟨_, .head _, rfl, by decide, by decide, by decide, .inl ⟨rfl, rfl⟩⟩⟩
theorem test_section_end_latches_the_next_verse :
    (after (exec (.sectionEnd 0) (verseOver false))).map
      (fun t => (t.player.state, t.player.plan.map (fun p => p.entries.map (·.latched)), t.follow.anchor,
        t.follow.anchorTime)) = some (.GAP, some [true, true], ⟨2, 0⟩, 18000#32) := by decide +kernel
/-- Verse 1 at its end with no match window standing, the gap behind it of the given length and kind, the Go
latch as given, and a reservation of verse 2. -/
def verseOverBefore (length : Nat) (c go : Bool) : State :=
  let pl := { plan0 with entries := plan0.entries.map (fun e => { e with gap := ⟨length, c⟩ }) }
  { walking with now := 12000#32, params := { paramDefaults with breath := 0 },
                 player := { walking.player with plan := some pl, reservation := .HELD 2, goLatch := go } }
/-- The part as it has entered that gap. -/
def gapBefore (length : Nat) (c go : Bool) : State :=
  let s := verseOverBefore length c go
  enterGap 2 ⟨length, c⟩ (fixSection 2 { elapse 0 s with player := { s.player with
    readAhead := none,
    window := s.player.window.filter
      (fun w => !(w.sec == 1 && (!w.planned || (w.fermata.isSome && !w.released)))) } })
/-- The clauses of SectionEndsInGap that look past the gap's entry: the ordinary TIMED gap, with no match window
standing, whose latch loses the reservation; a gap of no length, TIMED, CUED, and CUED with the Go latch set
under a breath of 0. -/
theorem witness_SectionEndsInGap_quiet :
    (let s := verseOverBefore 192 false false
     InService s ∧ sectionEndDue (elapse 0 s) = true ∧ s.follow.window = none
      ∧ QuietAt ⟨2, 0⟩ { s with player := { s.player with readAhead := none } }
      ∧ (∃ pl, s.player.plan = some pl ∧ ∃ e ∈ pl.entries, s.player.reservation = .HELD e.verse
          ∧ e.latched = false ∧ e.verse = 2)
      ∧ s.flags.raised.wf none = true ∧ s.player.slot = some 0
      ∧ slotRec s.store 0 = some { readySlot0 with state := .PLAYING }
      ∧ (sectionSteps readySlot0.header 2).1 < (sectionSteps readySlot0.header 2).2
      ∧ (readStep s.store { readySlot0 with state := .PLAYING } 0).isSome = true)
    ∧ (∀ c go, sectionEndDue (elapse 0 (verseOverBefore 0 c go)) = true
        ∧ roundDiv (0 * (verseOverBefore 0 c go).follow.period : Nat) 19200 = 0)
    ∧ NothingDue (sectionEntered 2 (gapBefore 0 false false))
    ∧ ∃ w, (gapBefore 0 true true).player.wait = some w ∧ w.kind ≠ .fermata
        ∧ NothingDue (sectionEntered w.resume.sec
            (resumeWait w (timePlus 12000#32 0) false (nowVoid w (gapBefore 0 true true)))) := by
  refine ⟨⟨rfl, by decide +kernel, rfl, quiet_at (by decide +kernel),
      ⟨_, rfl, _, .tail _ (.head _), rfl, rfl, rfl⟩, rfl, rfl, rfl, by decide +kernel, by decide +kernel⟩,
    by decide +kernel, ⟨by decide +kernel, by decide +kernel, by decide +kernel⟩, _, rfl, by decide +kernel, ?_⟩
  exact ⟨by decide +kernel, by decide +kernel, by decide +kernel⟩
/-- R102, R107: a gap of no length ends in the event of the section's end, as its kind and the Go latch say. -/
theorem test_gap_of_no_length :
    [(false, false), (true, false), (true, true)].map (fun x =>
        (after (exec (.sectionEnd 0) (verseOverBefore 0 x.1 x.2))).map (fun t =>
          (t.player.state, t.player.lastOutcome, t.follow.anchorTime, t.player.reservation)))
      = [some (.VERSE, none, 12000#32, .LOST), some (.GAP, some .waiting, 0#32, .LOST),
         some (.VERSE, some .void, 12000#32, .LOST)] := by decide +kernel
/-- A cued wait of a gap before verse 2 in the given sub-phase. -/
def gapWait (x : WaitPhase) : Wait := { fermataWait x with kind := .gap, resume := ⟨2, 0⟩ }
def gapHeld (x : WaitPhase) (go : Bool) : State :=
  standing { walking with player := { walking.player with
      state := .GAP, gap := some ⟨2, none⟩, wait := some (gapWait x), goLatch := go } }
theorem witness_PausesReturn :
    (let s := { fermataHeld .BREATH with player := { (fermataHeld .BREATH).player with
        wait := none, fermata := some ⟨sampleStep, .TIMED, 0#32, 12000, 0#32⟩ } }
     InService s ∧ s.player.sec = some 1 ∧ fermataBackDue (elapse 0 s) = true
      ∧ NothingDue { elapse 0 s with player := { s.player with state := stateOfSection 1, fermata := none } })
      ∧ (let s := { walking with player := { walking.player with state := .GAP, gap := some ⟨2, some 0#32⟩ },
                                 follow := { walking.follow with anchor := ⟨2, 0⟩ } }
         InService s ∧ gapDue (elapse 0 s) = some 2
          ∧ NothingDue (raise (.verse 2 0 .PLAY) { elapse 0 s with player :=
              { s.player with state := stateOfSection 2, sec := some 2, wait := none, gap := none } }))
      ∧ (let s := fermataHeld .BREATH
         s.player.wait = some (fermataWait .BREATH) ∧ due (elapse 0 s) (fermataWait .BREATH).breathEnd = true
          ∧ NothingDue { elapse 0 s with player :=
              { s.player with state := stateOfSection 1, fermata := none, wait := none } })
      ∧ (let s := { gapHeld .BREATH false with follow := { walking.follow with anchor := ⟨2, 0⟩ } }
         s.player.wait = some (gapWait .BREATH) ∧ due (elapse 0 s) (gapWait .BREATH).breathEnd = true
          ∧ NothingDue (raise (.verse 2 0 .PLAY) { elapse 0 s with player :=
              { s.player with state := stateOfSection 2, sec := some 2, wait := none, gap := none } })) := by
  refine ⟨⟨rfl, rfl, by decide +kernel, ?_⟩, ⟨rfl, by decide +kernel, ?_⟩, ⟨rfl, by decide +kernel, ?_⟩,
    rfl, by decide +kernel, ?_⟩ <;> exact ⟨by decide +kernel, by decide +kernel, by decide +kernel⟩
theorem witness_GapMinimumEnds (go : Bool) :
    let s := gapHeld .MINIMUM go
    InService s ∧ s.player.state = .GAP ∧ s.player.gap = some ⟨2, none⟩
      ∧ s.player.wait = some (gapWait .MINIMUM) ∧ s.player.goLatch = go
      ∧ (gapWait .MINIMUM).minimumEnd = s.now + BitVec.ofNat 32 0 ∧ s.params.finishVerse = false
      ∧ 0 < s.params.breath ∧ s.params.breath ≤ 10000 ∧ s.flags.raised.wf none = true
      ∧ s.follow.state ≠ .OFF := by
  cases go <;> (refine ⟨rfl, rfl, rfl, rfl, rfl, ?_⟩; decide +kernel)
/-- The clauses on a void wait of a gap with no match window standing, and under a breath of 0. -/
theorem witness_GapMinimumEnds_quiet :
    let g := gapHeld .MINIMUM true
    let s := { g with follow := { g.follow with window := none }, params := { g.params with breath := 0 } }
    let v := nowVoid (gapWait .MINIMUM) (elapse 0 s)
    s.player.goLatch = true ∧ v.follow.window = none ∧ QuietAt ⟨2, 0⟩ v ∧ v.player.slot = some 0
      ∧ NothingDue (sectionEntered 2 (resumeWait (gapWait .MINIMUM) (timePlus 0#32 0) false v)) :=
  ⟨rfl, rfl, quiet_at (by decide +kernel), rfl, by decide +kernel, by decide +kernel, by decide +kernel⟩
/-- R107: with the Go latch set the wait is VOID, its breath ends 2 500 on. -/
theorem test_gap_minimum_void :
    (after (exec (.minimumEnd 0) (gapHeld .MINIMUM true))).map
      (fun t => (t.player.wait.map (fun w => (w.phase, w.breathEnd)), t.player.goLatch, t.follow.anchor))
      = some (some (.BREATH, 2500#32), false, ⟨2, 0⟩) := by decide +kernel
theorem witness_FermataMinimumEnds (go : Bool) :
    let s := standing (fermataHeld .MINIMUM)
    let u := { s with player := { s.player with goLatch := go, window := [sampleStep] } }
    InService u ∧ u.player.state = .FERMATA ∧ u.player.fermata = some ⟨sampleStep, .CUED, 0#32, 12000, 0#32⟩
      ∧ u.player.wait = some (fermataWait .MINIMUM) ∧ u.player.goLatch = go
      ∧ u.player.window = [sampleStep] ∧ u.player.readAhead = none ∧ sampleStep.planned = true
      ∧ (fermataWait .MINIMUM).minimumEnd = u.now + BitVec.ofNat 32 0 ∧ u.params.finishVerse = false
      ∧ 0 < u.params.breath ∧ u.params.breath ≤ 10000 ∧ u.flags.raised.wf none = true
      ∧ u.follow.state ≠ .OFF ∧ (stepKeys u sampleStep).length ≤ 256 - u.keys.events.length
      ∧ stepKeys u sampleStep ≠ [] := by
  cases go <;> (refine ⟨rfl, rfl, rfl, rfl, rfl, rfl, rfl, rfl, ?_⟩; decide +kernel)
/-- The clauses on a CUED fermata's minimum end with no match window standing, its step behind the follow cursor
and the step read ahead held back by the fence, and on a void wait under a breath of 0. -/
theorem witness_FermataMinimumEnds_quiet :
    let p := (fermataHeld .MINIMUM).player
    let s := { fermataHeld .MINIMUM with
      params := { paramDefaults with breath := 0 },
      follow := { walking.follow with cursor := ⟨1, 1⟩ },
      player := { p with window := [sampleStep], readAhead := some secondStep, fence := .upTo ⟨1, 0⟩,
                         goLatch := true } }
    let w := fermataWait .MINIMUM
    let v := nowVoid w (releaseAtMinimum w (elapse 0 s))
    s.follow.window = none ∧ FollowerRests s ∧ QuietAt w.resume v
      ∧ NothingDue (backInSection 1 (resumeWait w (timePlus 0#32 0) false v)) := by
  refine ⟨rfl, .inr ⟨fun r h => by cases h; decide +kernel, fun _ _ x hx => ?_⟩, quiet_at (by decide +kernel),
    by decide +kernel, by decide +kernel, by decide +kernel⟩
  have : x = sampleStep := by simpa using hx
  subst this
  exact fun h => absurd h.2 (by decide +kernel)
theorem witness_standing (s : State) (h : s.follow.state ≠ .OFF) : WindowStands (standing s).follow :=
  ⟨h, windowOf .OPEN, rfl, by decide⟩
/-- What is left due once the wait has ended: nothing, in a fermata of verse 1, in a gap before verse 2, and in a
BREATH that the onset pulls earlier. -/
theorem witness_DeclaredOnsetsAreHeard_return :
    (let s := joinOnset heardOnset (listening (standing (fermataHeld .WAITING)))
     let t := resumeWait (fermataWait .WAITING) 9080#32 true s
     WindowStands s.follow ∧ s.player.sec = some 1 ∧ NothingDue { t with
        player := { t.player with state := stateOfSection 1, fermata := none, wait := none } })
      ∧ (let s := joinOnset heardOnset (listening (gapHeld .WAITING false))
         let t := resumeWait (gapWait .WAITING) 9080#32 true s
         NothingDue (raise (.verse 2 0 .PLAY) { t with
          player := { t.player with state := stateOfSection 2, sec := some 2, wait := none, gap := none } }))
      ∧ (let w := { fermataWait .BREATH with breathEnd := 9081#32, began := 9880#32 }
         let u := fermataHeld .BREATH
         let s := joinOnset heardOnset (listening (standing { u with player := { u.player with wait := some w } }))
         let t := pullBreath w 9080#32 s
         s.player.wait = some w ∧ Admitted s heardOnset ∧ NothingDue { t with
          player := { t.player with state := stateOfSection 1, fermata := none, wait := none } }) := by
  refine ⟨⟨⟨by decide +kernel, windowOf .OPEN, rfl, by decide⟩, by decide +kernel, by decide +kernel,
      by decide +kernel, by decide +kernel⟩, ⟨by decide +kernel, by decide +kernel, by decide +kernel⟩, rfl, ?_,
      by decide +kernel, by decide +kernel, by decide +kernel⟩
  exact ⟨.inr (.inr ⟨.inl rfl, _, _, rfl, .inr rfl, rfl, rfl⟩), by decide +kernel, by decide +kernel,
    by decide +kernel, by decide +kernel⟩
/-- The clauses of PausesBeginAndEnd: their hypotheses are met in the five theorems named here. -/
theorem witness_PausesBeginAndEnd :
    fermataDue (elapse 0 atTimed) = some timedStep ∧ sectionEndDue (elapse 0 (verseOver true)) = true
      ∧ fermataBackDue (elapse 0 { fermataHeld .BREATH with player := { (fermataHeld .BREATH).player with
          wait := none, fermata := some ⟨sampleStep, .TIMED, 0#32, 12000, 0#32⟩ } }) = true
      ∧ (gapHeld .MINIMUM true).player.wait = some (gapWait .MINIMUM)
      ∧ (fermataHeld .MINIMUM).player.wait = some (fermataWait .MINIMUM) :=
  ⟨witness_TimedFermataBegins.2.1, (witness_SectionEndsInGap.1 true).2.2.1, witness_PausesReturn.1.2.2.1,
    (witness_GapMinimumEnds true).2.2.2.1, (witness_FermataMinimumEnds true).2.2.2.1⟩
/-- R131: DROP in a CUED gap before the Amen releases the held key at once. -/
theorem test_drop_before_the_amen_releases :
    (after (exec (.stopHymnEndOfVerse 0 1 1) (sounding { gapHeld .WAITING false with
      player := { (gapHeld .WAITING false).player with gap := some ⟨13, none⟩ } }))).map
      (fun t => (t.player.state, t.keys.events.map (fun e => (e.kind, e.key)))) = some (.ENDING, [(.UP, 24)]) := by
  decide +kernel
/-- The Amen at its end, with a key event still to send. -/
def amenOver : State :=
  { amenWalk with now := 12000#32,
                  follow := { amenWalk.follow with anchor := ⟨13, 0⟩ },
                  keys := { amenWalk.keys with events :=
                    [⟨.UP, .S, .d1, 24, 13, some 2, .position 384 none, 12500#32, false, 0#32⟩] } }
theorem numbered0 : PlanNumbered plan0 := ⟨by decide, by decide⟩
theorem witness_LastSectionEndsInEnding :
    InService amenOver ∧ amenOver.player.sec = some 13 ∧ sectionEndDue (elapse 0 amenOver) = true
      ∧ amenOver.player.wait = none ∧ amenOver.player.plan = some plan0 ∧ PlanNumbered plan0
      ∧ amenOver.keys.events ≠ [] :=
  ⟨rfl, rfl, by decide +kernel, rfl, rfl, numbered0, by decide +kernel⟩
/-- No Amen, and verse 2 omitted. -/
def omitBehind : Plan :=
  { plan0 with amen := false, entries := plan0.entries.map (fun e => if e.verse = 2 then { e with mode := .OMIT } else e) }
/-- Verse 1 at its end with verse 2 omitted behind it, which a HELD reservation names, and no event left. -/
def omitOver : State :=
  let s := reserved (.HELD 2)
  { s with now := 12000#32, player := { s.player with plan := some omitBehind } }
/-- The clause on a hymn without an Amen, with an OMIT verse behind the last played one, with a key down and with
nothing left to send; and the Amen with nothing left to send. -/
theorem witness_LastSectionEndsInEnding_omitted :
    (∀ s ∈ [sounding omitOver, omitOver], InService s ∧ s.player.sec = some 1
        ∧ sectionEndDue (elapse 0 s) = true ∧ s.player.wait = none ∧ s.player.plan = some omitBehind
        ∧ s.player.reservation = .HELD 2 ∧ s.keys.events = [])
      ∧ PlanNumbered omitBehind ∧ omitBehind.amen = false
      ∧ (∀ e ∈ omitBehind.entries, 1 < e.verse → e.mode = .OMIT)
      ∧ (∃ e ∈ omitBehind.entries, e.verse = 2 ∧ e.latched = false)
      ∧ anyDown (sounding omitOver).map = true
      ∧ ∀ s ∈ [omitOver, { amenOver with keys := { amenOver.keys with events := [] } }],
        sectionEndDue (elapse 0 s) = true ∧ s.keys.events = [] ∧ anyDown s.map = false ∧ s.player.slot = some 0
          ∧ slotRec s.store 0 = some { readySlot0 with state := .PLAYING } ∧ s.store.slots.wf none = true
          ∧ 2 ≤ s.params.critical := by
  refine ⟨?_, ⟨by decide, by decide⟩, rfl, by decide, by decide, by decide +kernel, ?_⟩
  · intro s hs
    have h : s = sounding omitOver ∨ s = omitOver := by simpa using hs
    rcases h with rfl | rfl <;> exact ⟨rfl, rfl, by decide +kernel, rfl, rfl, rfl, rfl⟩
  · intro s hs
    have h : s = omitOver ∨ s = { amenOver with keys := { amenOver.keys with events := [] } } := by simpa using hs
    rcases h with rfl | rfl <;>
      exact ⟨by decide +kernel, rfl, by decide +kernel, rfl, rfl, by decide +kernel, by decide +kernel⟩
/-- R92, R103: verse 2 is passed over, its reservation LOST, and with no key down the hymn has ended at once. -/
theorem test_last_section_passes_over :
    (after (exec (.sectionEnd 0) (sounding omitOver))).map (fun t =>
        (t.player.state, t.player.reservation, flagUp t.flags .RESERVATION_LOST,
          t.player.plan.map (fun p => p.entries.map (·.latched))))
      = some (.ENDING, .LOST, true, some [true, true])
    ∧ (after (exec (.sectionEnd 0) omitOver)).map (fun t =>
        (t.player.state, flagUp t.flags .RESERVATION_LOST, raiseRecord t.flags .HYMN,
          (slotRec t.store 0).map (·.state)))
      = some (.IDLE, true, some ⟨12000#32, .hymn .ended 0 101⟩, some .READY) := by decide +kernel
/-- The clause on the passing over: verse 2 omitted and named by a HELD reservation, below the Amen. -/
theorem witness_LatchFixesTheVerse_omitted :
    omitOver.player.plan = some omitBehind ∧ PlanNumbered omitBehind ∧ omitOver.player.reservation = .HELD 2
      ∧ (∃ e ∈ omitBehind.entries, e.verse = 2 ∧ 2 < 13 ∧ e.mode = .OMIT ∧ e.latched = false) :=
  ⟨rfl, ⟨by decide, by decide⟩, rfl, by decide⟩
theorem witness_LatchFixesTheVerse :
    (reserved (.HELD 2)).player.plan = some plan0
      ∧ planEntry (reserved (.HELD 2)).player 2 = some ⟨2, .PLAY, none, 0, ⟨192, false⟩, false, none⟩
      ∧ applies (reserved (.HELD 2)).organ none 2 = some (0, registration0)
      ∧ (reserved (.HELD 2)).flags.raised.wf none = true
      ∧ Presents organ0 registration0 (.stopGroup .d1 0) 5
      ∧ (5 ≠ targetState organ0 walking.map (.stopGroup .d1 0))
      ∧ Presents organ0 registration0 (.stopGroup .d1 1) 0
      ∧ (0 = targetState organ0 walking.map (.stopGroup .d1 1)) := by
  have bits (g v : Nat) (h : ∀ i, i < 8 → v.testBit i
      = (decide (8 * g + i < 14) && (5#32).getLsbD (8 * g + i))) :
      ∀ i, i < 8 → (v.testBit i = true ↔ 8 * g + i < 14
        ∧ ∃ b, some 5#32 = some b ∧ b.getLsbD (8 * g + i) = true) := by
    intro i hi
    rw [h i hi]
    simp
  exact ⟨rfl, rfl, rfl, rfl, ⟨rfl, by decide, by decide, bits 0 5 (by decide)⟩, by decide +kernel,
    ⟨rfl, by decide, by decide, bits 1 0 (by decide)⟩, by decide +kernel⟩
/-- The Great enclosed, its level given as 7 or UNCHANGED. -/
theorem witness_LatchFixesTheVerse_expression :
    let o := { organ0 with divisions := { organ0.divisions with d1 := { great with enclosed := true } } }
    let r (x : Expression) : Registration :=
      { registration0 with expression := ⟨some x, none, none, none, none⟩ }
    Presents o (r (.level 7)) (.expression .d1) 7 ∧ (∀ v, ¬ Presents o (r .UNCHANGED) (.expression .d1) v)
      ∧ (∀ v, ¬ Presents organ0 (r (.level 7)) (.expression .d1) v)
      ∧ (∀ v, ¬ Presents organ0 registration0 (.stopGroup .d1 2) v) := by
  refine ⟨⟨rfl, rfl, rfl⟩, fun v h => ?_, fun v h => ?_, fun v h => ?_⟩
  · exact nomatch h.2.2
  · exact nomatch h.2.1
  · exact absurd h.2.1 (by decide)
theorem witness_FoldTakesTheFewestOctaves :
    0 < 61 ∧ foldPitch 36 61 97 = some 49 ∧ foldPitch 36 1 37 = none := by decide +kernel
theorem witness_PlanningIsAllOrNone :
    ([] : List Draft).length ≤ 256 - walking.keys.events.length
      ∧ 256 - walking.keys.events.length < (List.replicate 257 (draftFixed .S .d1 0 0#32)).length := by
  decide +kernel
theorem witness_TakenEventsChangeTheMap :
    let e := keyEntry (sounding armed).map .d1 24
    24 < 64 ∧ (sounding armed).map.keys.wf noKey = true ∧ (sounding armed).leak.wf noLeak = true
      ∧ Voice.S ∈ e.holders ∧ Voice.A ∉ e.holders ∧ (∀ w ∈ e.holders, w = .S)
      ∧ (divRec (sounding armed).organ .d1).leakTracking = true
      ∧ (keyEntry armed.map .d1 24).holders = [] ∧ (divRec armed.organ .d2).leakTracking = false := by
  decide +kernel
theorem witness_CipherGuardReleasesDueKeys :
    let s := sounding armed
    s.map.keys.wf noKey = true ∧ keysInRange s.map = true ∧ s.flags.raised.wf none = true
      ∧ keyDown s.map .d1 24 = true ∧ timeDiff (keyEntry s.map .d1 24).deadline 120000#32 ≤ 0
      ∧ 0 < timeDiff (keyEntry s.map .d1 24).deadline 119999#32 := by decide +kernel
def echoAwaited (h : Option Echo) : State :=
  { armed with keyline := { armed.keyline with awaited := some 3, heldEcho := h } }
theorem witness_EchoesAreHeldAndJudged :
    (InService (echoAwaited none) ∧ (echoAwaited none).keyline.state ≠ .OFF
        ∧ (echoAwaited none).keyline.awaited = some 3 ∧ (echoAwaited none).keyline.heldEcho = none)
      ∧ ((echoAwaited (some ⟨4, true, 1⟩)).keyline.heldEcho = some ⟨4, true, 1⟩ ∧ (3#8).toNat = 3 ∧ 4 ≠ 3)
      ∧ ((echoAwaited (some ⟨3, true, 1⟩)).keyline.heldEcho = some ⟨3, true, 1⟩)
      ∧ ([] : List Byte).length ≠ 6 := ⟨⟨rfl, by decide +kernel, rfl, rfl⟩, ⟨rfl, by decide, by decide⟩, rfl, by decide⟩
/-- A judgement in the given state at echo limit 1 and recover count 1, of a GOOD echo or of none. -/
def judged (x : KeylineState) (sweep : List (Division × Nat)) (origin : Bool) (h : Option Echo) : State :=
  let s := echoAwaited h
  { s with params := { s.params with echoLimit := 1, recoverCount := 1 },
           keyline := { s.keyline with state := x, sweep := sweep, originFault := origin } }
/-- The judgement in every state: into FAULT from RUNNING and from SWEEP, out of it, and the two ends of a SWEEP
in RUNNING. -/
theorem witness_EchoesAreHeldAndJudged_judgement :
    let good : Option Echo := some ⟨3, true, 2⟩
    let state (s : State) : KeylineState := (judgeEcho s).keyline.state
    (∀ x o l h, (judged x l o h).keyline.awaited = some 3 ∧ (judged x l o h).keyline.state = x)
      ∧ state (judged .RUNNING [] false none) = .FAULT ∧ state (judged .RUNNING [] false good) = .RUNNING
      ∧ state (judged .FAULT [] false good) = .RUNNING ∧ state (judged .FAULT [] false none) = .FAULT
      ∧ state (judged .SWEEP [] false none) = .FAULT ∧ state (judged .SWEEP [(.d1, 0)] true good) = .SWEEP
      ∧ (∀ o, state (judged .SWEEP [] o good) = .RUNNING) ∧ state (judged .OFF [] false good) = .OFF :=
  ⟨fun _ _ _ _ => ⟨rfl, rfl⟩, by decide +kernel⟩
/-- R151, R160: what the two flags carry: the frame judged, the outcome and the board count. -/
theorem test_judgement_raises :
    raiseRecord (judgeEcho (judged .RUNNING [] false (some ⟨3, false, 2⟩))).flags .KEYLINE_FAULT
        = some ⟨0#32, .keylineFault 3 .CHECK_BAD (some 2)⟩
      ∧ [false, true].map (fun o => raiseRecord (judgeEcho (judged .SWEEP [] o (some ⟨3, true, 2⟩))).flags
          .KEYLINE_RESTORED) = [none, some ⟨0#32, .keylineRestored 3 (some 2)⟩] := by decide +kernel
theorem witness_FrameStartSendsOneFrame : InService armed ∧ frameDue (elapse 20 armed) = true :=
  ⟨rfl, by decide +kernel⟩
/-- A hymn in ENDING or STOPPING whose last key-up is due at the frame start at 20. -/
def lastFrame (x : PlayerState) : State :=
  let s := sounding walking
  { s with now := 20#32, player := { s.player with state := x, heldRelease := some 1 },
           params := { s.params with critical := 2 },
           keys := { s.keys with events := [⟨.UP, .S, .d1, 24, 1, none, .fixed, 20#32, true, 0#32⟩] } }
/-- The clauses of FrameStartSendsTheComposition and LastFrameEndsTheHymn. -/
theorem witness_LastFrameEndsTheHymn :
    (∀ x, let s := lastFrame x
     InService s ∧ frameDue (elapse 0 s) = true ∧ NothingAhead s.player ∧ s.player.releases = []
      ∧ s.player.slot = some 0 ∧ slotRec s.store 0 = some { readySlot0 with state := .PLAYING }
      ∧ s.store.slots.wf none = true ∧ 2 ≤ s.params.critical)
      ∧ (let s := lastFrame .ENDING
         let r := compose (s.now + BitVec.ofNat 32 0) (readyToCompose 0 s)
         r.1.keys.events = [] ∧ anyDown r.1.map = false)
      ∧ (let s := { armed with now := 20#32 }
         let r := compose (s.now + BitVec.ofNat 32 0) (readyToCompose 0 s)
         InService s ∧ frameDue (elapse 0 s) = true ∧ r.1.keys.events.length = s.keys.events.length
          ∧ s.player.state ≠ .ENDING ∧ s.player.state ≠ .STOPPING) :=
  ⟨fun x => by
    cases x <;> exact ⟨rfl, by decide +kernel, ⟨rfl, rfl⟩, rfl, rfl, rfl, by decide +kernel, by decide +kernel⟩,
    by decide +kernel, rfl, by decide +kernel⟩
/-- R103: the frame that sends the last key-up brings the return to IDLE. -/
theorem test_last_frame_ends_the_hymn :
    (after (exec (.frameStart 0) (lastFrame .STOPPING))).map
      (fun t => (t.player.state, (slotRec t.store 0).map (·.state), t.keyline.lastFrame.take 6))
      = some (.IDLE, some .READY, [0xA6, 0, 2, 4, 3, 0]) := by decide +kernel
/-- The clauses of CompositionTakesDueEvents, with a settle watch and a DOWN of its section. -/
theorem witness_CompositionTakesDueEvents :
    CompositionSound (lastFrame .ENDING) ∧ (lastFrame .ENDING).keyline.state = .RUNNING
      ∧ (let s (x : KeylineState) : State :=
            { sounding armed with keyline := { armed.keyline with state := x } }
         CompositionSound (s .FAULT) ∧ (s .FAULT).keyline.state = .FAULT ∧ (s .SWEEP).keyline.state = .SWEEP)
      ∧ (let w : Watch := ⟨1, 20#32⟩
         let e (n : Nat) : KeyEvent := ⟨.DOWN, .S, .d1, 24, n, none, .fixed, 19#32, true, 0#32⟩
         let s := { armed with keyline := { armed.keyline with watch := some w } }
         s.keyline.watch = some w ∧ (e 1).kind = .DOWN ∧ (e 1).sec = w.sec ∧ (e 2).sec ≠ w.sec
          ∧ later w.settle (e 1).time = true) := by
  refine ⟨⟨by decide +kernel, by decide +kernel, by decide +kernel, by decide +kernel⟩, rfl,
    ⟨⟨by decide +kernel, by decide +kernel, by decide +kernel, by decide +kernel⟩, rfl, rfl⟩, by decide +kernel⟩
/-- R6, R54, R84, R93, R116, R139, R168, R176: a state of a hymn with a key down has every invariant but the
division of the pool, and steps on. -/
theorem witness_QueuesStayWithinCapacity :
    withinCapacity (sounding walking) = true ∧ (after (step (sounding walking))).isSome = true := by
  decide +kernel
theorem witness_PlayerRecordsStayBound :
    PlayerBound (fermataHeld .WAITING) ∧ ReservationOpen (reserved (.HELD 2)) ∧ PlanSound (reserved (.HELD 2))
      ∧ (after (step (fermataHeld .WAITING))).isSome = true
      ∧ (after (step (reserved (.HELD 2)))).isSome = true := by
  refine ⟨⟨?_, ?_, by decide +kernel⟩, ?_, fun pl h => ?_, by decide +kernel, by decide +kernel⟩
  · intro w h; cases h; rfl
  · intro f h; cases h; exact ⟨rfl, fun _ => rfl⟩
  · intro v h; cases h; exact ⟨plan0, rfl, by decide +kernel⟩
  · cases h; exact ⟨rfl, by decide⟩
theorem witness_MaskKeepsAgreeing :
    MaskAgrees (sounding walking) ∧ (after (step (sounding walking))).isSome = true := by
  refine ⟨⟨by decide +kernel, by decide +kernel, by decide +kernel, by decide +kernel, ?_, by decide +kernel,
    by decide +kernel⟩, by decide +kernel⟩
  intro d; cases d <;> decide +kernel
theorem witness_StoreStaysSound :
    StoreSound armed ∧ (after (step armed)).isSome = true := by
  refine ⟨⟨by decide +kernel, ?_, by decide +kernel, by decide +kernel⟩, by decide +kernel⟩
  intro e he
  have he : e < 12288 := he
  show List.countP _ [(6, 12282), (0, 6)] = 1
  by_cases h : e < 6
  · have h' : ¬ 6 ≤ e := by omega
    simp [List.countP, List.countP.go, h, h']
  · have h' : 6 ≤ e := by omega
    simp [List.countP, List.countP.go, h, h', he]

/-- The clause of TuneEraseFreesTheExtent on the entries that become free: the pool of `armed` is divided. -/
theorem witness_TuneEraseFreesTheExtent_divided :
    PoolDivided armed.store ∧ slotRec armed.store 0 = some readySlot0 ∧ readySlot0.state ≠ .PLAYING :=
  ⟨witness_StoreStaysSound.1.2, rfl, by decide +kernel⟩

/-! ### The clauses on the choir, the pauses and the windows -/

/-- The clause of ParametersAreClampedAndTaken on a cipher limit out of its range: 39999 is taken as 40000,
and the fermata cap goes down with it. -/
theorem test_cipher_limit_takes_the_fermata_cap_down :
    (after (exec (.setParam 0 1 19 39999) (sounding walking))).map
      (fun t => (t.params.cipherLimit, t.params.fermataCap, (keyEntry t.map .d1 24).deadline))
      = some (40000, 30000, 40000#32) := by decide +kernel

/-- A cued wait of START_WAIT before verse 1. -/
def startWait (x : WaitPhase) : Wait := { fermataWait x with kind := .start, resume := ⟨1, 0⟩ }
/-- A cued wait of a gap or of START_WAIT whose max wait of 5 units is over, with a match window standing. -/
def sectionHeld (w : Wait) : State :=
  standing { walking with
    now := 5#32, params := { paramDefaults with maxWait := 5 },
    player := { walking.player with state := waitState w.kind, wait := some w,
                                    gap := if w.kind = .gap then some ⟨2, none⟩ else none } }
theorem witness_GoResumesLatchesOrIsRefused_section :
    ∀ w ∈ [gapWait .WAITING, startWait .WAITING], let s := sectionHeld w
      LinkIdle s ∧ InService s ∧ w.kind ≠ .fermata ∧ s.player.state = waitState w.kind
        ∧ s.player.wait = some w ∧ w.phase = .WAITING ∧ s.params.finishVerse = false ∧ 0 < s.params.breath
        ∧ s.params.breath ≤ 10000 ∧ 0 < s.params.maxWait
        ∧ timePlus w.start s.params.maxWait = s.now + BitVec.ofNat 32 0 ∧ WindowStands s.follow
        ∧ s.player.slot = some 0 ∧ slotRec s.store 0 = some { readySlot0 with state := .PLAYING }
        ∧ (let steps := sectionSteps readySlot0.header w.resume.sec
           steps.1 < steps.2 ∧ ((readStep s.store readySlot0 steps.1).any (fun r =>
             decide (r.position - sectionBase readySlot0 w.resume.sec ≤ 65535))) = true)
        ∧ s.follow.period ≤ 1500000 ∧ w.resume.pos = 0 := by
  intro w hw
  have h : w = gapWait .WAITING ∨ w = startWait .WAITING := by simpa using hw
  rcases h with rfl | rfl <;>
    exact ⟨⟨rfl, rfl, rfl, rfl, rfl⟩, rfl, by decide, rfl, rfl, rfl, rfl, by decide +kernel, by decide +kernel,
      by decide +kernel, by decide +kernel, ⟨by decide +kernel, windowOf .OPEN, rfl, by decide⟩, rfl, rfl,
      by decide +kernel, by decide +kernel, rfl⟩
/-- A fermata's WAITING with the fermata step in the window, its second step read ahead behind it, the fence at
the fermata, a match window standing, and the max wait of 5 units over. -/
def fermataAhead : State :=
  let p := (fermataHeld .WAITING).player
  standing { fermataHeld .WAITING with
    now := 5#32, params := { paramDefaults with maxWait := 5 },
    player := { p with window := [{ sampleStep with release := some 0#32, released := true }],
                       readAhead := some secondStep, fence := .upTo ⟨1, 0⟩ } }
theorem witness_GoResumesLatchesOrIsRefused_ahead :
    let w := fermataWait .WAITING
    let s := fermataAhead
    LinkIdle s ∧ InService s ∧ s.player.state = .FERMATA ∧ s.player.wait = some w ∧ w.kind = .fermata
      ∧ w.phase = .WAITING ∧ s.params.finishVerse = false ∧ 0 < s.params.breath ∧ s.params.breath ≤ 10000
      ∧ 0 < s.params.maxWait ∧ timePlus w.start s.params.maxWait = s.now + BitVec.ofNat 32 0
      ∧ WindowStands s.follow ∧ s.follow.period ≤ 1500000
      ∧ ∃ r, s.player.readAhead = some r ∧ r.sec = w.resume.sec ∧ w.resume.pos ≤ r.pos ∧ r.pos ≤ 65535 :=
  ⟨⟨rfl, rfl, rfl, rfl, rfl⟩, rfl, rfl, rfl, rfl, rfl, rfl, by decide +kernel, by decide +kernel,
    by decide +kernel, by decide +kernel, ⟨by decide +kernel, windowOf .OPEN, rfl, by decide⟩, by decide +kernel,
    _, rfl, rfl, by decide, by decide⟩
/-- CUED start of the sample tune, its reply sent: START_WAIT as the part reaches it, with no match window. -/
def cuedStart : State :=
  ((after (exec (.startHymn 0 1 startField) armed)).bind (fun t => after (exec (.replySent 0) t))).getD armed
/-- The clauses on a resume with no match window standing: in START_WAIT as START_HYMN leaves it, in the WAITING of
a gap and of START_WAIT, and in a fermata's with the step behind it read ahead. -/
theorem witness_GoResumesLatchesOrIsRefused_quiet :
    (LinkIdle cuedStart ∧ InService cuedStart ∧ cuedStart.player.state = .START_WAIT
        ∧ (∃ w, cuedStart.player.wait = some w ∧ w.kind = .start ∧ w.phase = .WAITING ∧ w.resume = ⟨1, 0⟩)
        ∧ cuedStart.follow.window = none ∧ QuietAt ⟨1, 0⟩ cuedStart ∧ cuedStart.params.finishVerse = false
        ∧ 0 < cuedStart.params.breath ∧ cuedStart.params.breath ≤ 10000 ∧ cuedStart.player.slot = some 0
        ∧ (slotRec cuedStart.store 0).any (fun sl => (readStep cuedStart.store sl 0).isSome) = true)
      ∧ (∀ w ∈ [gapWait .WAITING, startWait .WAITING],
          QuietAt w.resume { sectionHeld w with follow := { (sectionHeld w).follow with window := none } })
      ∧ QuietAt ⟨1, 192⟩ { fermataAhead with follow := { fermataAhead.follow with window := none } } := by
  refine ⟨⟨⟨by decide +kernel, by decide +kernel, by decide +kernel, by decide +kernel, by decide +kernel⟩,
    (by decide +kernel : cuedStart.heldInReset = false), by decide +kernel, ⟨⟨.start, .WAITING, ⟨1, 0⟩, 0#32, 0#32, 0#32, 0#32, false⟩,
      by decide +kernel, rfl, rfl, rfl⟩, by decide +kernel, quiet_at (by decide +kernel), by decide +kernel,
    by decide +kernel, by decide +kernel, by decide +kernel, by decide +kernel⟩, ?_, quiet_at (by decide +kernel)⟩
  intro w hw
  have h : w = gapWait .WAITING ∨ w = startWait .WAITING := by simpa using hw
  rcases h with rfl | rfl <;> exact quiet_at (by decide +kernel)
/-- A breath of 0: nothing more is due where it ends, in a fermata, in a gap and in START_WAIT. -/
theorem witness_GoResumesLatchesOrIsRefused_breathless :
    let short (s : State) : State := { s with params := { s.params with breath := 0 } }
    (let t := resumeWait (fermataWait .WAITING) (timePlus 0#32 0) false (short (fermataHeld .WAITING))
     t.player.sec = some 1 ∧ NothingDue (backInSection 1 t))
      ∧ ∀ w ∈ [gapWait .WAITING, startWait .WAITING],
        NothingDue (sectionEntered w.resume.sec
          (resumeWait w (timePlus 5#32 0) false (short (sectionHeld w)))) := by
  refine ⟨⟨by decide +kernel, by decide +kernel, by decide +kernel, by decide +kernel⟩, ?_⟩
  intro w hw
  have h : w = gapWait .WAITING ∨ w = startWait .WAITING := by simpa using hw
  rcases h with rfl | rfl <;> exact ⟨by decide +kernel, by decide +kernel, by decide +kernel⟩
/-- R108 to R110: GO in START_WAIT as START_HYMN leaves it: the rebase behind the breath, the fence lifted and set
again by the verse's last step as it enters. -/
theorem test_go_after_a_cued_start :
    (after (exec (.go 0 1) cuedStart)).map (fun t =>
      (t.player.state, t.player.fence, t.player.window.map (·.index), t.follow.anchor, t.follow.anchorTime))
      = some (.START_WAIT, .upTo ⟨1, 192⟩, [0, 1], ⟨1, 0⟩, 2500#32) := by decide +kernel
/-- R98, R108: the fence lifted, the step read ahead enters; it is the verse's last, so the fence is set at it. -/
theorem test_go_lets_the_next_step_enter :
    (after (exec (.go 0 1) fermataAhead)).map (fun t =>
      (t.player.window.map (fun x => (x.sec, x.pos)), t.player.readAhead, t.player.fence, t.follow.anchor))
      = some ([(1, 192)], none, .upTo ⟨1, 192⟩, ⟨1, 192⟩) := by decide +kernel
/-- R108, R110: the breath of 2 500 on, and the steps of verse 2 entered. -/
theorem test_go_resumes_a_gap :
    (after (exec (.go 0 1) (sectionHeld (gapWait .WAITING)))).map
      (fun t => (t.player.wait.map (fun w => (w.phase, w.breathEnd)), t.follow.anchor,
        t.player.window.map (fun w => (w.sec, w.pos)))) = some (some (.BREATH, 2505#32), ⟨2, 0⟩, [(2, 0), (2, 192)])
      ∧ (after (exec (.maxWaitExpiry 0) (sectionHeld (gapWait .WAITING)))).map
          (fun t => t.player.wait.map (·.breathEnd)) = some (some 2505#32) := by decide +kernel

theorem inHand0 : VerseInHand plan0 1 := ⟨⟨_, .head _, rfl, rfl, (by decide : Mode.PLAY ≠ .OMIT)⟩, by decide⟩
theorem witness_EndOfVerseCutsThePlan_pauses :
    VerseInHand plan0 1 ∧ LinkIdle (fermataHeld .WAITING) ∧ VerseToCut (fermataHeld .WAITING).player
      ∧ (fermataHeld .WAITING).player.plan = some plan0
      ∧ LinkIdle (gapHeld .WAITING false) ∧ VerseToCut (gapHeld .WAITING false).player
      ∧ ¬ VerseToCut beforeTheAmen.player ∧ GapBeforeAmen 1 beforeTheAmen.player := by
  refine ⟨inHand0, fermata_idle _, .inr (.inr (.inr (.inl ⟨rfl, by decide +kernel⟩))), rfl,
    ⟨rfl, rfl, rfl, rfl, rfl⟩, .inr (.inr (.inr (.inr ⟨rfl, _, rfl, by decide⟩))), ?_,
    rfl, ⟨_, rfl, rfl⟩, rfl, rfl, by decide +kernel⟩
  rintro (h | h | h | h | ⟨-, g, h, hn⟩)
  · exact absurd h (by decide +kernel)
  · exact absurd h (by decide +kernel)
  · exact absurd h (by decide +kernel)
  · exact absurd h.1 (by decide +kernel)
  · cases h; exact hn rfl
/-- The choir lost under FINISH_VERSE. -/
def choirLost (s : State) : State :=
  { s with params := { s.params with finishVerse := true }, follow := { s.follow with state := .COAST } }
theorem witness_LostTimeFinishesTheVerse :
    ∀ s ∈ [choirLost walking, choirLost amenWalk, choirLost beforeTheAmen],
      InService s ∧ s.follow.state = .COAST ∧ s.follow.lost = false ∧ s.params.finishVerse = true
        ∧ timePlus s.follow.lastMatch s.params.lostAfter = s.now + BitVec.ofNat 32 80000
        ∧ s.player.plan = some plan0 := by
  intro s hs
  have h : s = choirLost walking ∨ s = choirLost amenWalk ∨ s = choirLost beforeTheAmen := by simpa using hs
  rcases h with rfl | rfl | rfl <;> exact ⟨rfl, rfl, rfl, rfl, by decide +kernel, rfl⟩
theorem test_lost_time_finishes_the_verse :
    (after (exec (.lostTime 80000) (choirLost walking))).map
      (fun t => (t.player.state, t.player.plan.map (fun p => (p.entries.length, p.amen)), t.follow.lost))
      = some (.VERSE, some (1, false), true) := by decide +kernel

/-- Two follow points of verse 1, 6 000 units apart. -/
def twoPoints : State :=
  let step (i p : Nat) : WindowStep := { sampleStep with index := i, pos := p, fermata := none }
  { walking with player := { walking.player with window := [step 0 0, step 1 192] } }
/-- With the window of the second one PENDING, the previous used follow point as given. -/
def pendingPoints (b : Option HymnPos) : State :=
  { twoPoints with follow := { twoPoints.follow with window := some { windowOf .PENDING with prevBefore := b } } }
theorem witness_WindowsArePlaced :
    (twoPoints.follow.state ≠ .OFF ∧ twoPoints.follow.window = none ∧ twoPoints.player.window.length ≤ 16
        ∧ (∃ w rest, twoPoints.player.window = [] ++ w :: rest ∧ MayBeUsed twoPoints w
            ∧ LiesAhead twoPoints ⟨1, 0⟩ ((twoPoints.player.window[1]?).getD w) 6000)
        ∧ PlacedAround twoPoints none ⟨1, 0⟩ 0 (some (windowFor twoPoints none (some 6000) none ⟨1, 0⟩ 0))
        ∧ PlacedAround (pendingPoints (some ⟨1, 180⟩)) (some ⟨1, 180⟩) ⟨1, 192⟩ 1 none
        ∧ ∃ m, PlacedAround (pendingPoints none) none ⟨1, 192⟩ 1 (some m))
      ∧ (∀ b, ∃ m, (pendingPoints b).follow.window = some m ∧ m.phase = .PENDING ∧ m.prevBefore = b
          ∧ m.point = ⟨1, 192⟩ ∧ m.index = 1)
      ∧ (∀ w ∈ walking.player.window, ¬ MayBeUsed walking w) := by
  have far : later (windowFor twoPoints none (some 6000) none ⟨1, 0⟩ 0).opens
      (windowFor twoPoints none (some 6000) none ⟨1, 0⟩ 0).closes = false := by decide +kernel
  have alone (b : Option HymnPos) : NextDistance (pendingPoints b) ⟨1, 192⟩ none := by
    intro w hw d hd
    have h : w = twoPoints.player.window[0] ∨ w = twoPoints.player.window[1] := by
      simpa [pendingPoints, twoPoints] using hw
    rcases h with rfl | rfl <;> exact absurd hd.2.1 (by decide +kernel)
  refine ⟨⟨by decide +kernel, rfl, by decide +kernel, ?_, ?_,
      ⟨none, alone _, fun _ => rfl, fun h => (h (.inl ⟨_, rfl, by decide +kernel⟩)).elim⟩,
      ⟨_, none, alone _, fun h => absurd h ?_, fun _ => rfl⟩⟩,
    fun b => ⟨_, rfl, rfl, rfl, rfl, rfl⟩, fun _ h => (nomatch h)⟩
  · refine ⟨_, _, rfl, ⟨⟨rfl, by decide, ?_⟩, by decide +kernel⟩, ⟨rfl, by decide +kernel, ?_⟩, by decide +kernel,
      by decide +kernel⟩ <;> (intro _ e he; cases he; decide)
  · refine ⟨some 6000, ⟨[_], _, [], rfl, ⟨⟨rfl, by decide +kernel, ?_⟩, by decide +kernel, by decide +kernel⟩,
      by decide, ?_⟩, fun h => ?_, fun _ => rfl⟩
    · intro _ e he; cases he; decide
    · intro x hx d hd
      cases List.mem_singleton.mp hx
      exact absurd hd.2.1 (by decide +kernel)
    · rcases h with ⟨g, hg, _⟩ | h
      · cases hg
      · exact absurd (far.symm.trans h) (by decide)
  · rintro (⟨g, hg, _⟩ | h)
    · cases hg
    · exact absurd h (by decide +kernel)

/-- A decision in TRACK that takes the period past the tune's upper bound of 900 000. -/
def atBound : State := { deciding .TRACK with follow := { (deciding .TRACK).follow with period := 900000 } }
/-- A second match in COAST with the lost indication on. -/
def coming : State :=
  { deciding .COAST with follow := { (deciding .COAST).follow with lost := true, matched := 1 } }
/-- A third miss in TRACK, at the lost time. -/
def losing : State :=
  { hearing [] (deciding .TRACK) with follow :=
      { (deciding .TRACK).follow with missed := 2, lastMatch := timePlus 7660#32 (-80000) } }
/-- The clauses of DecisionsAreTold: a period clamped, the choir found, the choir lost. -/
theorem witness_DecisionTakesEffect_told :
    (∀ s ∈ [atBound, coming, losing], InService s ∧ s.follow.window = some (windowOf .DECIDING)
        ∧ (windowOf .DECIDING).decides = s.now + BitVec.ofNat 32 0
        ∧ playingHeader s = some (headerOf headerField) ∧ NothingAhead s.player
        ∧ s.params.finishVerse = false)
      ∧ (headerOf headerField).pmin ≤ (headerOf headerField).pmax
      ∧ ClampedAt atBound (windowOf .DECIDING) true
      ∧ (∀ upper, ¬ ClampedAt coming (windowOf .DECIDING) upper)
      ∧ (let g := (followAfterDecision coming (windowOf .DECIDING)).1
         coming.follow.state = .COAST ∧ coming.follow.lost = true ∧ g.state = .TRACK)
      ∧ (let g := (followAfterDecision losing (windowOf .DECIDING)).1
         g.state = .COAST ∧ g.lost = false
          ∧ later (timePlus g.lastMatch losing.params.lostAfter) losing.now = false) := by
  refine ⟨fun s hs => ?_, by decide, ⟨onsetAt 6200 40, headerOf headerField, ⟨rfl, rfl, by decide +kernel,
      by decide +kernel⟩, rfl, by decide +kernel⟩, ?_, by decide +kernel, by decide +kernel⟩
  · have h : s = atBound ∨ s = coming ∨ s = losing := by simpa using hs
    rcases h with rfl | rfl | rfl <;> exact ⟨rfl, rfl, by decide +kernel, rfl, ⟨rfl, rfl⟩, rfl⟩
  · rintro _ ⟨o, h, ⟨hs, -⟩, -⟩
    exact absurd hs (by decide +kernel)
theorem test_decisions_raise_their_flags :
    ((after (exec (.windowDecision 0) atBound)).bind (fun t => raiseRecord t.flags .TEMPO_LIMIT)
        = some ⟨7660#32, .tempoLimit true 900000 ⟨1, 192⟩⟩)
      ∧ ((after (exec (.windowDecision 0) coming)).bind (fun t => raiseRecord t.flags .CHOIR_FOUND)
        = some ⟨7660#32, .choirFound ⟨1, 192⟩ 6200#32⟩)
      ∧ ((after (exec (.windowDecision 0) losing)).map
          (fun t => (t.follow.state, t.follow.lost, flagUp t.flags .CHOIR_LOST)) = some (.COAST, true, true)) := by
  decide +kernel
/-- R86: the record of the clamped decision, and of the miss. -/
theorem test_decisions_are_recorded :
    ((after (exec (.windowDecision 0) atBound)).bind (fun t => t.follow.lastDecision)).map
        (fun d => (d.error, d.phase, d.step, d.clamped)) = some (some 200, 75, .applied 1250, true)
      ∧ ((after (exec (.windowDecision 0) losing)).bind (fun t => t.follow.lastDecision)).map
        (fun d => (d.error, d.phase, d.step, d.clamped)) = some (none, 0, .applied 0, false) := by decide +kernel

/-- The clause of DecisionTakesEffect with steps ahead: the follow point behind the decided one gets its window. -/
theorem witness_DecisionTakesEffect_ahead :
    let step (i p : Nat) : WindowStep := { sampleStep with index := i, pos := p, fermata := none }
    let s := { deciding .TRACK with player := { (deciding .TRACK).player with window := [step 1 192, step 2 768] },
                                    follow := { (deciding .TRACK).follow with cursor := ⟨1, 193⟩ } }
    let decided := { elapse 0 s with follow := (followAfterDecision (elapse 0 s) (windowOf .DECIDING)).1 }
    InService s ∧ s.follow.window = some (windowOf .DECIDING)
      ∧ (windowOf .DECIDING).decides = s.now + BitVec.ofNat 32 0 ∧ s.player.readAhead = none
      ∧ decided.follow.state ≠ .COAST
      ∧ ∃ m, (seekWindow decided).follow.window = some m ∧ m.point = ⟨1, 768⟩
          ∧ later m.decides decided.now = true := by
  refine ⟨rfl, rfl, by decide +kernel, rfl, by decide +kernel, ?_⟩
  exact ⟨_, rfl, by decide +kernel, by decide +kernel⟩

theorem witness_LatchFixesTheVerse_unfound :
    let s := { reserved .NONE with organ := { organ0 with registrations := ⟨[]⟩ } }
    let out := { s with player := { s.player with registration := none } }
    planEntry s.player 2 = some ⟨2, .PLAY, none, 0, ⟨192, false⟩, false, none⟩ ∧ applies s.organ none 2 = none
      ∧ s.player.registration = some (0, registration0) ∧ out.player.registration = none
      ∧ s.flags.raised.wf none = true
      ∧ (∀ t v, Presents organ0 { registration0 with stops := ⟨none, none, none, none, none⟩ } t v →
          v = targetState organ0 walking.map t) := by
  refine ⟨rfl, rfl, rfl, rfl, rfl, ?_⟩
  intro t v h
  match t, h with
  | .keyGroup _ _, h => exact h.elim
  | .expression d, h => cases d <;> exact nomatch h.2.1
  | .stopGroup d g, ⟨_, hg, hv, hb⟩ =>
    have h0 : v = 0 := by
      apply Nat.eq_of_testBit_eq
      intro i
      by_cases hi : i < 8
      · have : v.testBit i ≠ true := fun hx => by
          obtain ⟨-, b, h, -⟩ := (hb i hi).mp hx
          cases d <;> cases h
        simpa using this
      · have : v < 2 ^ i := Nat.lt_of_lt_of_le hv (Nat.pow_le_pow_right (n := 2) (by decide) (by omega : 8 ≤ i))
        simp [Nat.testBit_lt_two_pow this]
    have none_on : ∀ d ∈ [Division.d1, .d2, .d3, .d4, .d5],
        divGet walking.map.stops d = 0#32 := by decide +kernel
    subst h0
    simp only [targetState, none_on d (by cases d <;> decide)]
    simp [groupStates]

/-- Two FIRM events and a PROVISIONAL one behind the boundary of 300. -/
def threeEvents : Schedule :=
  let e (k : KeyKind) (t : Time) (firm : Bool) (n : BitVec 32) : KeyEvent :=
    ⟨k, .S, .d1, 24, 1, some 0, .fixed, t, firm, n⟩
  ⟨[e .UP 300 true 1, e .DOWN 300 true 0, e .UP 301 false 2], 300#32, 3#32⟩
theorem witness_FirmingAndRetiming :
    ∀ e ∈ threeEvents.events, (-1073741824 < timeDiff e.time 0#32 ∧ timeDiff e.time 0#32 < 1073741824)
      ∧ -1073741824 < (e.number - threeEvents.counter).toInt ∧ (e.number - threeEvents.counter).toInt ≤ 0
      ∧ (e.firm = true → later e.time (timePlus 0#32 300) = false) := by decide +kernel
theorem witness_QueuesStayWithinCapacity_order :
    let s := { walking with keys := threeEvents }
    ScheduleInOrder s.keys ∧ (after (step s)).isSome = true := by
  have near (l : List KeyEvent) (h : (l.zip (l.drop 1)).all (fun p =>
      (p.1.time == p.2.time || !later p.1.time p.2.time) && (p.1.time != p.2.time
        || decide (kindPlace p.1.kind < kindPlace p.2.kind))) = true) : NeighboursInOrder l := by
    intro i a b ha hb
    have hm : (a, b) ∈ l.zip (l.drop 1) := List.mem_of_getElem? (i := i) (by simp [List.getElem?_zip_eq_some, ha, hb])
    have := List.all_eq_true.mp h _ hm
    simp only [Bool.and_eq_true, Bool.or_eq_true, beq_iff_eq, Bool.not_eq_true', bne_iff_ne, decide_eq_true_eq] at this
    exact ⟨fun hn => this.1.resolve_left hn, fun he => .inl (this.2.resolve_left (fun hn => hn he))⟩
  refine ⟨⟨⟨threeEvents.events.take 2, threeEvents.events.drop 2, rfl, by decide, by decide, near _ (by decide +kernel),
    near _ (by decide +kernel)⟩, by decide +kernel⟩, by decide +kernel⟩

/-- A full window whose first step has sounded and whose last, at 590, is a follow point, with the read-ahead
step, a follow point at 672, due at a horizon of 96 su. -/
def fullWindow : State :=
  let step (i p : Nat) : WindowStep :=
    { sampleStep with index := i, pos := p, fermata := none, follow := p == 590 }
  { walking with
    now := 18000#32, params := { paramDefaults with horizon := 96 },
    follow := { walking.follow with cursor := ⟨1, 577⟩ },
    player := { walking.player with
      window := step 0 0 :: (List.range 14).map (fun i => step (i + 1) (577 + i)) ++ [step 15 591],
      readAhead := some ⟨1, 16, 672, ⟨672, 192, true, none, [⟨.S, 60, false⟩]⟩, false⟩ } }
theorem witness_EventLooksOnce :
    (entryDue fullWindow = none ∧ ∃ r, entryDue (leaveFirst fullWindow) = some r
        ∧ AdmittedIn 2 fullWindow (enterStep r (leaveFirst fullWindow)))
      ∧ (let a := (admitSteps 2 fullWindow).1
         a.follow.window = none ∧ ∃ m, (seekWindow a).follow.window = some m
          ∧ later m.decides fullWindow.now = true)
      ∧ (InService readingAhead ∧ (entryDue (elapse 0 readingAhead)).isSome = true)
      ∧ (let a := awaiting .PENDING 0 walking
         AdmittedIn 0 a a ∧ ∃ m, a.follow.window = some m) := by
  have due : (entryDue (leaveFirst fullWindow)).isSome = true := by decide +kernel
  obtain ⟨r, hr⟩ := Option.isSome_iff_exists.mp due
  refine ⟨⟨by decide +kernel, r, hr, .inr ⟨by decide +kernel, due, .inl ⟨r, hr, rfl, ?_, ?_⟩⟩⟩, ?_, ?_,
    ⟨rfl, rfl, rfl⟩, _, rfl⟩
  · have : entryDue ((entryDue (leaveFirst fullWindow)).elim fullWindow
        (fun r => enterStep r (leaveFirst fullWindow))) = none := by decide +kernel
    rwa [hr] at this
  · have : entryDue (leaveFirst ((entryDue (leaveFirst fullWindow)).elim fullWindow
        (fun r => enterStep r (leaveFirst fullWindow)))) = none := by decide +kernel
    rwa [hr] at this
  · exact ⟨by decide +kernel, _, rfl, by decide +kernel⟩
  · exact ⟨show readingAhead.heldInReset = false by decide +kernel, by decide +kernel⟩
/-- R65: the window of the follow point at 590 is OPEN at once and narrowed by the step at 672, 82 su behind it,
which entered in the same event: half of 2 562 units. -/
theorem test_window_made_with_every_step_admitted :
    (after (exec (.stepSoundTime 0) fullWindow)).map (fun t =>
      (t.follow.window.map (fun m => (m.point.pos, m.halfWidth, m.phase)), t.player.window.length,
        t.player.window.map (·.pos) |>.getLast?)) = some (some (590, 1281, .OPEN), 16, some 672) := by
  decide +kernel

/-! ### Planning -/

/-- Chapter 6, the worked example: verse 2 of that organ, its two steps entered and not yet planned. -/
def exampleStep (i pos : Nat) (alto : Nat) (tie : Bool) (next : Option Successor) : WindowStep :=
  { sampleStep with sec := 2, index := i, pos := pos, follow := true, fermata := none, planned := false,
                    next := next,
                    notes := [⟨.S, 72, tie⟩, ⟨.A, alto, false⟩, ⟨.T, 64, false⟩, ⟨.B, 55, false⟩, ⟨.PED, 22, false⟩] }
def stepJ : WindowStep := exampleStep 5 960 67 true (some ⟨1152, [⟨.S, 72, false⟩]⟩)
def stepJ1 : WindowStep := exampleStep 6 1152 65 false none
def exampleVerse : State :=
  { walking with
    now := 2994000#32,
    player := { walking.player with
      sec := some 2, window := [stepJ, stepJ1],
      channels := channelsOf { registration0 with routing :=
        ⟨some .d1, some .d1, some .d1, none, some .d4, none⟩ } (-1) },
    follow := { walking.follow with anchorTime := 2994000#32, anchor := ⟨2, 576⟩ },
    keys := { walking.keys with counter := 1#32 } }
def twoPlanned : State := (handStep stepJ1 { (handStep stepJ exampleVerse).1 with now := 3000000#32 }).1
/-- Insertion numbers and key times, in schedule order. -/
def timetable (s : State) : List (Nat × Nat) := s.keys.events.map (fun e => (e.number.toNat, e.time.toNat))
theorem test_two_steps_planned :
    timetable (handStep stepJ exampleVerse).1
        = [(6, 3005100), (1, 3005750), (2, 3005750), (4, 3005750), (7, 3011350), (3, 3011600), (5, 3011600)]
      ∧ timetable twoPlanned
        = [(6, 3005100), (1, 3005750), (2, 3005750), (4, 3005750), (7, 3011100), (14, 3011100),
           (3, 3011600), (5, 3011600), (10, 3011750), (12, 3011750), (8, 3012000), (15, 3017350),
           (9, 3017600), (11, 3017600), (13, 3017600)] := by decide +kernel
theorem test_two_steps_retimed :
    timetable (retime { twoPlanned with now := 3002460#32, follow := { twoPlanned.follow with
        anchorTime := 3000090#32, anchor := ⟨2, 768⟩, period := 601500 } })
      = [(6, 3005205), (1, 3005855), (2, 3005855), (4, 3005855), (7, 3011220), (14, 3011220),
         (3, 3011719), (5, 3011719), (10, 3011870), (12, 3011870), (8, 3012120), (15, 3017484),
         (9, 3017734), (11, 3017734), (13, 3017734)] := by decide +kernel
/-- R124: the planned step extended over a run up to position 1344: t(1344) is 3 018 000, and the substitute
position 1152 sounds at 3 012 000. -/
theorem test_extension_over_a_run :
    timetable (extendStep { stepJ with next := some ⟨1344, []⟩, run := true } 2688 (handStep stepJ exampleVerse).1)
      = [(6, 3005100), (1, 3005750), (2, 3005750), (4, 3005750), (9, 3012000), (11, 3012000), (13, 3012000),
         (8, 3017600), (10, 3017850), (12, 3017850)] := by decide +kernel
/-- The schedule full: no place for the seven events of step j, nor for the three of its extension. -/
def fullSchedule (s : State) : State :=
  let filler : KeyEvent := ⟨.RENEW, .B, .d2, 0, 13, none, .fixed, 3100000#32, false, 0#32⟩
  let events := s.keys.events ++ List.replicate (256 - s.keys.events.length) filler
  { s with keys := { s.keys with events := events } }
theorem witness_PlanningIsAllOrNone_step :
    let ofStep (e : KeyEvent) : Bool := e.kind == .UP && !e.firm && e.sec == 2 && e.step == some 5
    let s := (handStep stepJ exampleVerse).1
    sectionMode exampleVerse.player 2 = .PLAY
      ∧ (soundingNotes exampleVerse.organ exampleVerse.player.channels stepJ.notes).map (·.2)
          = [(.d1, 35), (.d1, 30), (.d1, 27), (.d4, 9)]
      ∧ 7 ≤ 256 - exampleVerse.keys.events.length
      ∧ 256 - (fullSchedule exampleVerse).keys.events.length < 7
      ∧ (s.keys.events.filter ofStep).length = 3 ∧ 3 ≤ 256 - s.keys.events.length
      ∧ ((fullSchedule s).keys.events.filter ofStep).length = 3
      ∧ 256 - (fullSchedule s).keys.events.length < 3 ∧ exampleVerse.keys.events.filter ofStep = [] := by
  decide +kernel

end Sys2Proof.Tests
end

section
/-! PROOFS. The rows of a request on an idle link, and TUNE_BEGIN (R7, R11, R12). -/

namespace Sys2Proof.Proofs

open Sys2Proof.Machine Sys2Proof.Claims

/-! ### A request on an idle link (R168, R169) -/

/-- The state in which a request's owner answers it: the request is the only one queued. -/
def withQueued (r : Request) (tag : Byte) (s : State) : State :=
  { s with link := { s.link with queue := [queuedRow r tag] } }

theorem isReset_queuedRow (r : Request) (tag : Byte) : isReset (queuedRow r tag) = decide (r = .reset) := by
  cases r <;> rfl

/-- Taking the queued request puts its owner's reply into transmission. -/
theorem takeRequest_withQueued {r : Request} {tag : Byte} {s t : State} {x : Result} {fields : List Byte}
    (answered : answer r (withQueued r tag s) = ⟨x, fields, withQueued r tag t⟩) :
    takeRequest (queuedRow r tag) (withQueued r tag s) = replied r tag x fields t := by
  have queued : answerQueued (queuedRow r tag) (withQueued r tag s) = ⟨x, fields, withQueued r tag t⟩ := answered
  simp only [takeRequest, queued, isReset_queuedRow]
  rfl

/-- A request's row on an idle link comes down to what its owner answers. -/
theorem onService_request_replied {r : Request} {dt : Nat} {tag : Byte} {s t : State} {x : Result}
    {fields : List Byte} (idle : LinkIdle s)
    (answered : answer r (withQueued r tag (elapse dt s)) = ⟨x, fields, withQueued r tag t⟩) :
    onService dt (request tag r) s = .next (replied r tag x fields t) := by
  obtain ⟨live, queue, inHand, sending, busy⟩ := idle
  rw [onService_live dt _ s live, request_of_idle r tag (elapse dt s) queue inHand sending busy]
  exact congrArg _ (takeRequest_withQueued answered)

/-! ### First fit (R7) -/

/-- The first run that holds `n` gives up its first `n` entries; the runs around it stay. -/
theorem takeRun_firstFit {n b m : Nat} {pre : List (Nat × Nat)} (post : List (Nat × Nat))
    (short : ∀ r ∈ pre, r.2 < n) (fits : n ≤ m) :
    takeRun n (pre ++ (b, m) :: post)
      = some (b, pre ++ (if n = m then [] else [(b + n, m - n)]) ++ post) := by
  induction pre with
  | nil => by_cases whole : n = m <;> simp [takeRun, fits, whole]
  | cons r rest ih =>
    have tooShort : ¬ n ≤ r.2 := Nat.not_le.mpr (short r List.mem_cons_self)
    simp [takeRun, tooShort, ih fun q hq => short q (List.mem_cons_of_mem r hq)]

/-- With every run too short there is no extent. -/
theorem takeRun_eq_none {n : Nat} {runs : List (Nat × Nat)} (short : ∀ r ∈ runs, r.2 < n) :
    takeRun n runs = none := by
  induction runs with
  | nil => rfl
  | cons r rest ih =>
    have tooShort : ¬ n ≤ r.2 := Nat.not_le.mpr (short r List.mem_cons_self)
    simp [takeRun, tooShort, ih fun q hq => short q (List.mem_cons_of_mem r hq)]

theorem longestFree_eq (runs : List (Nat × Nat)) : longestFree runs = (runLengths runs).foldl max 0 :=
  List.foldl_map.symm

theorem totalFree_eq (runs : List (Nat × Nat)) : totalFree runs = (runLengths runs).sum := by
  rw [List.sum_eq_foldl, runLengths, List.foldl_map, totalFree]

/-! ### TUNE_BEGIN (R11, R12) -/

/-- A chain of tests ends in none exactly when its first test fails and its rest ends in none. -/
theorem ite_some_eq_none_iff {α : Type} {c : Prop} [Decidable c] {a : α} {rest : Option α} :
    (if c then some a else rest) = none ↔ ¬ c ∧ rest = none := by
  by_cases test : c <;> simp [test]

/-- R12 names no field of a header exactly when every field lies in its range (R5). -/
theorem headerProblem_eq_none_iff (h : HeaderFields) : headerProblem h = none ↔ headerValid h := by
  unfold headerProblem headerValid
  simp only [ite_some_eq_none_iff]
  cases h.intro with
  | absent => simp; omega
  | present r => simp; omega
  | invalid _ => simp

section
variable {n : Nat} {h : HeaderFields} {s : State} (served : SlotServed s n) (empty : slotRec s.store n = none)
  (valid : headerValid h)
include served empty valid

/-- On an EMPTY slot and with a valid header, an extent that is taken makes the slot LOADING. -/
theorem answerTuneBegin_of_takeRun {start : Nat} {runs : List (Nat × Nat)}
    (taken : takeRun h.entries s.store.freeRuns = some (start, runs)) :
    answerTuneBegin n h s = ⟨.OK, u16 start, { s with store := { s.store with
      slots := s.store.slots.set none n (some (loadingSlot (headerOf h) start)), freeRuns := runs } }⟩ := by
  obtain ⟨inRange, notClearing⟩ := served
  simp [answerTuneBegin, Config.slotCount, inRange, notClearing, empty,
    (headerProblem_eq_none_iff h).mpr valid, taken]

/-- On an EMPTY slot and with a valid header, no extent is NO_SPACE with the free lengths. -/
theorem answerTuneBegin_of_takeRun_none (full : takeRun h.entries s.store.freeRuns = none) :
    answerTuneBegin n h s = refuse s .NO_SPACE
      (u16 ((runLengths s.store.freeRuns).foldl max 0) ++ u16 (runLengths s.store.freeRuns).sum) := by
  obtain ⟨inRange, notClearing⟩ := served
  simp [answerTuneBegin, Config.slotCount, inRange, notClearing, empty,
    (headerProblem_eq_none_iff h).mpr valid, full, freeBytes, longestFree_eq, totalFree_eq]

end

/-- Settles O22: R7's first fit decides between the two answers of TUNE_BEGIN. -/
theorem tuneBeginTakesTheFirstFit : Obligations.TuneBeginTakesTheFirstFit := by
  intro dt n h tag s idle served empty valid
  have owner (t : State) : answer (.tuneBegin n h) t = answerTuneBegin n h t := rfl
  constructor
  · intro pre b m post runs short fits
    have taken := takeRun_firstFit (b := b) post short fits
    rw [← runs] at taken
    refine onService_request_replied idle ?_
    rw [owner, answerTuneBegin_of_takeRun (s := withQueued _ tag (elapse dt s)) served empty valid taken]
    rfl
  · intro short
    refine onService_request_replied idle ?_
    exact answerTuneBegin_of_takeRun_none (s := withQueued _ tag (elapse dt s)) served empty valid
      (takeRun_eq_none short)

end Sys2Proof.Proofs
end

section
/-! PROOFS. The registration that applies to a verse (R36). -/

namespace Sys2Proof.Proofs

open Sys2Proof.Machine Sys2Proof.Laws

/-! ### The records of a cell list -/

/-- A cell list whose first record is present holds that record, and behind its index the rest's. -/
theorem readCells_cons_eq_some_iff {α : Type} {x q : α} {k j : Nat} {rest : List (Nat × Option α)} :
    readCells none ((k, some x) :: rest) j = some q
      ↔ (j = k ∧ x = q) ∨ (k < j ∧ readCells none rest j = some q) := by
  obtain below | rfl | behind := lt_trichotomy j k
  · simp [readCells, below, below.ne, below.not_gt]
  · simp [readCells]
  · simp [readCells, behind, behind.ne', behind.not_gt]

/-- Every record of a cell list stands above an index that is below all its cells. -/
theorem lt_of_readCells_eq_some {α : Type} {q : α} {k j : Nat} {cells : List (Nat × Option α)}
    (rising : ∀ c ∈ cells, k < c.1) (held : readCells none cells j = some q) : k < j := by
  by_contra notAbove
  have blank : readCells none cells j = none :=
    readCells_below fun c hc => (Nat.le_of_not_lt notAbove).trans_lt (rising c hc)
  simp [blank] at held

/-! ### The lowest index to whose verse set a verse belongs (R32, R36) -/

theorem belongs_iff (r : Registration) (v : Nat) :
    belongs r v = true ↔ r.first ≤ v ∧ v ≤ r.last ∧ (v - 1) % r.repeats = r.base := by
  simp [belongs, and_assoc]

/-- Index `i` of a cell list holds `r`, `v` belongs to `r`'s verse set and to that of no record below `i`. -/
def IsLowest (v : Nat) (cells : List (Nat × Option Registration)) (i : Nat) (r : Registration) : Prop :=
  readCells none cells i = some r ∧ belongs r v = true
    ∧ ∀ j q, j < i → readCells none cells j = some q → ¬ belongs q v = true

section
variable {v i k : Nat} {r x : Registration} {rest : List (Nat × Option Registration)}

/-- A first record to whose verse set the verse belongs is the lowest. -/
theorem isLowest_cons_of_belongs (member : belongs x v = true) :
    IsLowest v ((k, some x) :: rest) i r ↔ k = i ∧ x = r := by
  simp only [IsLowest, readCells_cons_eq_some_iff]
  constructor
  · rintro ⟨⟨rfl, rfl⟩ | ⟨behind, -⟩, -, lowest⟩
    · exact ⟨rfl, rfl⟩
    · exact absurd member (lowest k x behind (.inl ⟨rfl, rfl⟩))
  · rintro ⟨rfl, rfl⟩
    refine ⟨.inl ⟨rfl, rfl⟩, member, fun j q below held => ?_⟩
    omega

/-- A first record to whose verse set the verse does not belong leaves the lowest to the rest. -/
theorem isLowest_cons_of_not_belongs (rising : ∀ c ∈ rest, k < c.1) (outside : ¬ belongs x v = true) :
    IsLowest v ((k, some x) :: rest) i r ↔ IsLowest v rest i r := by
  simp only [IsLowest, readCells_cons_eq_some_iff]
  constructor
  · rintro ⟨⟨-, rfl⟩ | ⟨-, held⟩, member, lowest⟩
    · exact absurd member outside
    · exact ⟨held, member, fun j q below heldBelow =>
        lowest j q below (.inr ⟨lt_of_readCells_eq_some rising heldBelow, heldBelow⟩)⟩
  · rintro ⟨held, member, lowest⟩
    refine ⟨.inr ⟨lt_of_readCells_eq_some rising held, held⟩, member, ?_⟩
    rintro j q below (⟨-, rfl⟩ | ⟨-, heldBelow⟩)
    · exact outside
    · exact lowest j q below heldBelow

end

/-- The search over a canonical table finds exactly the lowest index whose record has the verse. -/
theorem autoRecord_eq_some_iff {v i : Nat} {r : Registration} {cells : List (Nat × Option Registration)}
    (canonical : wfCells none cells = true) : autoRecord v cells = some (i, r) ↔ IsLowest v cells i r := by
  induction cells with
  | nil => simp [autoRecord, IsLowest, readCells]
  | cons c rest ih =>
    obtain ⟨k, record⟩ := c
    obtain ⟨present, rising, restCanonical⟩ := wfCells_cons.mp canonical
    obtain ⟨x, rfl⟩ := Option.ne_none_iff_exists'.mp present
    by_cases member : belongs x v = true
    · simp [autoRecord, member, isLowest_cons_of_belongs member]
    · simp [autoRecord, member, isLowest_cons_of_not_belongs rising member, ih restCanonical]

/-- Settles O21: a named index is a lookup, and AUTO's search finds the lowest index. -/
theorem applyingRegistrationIsFound : Obligations.ApplyingRegistrationIsFound := by
  intro o v canonical
  refine ⟨fun i => rfl, fun i r => ?_⟩
  simp only [← belongs_iff]
  exact autoRecord_eq_some_iff canonical

end Sys2Proof.Proofs
end

section
/-! PROOFS. The class of an onset (R51). -/

namespace Sys2Proof.Proofs

open Sys2Proof.Machine

/-! ### The three classes, one at a time (R51) -/

section
variable {limit share : Nat} {fresh : Bool}

/-- Where the first row of R51's table does not apply. -/
theorem not_fresh_or_limit_le_iff : ¬ (fresh = true ∨ limit ≤ share) ↔ fresh = false ∧ share < limit := by
  simp

theorem onsetClass_eq_leak (leak : fresh = true ∨ limit ≤ share) : onsetClass limit fresh share = .LEAK :=
  if_pos leak

theorem onsetClass_eq_mixed (noLeak : ¬ (fresh = true ∨ limit ≤ share)) (half : limit / 2 ≤ share) :
    onsetClass limit fresh share = .MIXED :=
  (if_neg noLeak).trans (if_pos half)

theorem onsetClass_eq_choir (noLeak : ¬ (fresh = true ∨ limit ≤ share)) (low : ¬ limit / 2 ≤ share) :
    onsetClass limit fresh share = .CHOIR :=
  (if_neg noLeak).trans (if_neg low)

end

/-- Settles O38: R51's table row by row. The rows' conditions exclude one another and leave no share out, so each
class is given under its own row's condition alone. -/
theorem onsetClassByShare : Obligations.OnsetClassByShare := by
  intro limit share fresh
  simp only [← and_assoc, ← not_fresh_or_limit_le_iff, ← Nat.not_le (a := limit / 2)]
  by_cases leak : fresh = true ∨ limit ≤ share
  · rw [onsetClass_eq_leak leak]
    simp [leak]
  · by_cases half : limit / 2 ≤ share
    · rw [onsetClass_eq_mixed leak half]
      simp [leak, half]
    · rw [onsetClass_eq_choir leak half]
      simp [leak, half]

end Sys2Proof.Proofs
end

section
/-! PROOFS. The Follower's reset values (R60), and what a decision makes of its counts and state (R77). -/

namespace Sys2Proof.Proofs

open Sys2Proof.Machine

/-! ### Both resets (R60) -/

theorem follow_of_execFullReset {straps : BitVec 2} {s t : State}
    (done : exec (.fullReset straps) s = .next t) : t.follow = followAfterReset := by
  cases done
  rfl

theorem follow_of_execConsoleReset {dt : Nat} {s t : State} (live : s.heldInReset = false)
    (done : exec (.consoleReset dt) s = .next t) : t.follow = followAfterReset := by
  have taken : onService dt consoleReset s = .next t := done
  rw [onService_live dt consoleReset s live] at taken
  cases taken
  rfl

/-- Settles O4: each reset writes the one record that holds the table's last column. -/
theorem bothResetsSetTheFollower : Obligations.BothResetsSetTheFollower := by
  intro s t dt straps done
  have reset : t.follow = followAfterReset := by
    obtain full | ⟨live, console⟩ := done
    · exact follow_of_execFullReset full
    · exact follow_of_execConsoleReset live console
  rw [reset]
  simp [followAfterReset]

/-! ### A correction leaves the state and the counts to R77 (R70 to R76) -/

section
variable (s : State) (m : MatchWindow)

/-- Two records of the Follower with the same follow state and the same counts. -/
def SameCounts (f g : Follow) : Prop := g.state = f.state ∧ g.matched = f.matched ∧ g.missed = f.missed

theorem sameCounts_correctTrack (o : Onset) : SameCounts s.follow (correctTrack s m o).follow := by
  simp only [correctTrack]
  split
  · exact ⟨rfl, rfl, rfl⟩
  · exact ⟨rfl, rfl, rfl⟩

theorem sameCounts_correction (late : Bool) (hit : Option Onset) :
    SameCounts s.follow (correction s m late hit).follow := by
  cases hit with
  | none => exact ⟨rfl, rfl, rfl⟩
  | some o =>
    simp only [correction]
    split
    · exact ⟨rfl, rfl, rfl⟩
    · split
      · exact sameCounts_correctTrack s m o
      · exact ⟨rfl, rfl, rfl⟩

end

/-! ### The counts, and the entry to the state after (R77) -/

section
variable (x : FollowState) (hit : Option Onset) (f : Follow)

@[simp] theorem countDecision_state : (countDecision hit f).state = f.state := by cases hit <;> rfl

@[simp] theorem countDecision_matched :
    (countDecision hit f).matched = if hit.isSome = true then min 255 (f.matched + 1) else 0 := by
  cases hit <;> rfl

@[simp] theorem countDecision_missed :
    (countDecision hit f).missed = if hit.isSome = true then 0 else min 255 (f.missed + 1) := by
  cases hit <;> rfl

@[simp] theorem enterFollowState_state : (enterFollowState x f).state = x := by
  unfold enterFollowState
  split <;> rfl

@[simp] theorem enterFollowState_matched : (enterFollowState x f).matched = f.matched := by
  unfold enterFollowState
  split <;> rfl

@[simp] theorem enterFollowState_missed : (enterFollowState x f).missed = f.missed := by
  unfold enterFollowState
  split <;> rfl

/-- The return from COAST to TRACK sets the rebased indication on and turns the lost indication off. -/
theorem enterFollowState_of_return (coast : f.state = .COAST) :
    (enterFollowState .TRACK f).rebased = true ∧ (enterFollowState .TRACK f).lost = false := by
  simp [enterFollowState, coast]

end

/-! ### The Follower after a decision -/

section
variable (s : State) (m : MatchWindow)

/-- Whether the decision of window `m` is a match (R69). -/
def isMatch : Bool := (strongest (candidates m s.listen.queue)).isSome

/-- The Follower with its correction made and its counts taken, before the entry to the state after. -/
def countedFollow : Follow :=
  let hit := strongest (candidates m s.listen.queue)
  countDecision hit (correction s m (posBefore m.point s.follow.anchor) hit).follow

theorem countedFollow_state : (countedFollow s m).state = s.follow.state := by
  obtain ⟨state, -, -⟩ := sameCounts_correction s m (posBefore m.point s.follow.anchor)
    (strongest (candidates m s.listen.queue))
  rw [countedFollow, countDecision_state, state]

theorem countedFollow_matched :
    (countedFollow s m).matched = if isMatch s m = true then min 255 (s.follow.matched + 1) else 0 := by
  obtain ⟨-, matched, -⟩ := sameCounts_correction s m (posBefore m.point s.follow.anchor)
    (strongest (candidates m s.listen.queue))
  rw [countedFollow, countDecision_matched, matched, isMatch]

theorem countedFollow_missed :
    (countedFollow s m).missed = if isMatch s m = true then 0 else min 255 (s.follow.missed + 1) := by
  obtain ⟨-, -, missed⟩ := sameCounts_correction s m (posBefore m.point s.follow.anchor)
    (strongest (candidates m s.listen.queue))
  rw [countedFollow, countDecision_missed, missed, isMatch]

theorem followAfterDecision_matched : (followAfterDecision s m).1.matched = (countedFollow s m).matched :=
  enterFollowState_matched _ _

theorem followAfterDecision_missed : (followAfterDecision s m).1.missed = (countedFollow s m).missed :=
  enterFollowState_missed _ _

/-- The state after is that of R77's table for the counts just taken. -/
theorem followAfterDecision_state :
    (followAfterDecision s m).1.state = followStateAfter s.params (isMatch s m) (countedFollow s m) :=
  enterFollowState_state _ _

/-- R77: a decision that returns from COAST to TRACK sets the rebased indication and turns the lost one off. -/
theorem followAfterDecision_of_return (coast : s.follow.state = .COAST)
    (track : (followAfterDecision s m).1.state = .TRACK) :
    (followAfterDecision s m).1.rebased = true ∧ (followAfterDecision s m).1.lost = false := by
  have entered := enterFollowState_of_return _ ((countedFollow_state s m).trans coast)
  rwa [← track, followAfterDecision_state] at entered

end

/-- Settles O41: the correction leaves counts and state to R77, whose table is read row by row for the state in
which the decision is taken. -/
theorem decisionCountsAndStates : Obligations.DecisionCountsAndStates := by
  intro s m g hit
  have state : (countedFollow s m).state = s.follow.state := countedFollow_state s m
  have matched : g.matched = (countedFollow s m).matched := followAfterDecision_matched s m
  have missed : g.missed = (countedFollow s m).missed := followAfterDecision_missed s m
  have after : g.state = followStateAfter s.params hit (countedFollow s m) := followAfterDecision_state s m
  refine ⟨fun hits => ?_, fun misses => ?_, fun off => ?_, fun lead => ?_, fun track => ?_, fun coast => ?_,
    followAfterDecision_of_return s m⟩
  · have counted : isMatch s m = true := hits
    simp [matched, missed, countedFollow_matched, countedFollow_missed, counted]
  · have counted : isMatch s m = false := misses
    simp [matched, missed, countedFollow_matched, countedFollow_missed, counted]
  · simp [after, followStateAfter, state, off]
  · simp [after, followStateAfter, state, lead, matched]
  · simp [after, followStateAfter, state, track, missed]
  · simp [after, followStateAfter, state, coast, matched]

end Sys2Proof.Proofs
end

section
/-! PROOFS. What a DOWN, an UP and a RENEW do to the Sounding Map and the Leak Mask (R133 to R135, R140 to R142). -/

namespace Sys2Proof.Proofs

open Sys2Proof.Machine Sys2Proof.Laws Sys2Proof.Claims

/-! ### Holder sets (R133) -/

section
variable {v w : Voice} {h : List Voice}

theorem mem_addVoice : w ∈ addVoice v h ↔ w = v ∨ w ∈ h := by
  have listed : w ∈ allVoices := by cases w <;> decide
  simp [addVoice, listed]

theorem mem_dropVoice : w ∈ dropVoice v h ↔ w ≠ v ∧ w ∈ h := by
  simp [dropVoice, and_comm]

/-- A holder set is empty behind `v` exactly when no other voice is in it. -/
theorem dropVoice_eq_nil_iff : dropVoice v h = [] ↔ ∀ w ∈ h, w = v := by
  simp [dropVoice]

end

/-! ### One key entry written (R133) -/

theorem divisionOf_divisionNumber (d : Division) : divisionOf (divisionNumber d) = some d := by cases d <;> rfl

theorem divisionNumber_inj {d d' : Division} : divisionNumber d' = divisionNumber d ↔ d' = d := by
  refine ⟨fun same => ?_, congrArg divisionNumber⟩
  have read := congrArg divisionOf same
  rwa [divisionOf_divisionNumber, divisionOf_divisionNumber, Option.some_inj] at read

/-- Two keys with key numbers below 64 have two entries of the map. -/
theorem keyId_ne {d d' : Division} {k k' : Nat} (below : k < 64) (below' : k' < 64) (other : d' ≠ d ∨ k' ≠ k) :
    keyId d' k' ≠ keyId d k := by
  rw [ne_eq, ← divisionNumber_inj] at other
  simp only [keyId]
  omega

section
variable {m : SoundingMap} {d : Division} {k : Nat} (e : KeyEntry) (canonical : m.keys.wf noKey = true)
include canonical

theorem keyEntry_setKey_same : keyEntry (setKey m d k e) d k = e :=
  Table.get_set_same (keyId d k) e canonical

theorem otherKeysStay_setKey (below : k < 64) : OtherKeysStay m (setKey m d k e) d k :=
  fun _ _ below' other => Table.get_set_other e (keyId_ne below below' other) canonical

end

/-! ### One class of the Leak Mask written (R140 to R142) -/

/-- R142: a deadline held that has arrived or lies out of reach yields to the new one; else the later stands. -/
theorem laterOf_eq_laterDeadline (f x y : Time) : laterOf f x y = laterDeadline f x y := by
  have counts : (1 ≤ timeDiff x f ∧ timeDiff x f ≤ Config.leakReach)
      ↔ ¬ (timeDiff x f < 1 ∨ 70000 < timeDiff x f) := by
    simp [Config.leakReach]
  simp only [laterOf, laterDeadline, counts, ite_not, timeMax, later, decide_eq_true_eq]

section
variable {o : Organ} {f : Time} {d : Division} {k : Nat} {l : Table LeakEntry}

theorem leakDown_of_untracked (off : (divRec o d).leakTracking = false) : leakDown o f d k l = l := by
  simp [leakDown, off]

theorem leakUp_of_untracked (off : (divRec o d).leakTracking = false) : leakUp o f d k l = l := by
  simp [leakUp, off]

/-- R140 with tracking on: one entry is written, that of the key's class. -/
theorem leakDown_of_tracked (on : (divRec o d).leakTracking = true) :
    let m := leakEntry l (keyClass o d k)
    leakDown o f d k l = l.set noLeak (keyClass o d k)
      ⟨m.held + 1, m.tail, laterDeadline f m.fresh (timePlus f ((divRec o d).acoustic + 500))⟩ := by
  simp [leakDown, on, laterOf_eq_laterDeadline, Config.freshUnits]

/-- R141 with tracking on: one entry is written, and its tail moves when the last held key of the class goes. -/
theorem leakUp_of_tracked (on : (divRec o d).leakTracking = true) :
    let m := leakEntry l (keyClass o d k)
    leakUp o f d k l = l.set noLeak (keyClass o d k)
      ⟨m.held - 1, if m.held = 1 then laterDeadline f m.tail (timePlus f (divRec o d).leakTail) else m.tail,
        m.fresh⟩ := by
  by_cases last : (leakEntry l (keyClass o d k)).held = 1
  · simp [leakUp, on, last, laterOf_eq_laterDeadline]
  · simp [leakUp, on, last]

/-- A write to class `c` shows in class `c` and in no other. -/
theorem leakEntry_of_eq_set {t : Table LeakEntry} {c : Nat} {e : LeakEntry} (canonical : l.wf noLeak = true)
    (written : t = l.set noLeak c e) :
    leakEntry t c = e ∧ ∀ c', c' ≠ c → leakEntry t c' = leakEntry l c' := by
  subst written
  exact ⟨Table.get_set_same c e canonical, fun _ other => Table.get_set_other e other canonical⟩

end

/-! ### The three events (R134, R135) -/

section
variable {f : Time} {v : Voice} {d : Division} {k : Nat} {s : State}

theorem takeDown_map : (takeDown f v d k s).map = setKey s.map d k
    ⟨addVoice v (keyEntry s.map d k).holders, timePlus f s.params.cipherLimit⟩ := rfl

/-- A DOWN on a key that is up is a key change. -/
theorem takeDown_leak_of_up (up : (keyEntry s.map d k).holders = []) :
    (takeDown f v d k s).leak = leakDown s.organ f d k s.leak := by
  simp [takeDown, up]

theorem takeDown_leak_of_down (down : (keyEntry s.map d k).holders ≠ []) :
    (takeDown f v d k s).leak = s.leak := by
  simp [takeDown, down]

theorem takeUp_of_not_holder (ignored : v ∉ (keyEntry s.map d k).holders) : takeUp f v d k s = s := by
  simp [takeUp, ignored]

theorem takeRenew_of_not_holder (ignored : v ∉ (keyEntry s.map d k).holders) : takeRenew f v d k s = s := by
  simp [takeRenew, ignored]

section
variable (holds : v ∈ (keyEntry s.map d k).holders)
include holds

theorem takeUp_map : (takeUp f v d k s).map = setKey s.map d k
    { keyEntry s.map d k with holders := dropVoice v (keyEntry s.map d k).holders } := by
  simp [takeUp, holds]

/-- An UP of the only holder is a key change. -/
theorem takeUp_leak_of_last (last : ∀ w ∈ (keyEntry s.map d k).holders, w = v) :
    (takeUp f v d k s).leak = leakUp s.organ f d k s.leak := by
  simp [takeUp, holds, dropVoice_eq_nil_iff.mpr last]

theorem takeUp_leak_of_others (others : ∃ w ∈ (keyEntry s.map d k).holders, w ≠ v) :
    (takeUp f v d k s).leak = s.leak := by
  have left : dropVoice v (keyEntry s.map d k).holders ≠ [] := by
    simpa [dropVoice_eq_nil_iff] using others
  simp [takeUp, holds, left]

theorem takeRenew_of_holder : takeRenew f v d k s = { s with
    map := setKey s.map d k { keyEntry s.map d k with deadline := timePlus f s.params.cipherLimit } } := by
  simp [takeRenew, holds]

end

/-! ### A division without leak tracking, and a key that does not change, leave the mask alone -/

theorem takeDown_leak_of_stays
    (stays : (keyEntry s.map d k).holders ≠ [] ∨ (divRec s.organ d).leakTracking = false) :
    (takeDown f v d k s).leak = s.leak := by
  by_cases up : (keyEntry s.map d k).holders = []
  · have off := stays.resolve_left (not_not_intro up)
    rw [takeDown_leak_of_up up, leakDown_of_untracked off]
  · exact takeDown_leak_of_down up

theorem takeUp_leak_of_stays (holds : v ∈ (keyEntry s.map d k).holders)
    (stays : (∃ w ∈ (keyEntry s.map d k).holders, w ≠ v) ∨ (divRec s.organ d).leakTracking = false) :
    (takeUp f v d k s).leak = s.leak := by
  by_cases last : ∀ w ∈ (keyEntry s.map d k).holders, w = v
  · have off := stays.resolve_left fun ⟨w, member, other⟩ => other (last w member)
    rw [takeUp_leak_of_last holds last, leakUp_of_untracked off]
  · push Not at last
    exact takeUp_leak_of_others holds last

end

/-- Settles O52: each event writes one key entry, and a key change with tracking on writes one class. -/
theorem takenEventsChangeTheMap : Obligations.TakenEventsChangeTheMap := by
  intro f v d k s below keysCanonical leakCanonical e r c m struck released renewed
  have struckMap : struck.map = setKey s.map d k ⟨addVoice v e.holders, timePlus f s.params.cipherLimit⟩ :=
    takeDown_map
  refine ⟨⟨?_, ?_, ?_, takeDown_leak_of_stays, fun up on => ?_⟩,
    fun ignored => ⟨takeUp_of_not_holder ignored, takeRenew_of_not_holder ignored⟩, fun holds => ?_⟩
  · simp [struckMap, keyEntry_setKey_same _ keysCanonical, mem_addVoice]
  · rw [struckMap, keyEntry_setKey_same _ keysCanonical]
  · exact otherKeysStay_setKey _ keysCanonical below
  · exact leakEntry_of_eq_set leakCanonical ((takeDown_leak_of_up up).trans (leakDown_of_tracked on))
  · have releasedMap : released.map = setKey s.map d k { e with holders := dropVoice v e.holders } :=
      takeUp_map holds
    have renewedState : renewed = { s with
        map := setKey s.map d k { e with deadline := timePlus f s.params.cipherLimit } } :=
      takeRenew_of_holder holds
    refine ⟨?_, ?_, ?_, takeUp_leak_of_stays holds, fun last on => ?_, ?_, ?_, ?_⟩
    · simp [releasedMap, keyEntry_setKey_same _ keysCanonical, mem_dropVoice]
    · rw [releasedMap, keyEntry_setKey_same _ keysCanonical]
    · rw [releasedMap]
      exact otherKeysStay_setKey _ keysCanonical below
    · exact leakEntry_of_eq_set leakCanonical
        ((takeUp_leak_of_last holds last).trans (leakUp_of_tracked on))
    · rw [renewedState, keyEntry_setKey_same _ keysCanonical]
    · rw [renewedState]
      exact otherKeysStay_setKey _ keysCanonical below
    · rw [renewedState]

end Sys2Proof.Proofs
end

section
/-! PROOFS. What each block keeps on its own: the flag unit, the Key Schedule and the slot records. -/

namespace Sys2Proof.Proofs

open Sys2Proof.Machine Sys2Proof.Laws Sys2Proof.Claims

/-! ### The Flag and Notice Unit (R174, R176) -/

/-- The raise records are in canonical form. -/
def RaisesCanonical (f : Flags) : Prop := f.raised.wf none = true

/-- The Notice Queue holds no more than its places (R176). -/
def NoticesFit (f : Flags) : Prop := f.queue.length ≤ Config.noticePlaces

@[simp] theorem offerNotice_raised (f : Flags) (r : Raise) : (offerNotice f r).raised = f.raised := by
  unfold offerNotice
  split <;> rfl

theorem raisesCanonical_raiseFlags (now : Time) (k : Kind) {f : Flags} (canonical : RaisesCanonical f) :
    RaisesCanonical (raiseFlags now k f) := by
  unfold raiseFlags RaisesCanonical
  split
  · exact canonical
  · dsimp only
    split
    · rw [offerNotice_raised]
      exact Table.wf_set _ _ canonical
    · exact Table.wf_set _ _ canonical

theorem noticesFit_raise (k : Kind) {s : State} (fits : NoticesFit s.flags) : NoticesFit (raise k s).flags :=
  raise_queue_length k fits

/-! ### Schedule order (R116) -/

theorem timeDiff_swap {a b : Time} (ahead : 0 < timeDiff a b) : timeDiff b a < 0 := by
  simp only [timeDiff, BitVec.toInt_eq_toNat_cond, BitVec.toNat_sub] at *
  omega

theorem later_asymm {a b : Time} (ahead : later a b = true) : later b a = false := by
  have := timeDiff_swap (of_decide_eq_true ahead)
  simp only [later, decide_eq_false_iff_not]
  omega

/-- A service time that has not arrived is later. -/
theorem later_eq_not_arrived (a b : Time) : later a b = !arrived a b := by
  rw [later, arrived, ← decide_not]
  exact decide_eq_decide.mpr (by omega)

theorem kindRank_injective {a b : KeyKind} (same : kindRank a = kindRank b) : a = b := by
  cases a <;> cases b <;> simp_all [kindRank]

/-- An event put before another may be followed by it. -/
theorem mayFollow_of_eventBefore {e h : KeyEvent} (before : eventBefore e h = true) : MayFollow e h := by
  unfold eventBefore at before
  split at before
  · rename_i sameTime
    refine ⟨fun differs => absurd sameTime differs, fun _ => ?_⟩
    split at before
    · rename_i sameRank
      exact .inr ⟨kindRank_injective sameRank, (of_decide_eq_true before).le⟩
    · exact .inl (of_decide_eq_true before)
  · rename_i differs
    exact ⟨fun _ => later_asymm before, fun sameTime => absurd sameTime differs⟩

/-- An event that is not put before another may follow it. -/
theorem mayFollow_of_not_eventBefore {e h : KeyEvent} (behind : eventBefore e h = false) : MayFollow h e := by
  unfold eventBefore at behind
  split at behind
  · rename_i sameTime
    refine ⟨fun differs => absurd sameTime.symm differs, fun _ => ?_⟩
    split at behind
    · rename_i sameRank
      refine .inr ⟨kindRank_injective sameRank.symm, ?_⟩
      have := of_decide_eq_false behind
      simp only [BitVec.toInt_eq_toNat_cond, BitVec.toNat_sub] at *
      omega
    · rename_i differs
      have := of_decide_eq_false behind
      exact .inl (show kindRank h.kind < kindRank e.kind by omega)
  · rename_i differs
    exact ⟨fun _ => behind, fun sameTime => absurd sameTime.symm differs⟩

/-- The order of neighbours as a chain, which says it link by link. -/
theorem neighboursInOrder_iff_isChain {l : List KeyEvent} : NeighboursInOrder l ↔ l.IsChain MayFollow := by
  rw [List.isChain_iff_getElem]
  constructor
  · intro ordered i inside
    exact ordered i _ _ (List.getElem?_eq_getElem _) (List.getElem?_eq_getElem _)
  · intro chain i a b first second
    obtain ⟨_, rfl⟩ := List.getElem?_eq_some_iff.mp first
    obtain ⟨inside, rfl⟩ := List.getElem?_eq_some_iff.mp second
    exact chain i inside

/-- What stands first behind a placing is the event placed or what stood first before. -/
theorem head_placeEvent (e : KeyEvent) (l : List KeyEvent) :
    ∃ rest, placeEvent e l = e :: rest ∨ ∃ h tail, l = h :: tail ∧ placeEvent e l = h :: rest := by
  cases l with
  | nil => exact ⟨[], .inl rfl⟩
  | cons h tail =>
    simp only [placeEvent]
    split
    · exact ⟨h :: tail, .inl rfl⟩
    · exact ⟨placeEvent e tail, .inr ⟨h, tail, rfl, rfl⟩⟩

/-- Placing an event keeps the order of neighbours. -/
theorem isChain_placeEvent (e : KeyEvent) {l : List KeyEvent} (ordered : l.IsChain MayFollow) :
    (placeEvent e l).IsChain MayFollow := by
  induction l with
  | nil => exact .singleton e
  | cons h rest ih =>
    simp only [placeEvent]
    split
    · rename_i before
      exact .cons_cons (mayFollow_of_eventBefore before) ordered
    · rename_i behind
      have placed := ih ordered.tail
      obtain ⟨tail, first | ⟨g, others, rfl, first⟩⟩ := head_placeEvent e rest
      · rw [first] at placed ⊢
        exact .cons_cons (mayFollow_of_not_eventBefore (by simpa using behind)) placed
      · rw [first] at placed ⊢
        exact .cons_cons (List.isChain_cons_cons.mp ordered).1 placed

theorem isChain_orderEvents (l : List KeyEvent) : (orderEvents l).IsChain MayFollow := by
  induction l with
  | nil => exact .nil
  | cons e rest ih => exact isChain_placeEvent e ih

/-- A schedule put in order, its PROVISIONAL events behind the boundary, is in order (R116). -/
theorem scheduleInOrder_orderSchedule {l : List KeyEvent} {b : Time} {n : BitVec 32}
    (behind : ∀ e ∈ l, e.firm = false → later e.time b = true) :
    ScheduleInOrder ⟨orderSchedule l, b, n⟩ := by
  refine ⟨⟨_, _, rfl, fun e member => ?_, fun e member => ?_, ?_, ?_⟩, fun e member => ?_⟩
  · have found := (orderEvents_perm _).mem_iff.mp member
    simpa using (List.mem_filter.mp found).2
  · have found := (orderEvents_perm _).mem_iff.mp member
    simpa using (List.mem_filter.mp found).2
  · exact neighboursInOrder_iff_isChain.mpr (isChain_orderEvents _)
  · exact neighboursInOrder_iff_isChain.mpr (isChain_orderEvents _)
  · exact behind e (mem_orderSchedule.mp member)

/-- A firming pass leaves the schedule in order, whatever stood before (R125). -/
theorem scheduleInOrder_firmPass (now : Time) (lead : Nat) (k : Schedule) :
    ScheduleInOrder (firmPass now lead k) := by
  refine scheduleInOrder_orderSchedule fun e member provisional => ?_
  obtain ⟨x, _, rfl⟩ := List.mem_map.mp member
  rw [later_eq_not_arrived]
  unfold firmEvent at provisional ⊢
  split
  · simp_all
  · simp_all

/-- Putting a schedule in order keeps its PROVISIONAL events behind the boundary (R116). -/
theorem scheduleInOrder_inOrder {k : Schedule} (behind : ∀ e ∈ k.events, e.firm = false → later e.time k.boundary = true) :
    ScheduleInOrder (inOrder k) :=
  scheduleInOrder_orderSchedule behind

end Sys2Proof.Proofs
end

section
/-! PROOFS. The slots' extents under a write of one slot (R6), and what reading ahead, entering, planning and
leaving of steps keep. -/

namespace Sys2Proof.Proofs

open Sys2Proof.Machine Sys2Proof.Laws Sys2Proof.Claims

/-! ### Extents under a write of one slot (R6) -/

/-- The extent of a slot: its start and its declared entries. -/
def extentOf (sl : Slot) : Nat × Nat := (sl.start, sl.header.entries)

/-- A write of one slot exchanges the extent that it had for the one that it gets. -/
theorem extents_writeCells {l : List (Nat × Option Slot)} (n : Nat) (x : Option Slot)
    (canonical : wfCells none l = true) :
    ((writeCells none l n x).filterMap (fun c => c.2.map extentOf)
        ++ ((readCells none l n).map extentOf).toList).Perm
      ((x.map extentOf).toList ++ l.filterMap (fun c => c.2.map extentOf)) := by
  induction l with
  | nil => cases x <;> simp [writeCells, readCells]
  | cons c rest ih =>
    obtain ⟨i, y⟩ := c
    obtain ⟨present, rising, restCanonical⟩ := wfCells_cons.mp canonical
    obtain ⟨sl, rfl⟩ := Option.ne_none_iff_exists'.mp present
    by_cases below : n < i
    · cases x <;> simp [writeCells, readCells, below]
    · by_cases here : n = i
      · subst here
        cases x with
        | none => simp [writeCells, readCells]
        | some new => simp [writeCells, readCells]
      · have moved := (ih restCanonical).cons (extentOf sl)
        simp only [writeCells, readCells, below, here, if_false, List.filterMap_cons, Option.map_some,
          List.cons_append]
        refine moved.trans ?_
        exact (List.perm_middle (l₁ := (x.map extentOf).toList)).symm

theorem extents_eq (st : Store) : extents st = st.slots.cells.filterMap (fun c => c.2.map extentOf) := rfl

/-- A slot written with the extent that it had leaves the extents as they were. -/
theorem extents_set_same {st : Store} {n : Nat} {sl new : Slot} (canonical : st.slots.wf none = true)
    (held : slotRec st n = some sl) (extent : extentOf new = extentOf sl) :
    (extents { st with slots := st.slots.set none n (some new) }).Perm (extents st) := by
  have exchanged := extents_writeCells n (some new) canonical
  have read : readCells none st.slots.cells n = some sl := held
  rw [read] at exchanged
  simp only [Option.map_some, Option.toList_some, extent, List.singleton_append] at exchanged
  exact ((List.perm_append_singleton _ _).symm.trans exchanged).cons_inv

/-- The division of the pool speaks of the free runs and the extents alone, in whatever order (R6). -/
theorem poolDivided_of_perm {a b : Store} (runs : b.freeRuns = a.freeRuns) (same : (extents b).Perm (extents a))
    (divided : PoolDivided a) : PoolDivided b := by
  obtain ⟨once, within, maximal⟩ := divided
  refine ⟨fun e below => ?_, fun x member => within x (same.mem_iff.mp member), runs ▸ maximal⟩
  rw [← once e below, runs]
  exact (same.append_left a.freeRuns).countP_eq _

/-- Two contents of the store with the same pool, free runs and clearing, whose slots own the same extents. -/
structure SameTunes (a b : Store) : Prop where
  pool : b.pool = a.pool
  runs : b.freeRuns = a.freeRuns
  clearing : b.clearEnd = a.clearEnd
  slots : a.slots.wf none = true → b.slots.wf none = true ∧ (extents b).Perm (extents a)

theorem SameTunes.refl (a : Store) : SameTunes a a := ⟨rfl, rfl, rfl, fun canonical => ⟨canonical, .rfl⟩⟩

theorem SameTunes.trans {a b c : Store} (first : SameTunes a b) (second : SameTunes b c) : SameTunes a c := by
  refine ⟨second.pool.trans first.pool, second.runs.trans first.runs, second.clearing.trans first.clearing,
    fun canonical => ?_⟩
  obtain ⟨canonicalB, sameB⟩ := first.slots canonical
  obtain ⟨canonicalC, sameC⟩ := second.slots canonicalB
  exact ⟨canonicalC, sameC.trans sameB⟩

/-- A slot whose extent stays is written. -/
theorem sameTunes_set {st : Store} {n : Nat} {sl new : Slot} (held : slotRec st n = some sl)
    (extent : extentOf new = extentOf sl) : SameTunes st { st with slots := st.slots.set none n (some new) } :=
  ⟨rfl, rfl, rfl, fun canonical => ⟨Table.wf_set _ _ canonical, extents_set_same canonical held extent⟩⟩

theorem sameTunes_noteFaultIn (n i : Nat) (st : Store) : SameTunes st (noteFaultIn n i st) := by
  unfold noteFaultIn
  split
  · rename_i sl held
    obtain ⟨pool, runs, clearing, slots⟩ := sameTunes_set (new := { sl with
      faultFirst := some (sl.faultFirst.getD i),
      faultMultiple := sl.faultMultiple || (sl.faultFirst.isSome && sl.faultFirst != some i) }) held rfl
    exact ⟨pool, runs, clearing, slots⟩
  · exact ⟨rfl, rfl, rfl, fun canonical => ⟨canonical, .rfl⟩⟩

theorem sameTunes_setSlotState (n : Nat) (x : SlotState) (st : Store) : SameTunes st (setSlotState n x st) := by
  unfold setSlotState
  split
  · rename_i sl held
    exact sameTunes_set held rfl
  · exact .refl st

/-! ### What the walk of the steps keeps (R96 to R99, R117) -/

/-- Every key of a division, of the schedule and of a waiting release request is one of 64. -/
def KeysBelow (s : State) : Prop :=
  (∀ d, (divRec s.organ d).keyCount ≤ 64) ∧ (∀ e ∈ s.keys.events, e.key < 64)
    ∧ ∀ q ∈ s.player.releases, ∀ k ∈ q.keys, k.2.2 < 64

/-- The Player but for its window, what it has read ahead, the fence, its waiting releases and its ties. -/
def offWalk (p : Player) : Player :=
  { p with window := [], readAhead := none, fence := .NONE, releases := [], tied := none }

/-- What the reading, entering, planning and leaving of steps leave alone, and what they keep. -/
structure Walks (s t : State) : Prop where
  still : Still s t
  follow : t.follow = s.follow
  listen : t.listen = s.listen
  keyline : t.keyline = s.keyline
  player : offWalk t.player = offWalk s.player
  store : SameTunes s.store t.store
  raises : RaisesCanonical s.flags → RaisesCanonical t.flags
  notices : NoticesFit s.flags → NoticesFit t.flags
  places : s.keys.events.length ≤ Config.schedulePlaces → t.keys.events.length ≤ Config.schedulePlaces
  order : ScheduleInOrder s.keys → ScheduleInOrder t.keys
  keys : KeysBelow s → KeysBelow t

theorem Walks.refl (s : State) : Walks s s := ⟨.refl s, rfl, rfl, rfl, rfl, .refl _, id, id, id, id, id⟩

theorem Walks.trans {s t u : State} (a : Walks s t) (b : Walks t u) : Walks s u :=
  ⟨a.still.trans b.still, b.follow.trans a.follow, b.listen.trans a.listen, b.keyline.trans a.keyline,
    b.player.trans a.player, a.store.trans b.store, b.raises ∘ a.raises, b.notices ∘ a.notices,
    b.places ∘ a.places, b.order ∘ a.order, b.keys ∘ a.keys⟩

variable {s : State}

/-! One block at a time. -/

theorem walks_player {p : Player} (same : offWalk p = offWalk s.player)
    (releases : p.releases = s.player.releases) : Walks s { s with player := p } :=
  ⟨still_player s p, rfl, rfl, rfl, same, .refl _, id, id, id, id,
    fun ⟨counts, events, waiting⟩ => ⟨counts, events, releases ▸ waiting⟩⟩

theorem walks_raise (k : Kind) : Walks s (raise k s) :=
  ⟨still_raise s k, rfl, rfl, rfl, rfl, .refl _, raisesCanonical_raiseFlags _ _, noticesFit_raise k, id, id, id⟩

theorem walks_store {st : Store} (same : SameTunes s.store st) : Walks s { s with store := st } :=
  ⟨still_store s st, rfl, rfl, rfl, rfl, same, id, id, id, id, id⟩

theorem walks_keys {k : Schedule}
    (places : s.keys.events.length ≤ Config.schedulePlaces → k.events.length ≤ Config.schedulePlaces)
    (order : ScheduleInOrder s.keys → ScheduleInOrder k)
    (keys : KeysBelow s → ∀ e ∈ k.events, e.key < 64) : Walks s { s with keys := k } :=
  ⟨still_keys s k, rfl, rfl, rfl, rfl, .refl _, id, id, places, order,
    fun below => ⟨below.1, keys below, below.2.2⟩⟩

theorem walks_noteFault (n i : Nat) (r : Reader) : Walks s (noteFault n i r s) :=
  (walks_store (sameTunes_noteFaultIn n i s.store)).trans (walks_raise _)

end Sys2Proof.Proofs
end

section
/-! PROOFS. The walk of the steps, operation by operation: places, order and keys of the Key Schedule, and the
frame of the Lookahead Window (R96 to R99, R115 to R124). -/

namespace Sys2Proof.Proofs

open Sys2Proof.Machine Sys2Proof.Laws Sys2Proof.Claims

/-! ### The keys that a step plays (R118, R119) -/

theorem foldPitch_lt {lowest count k : Nat} {p : Int} (folded : foldPitch lowest count p = some k) : k < count := by
  unfold foldPitch at folded
  obtain ⟨within, key⟩ := Option.ite_none_right_eq_some.mp folded
  have := Option.some.inj key
  omega

theorem routeNote_key_lt {o : Organ} {ch : PerVoice VoiceChannel} {n : Note} {r : RoutedNote}
    (routed : routeNote o ch n = some r) : r.key < (divRec o r.division).keyCount := by
  unfold routeNote at routed
  dsimp only at routed
  split at routed
  · cases routed
  · split at routed
    · cases routed
    · rename_i folded
      cases routed
      exact foldPitch_lt folded

theorem mem_of_mem_dropRepeats {n : RoutedNote} {seen l : List RoutedNote} (member : n ∈ dropRepeats seen l) :
    n ∈ l := by
  induction l generalizing seen with
  | nil => exact member
  | cons m rest ih =>
    simp only [dropRepeats] at member
    split at member
    · exact List.mem_cons_of_mem m (ih member)
    · obtain rfl | later := List.mem_cons.mp member
      · exact List.mem_cons_self
      · exact List.mem_cons_of_mem m (ih later)

/-- Every note that a step plays has a key of its division. -/
theorem routeNotes_key_lt {o : Organ} {ch : PerVoice VoiceChannel} {mode : Mode} {notes : List Note}
    {r : RoutedNote} (member : r ∈ routeNotes o ch mode notes) : r.key < (divRec o r.division).keyCount := by
  unfold routeNotes at member
  split at member
  · obtain ⟨n, -, routed⟩ := List.mem_filterMap.mp (mem_of_mem_dropRepeats member)
    exact routeNote_key_lt routed
  · cases member

theorem key_of_mem_endDrafts {c : PlanContext} {w : WindowStep} {n : RoutedNote} {d : Draft}
    (member : d ∈ endDrafts c w n) : d.key = n.key := by
  unfold endDrafts at member
  split at member
  · split at member
    · simp only [List.mem_singleton] at member
      rw [member]
      rfl
    · cases member
  · split at member
    · cases member
    · split at member
      · simp only [List.mem_cons, List.not_mem_nil, or_false] at member
        obtain rfl | rfl := member <;> rfl
      · simp only [List.mem_singleton] at member
        rw [member]
        rfl

theorem stepDrafts_key_lt {c : PlanContext} {o : Organ} {ch : PerVoice VoiceChannel} {w : WindowStep} {d : Draft}
    (counts : ∀ x, (divRec o x).keyCount ≤ 64) (member : d ∈ stepDrafts c o ch w) : d.key < 64 := by
  obtain ⟨n, played, drafted⟩ := List.mem_flatMap.mp member
  have below := (routeNotes_key_lt played).trans_le (counts n.division)
  obtain rfl | ending := List.mem_cons.mp drafted
  · exact below
  · rwa [key_of_mem_endDrafts ending]

/-! ### Placing (R115, R117, R122, R125) -/

@[simp] theorem tieToStrike_key (f : Follow) (o : Organ) (d u : KeyEvent) : (tieToStrike f o d u).key = u.key := by
  unfold tieToStrike
  split
  · split <;> rfl
  · rfl

theorem foldl_keeps {α β γ : Type} {f : β → α → β} (g : β → γ) (same : ∀ b a, g (f b a) = g b) :
    ∀ (l : List α) (b : β), g (l.foldl f b) = g b
  | [], _ => rfl
  | a :: rest, b => (foldl_keeps g same rest (f b a)).trans (same b a)

@[simp] theorem afterFirmUp_key (events : List KeyEvent) (d : KeyEvent) : (afterFirmUp events d).key = d.key :=
  foldl_keeps KeyEvent.key (fun acc u => by split <;> rfl) events d

@[simp] theorem length_placeEvent (e : KeyEvent) (l : List KeyEvent) : (placeEvent e l).length = l.length + 1 :=
  (placeEvent_perm e l).length_eq

theorem mem_placeEvent {x e : KeyEvent} {l : List KeyEvent} : x ∈ placeEvent e l ↔ x = e ∨ x ∈ l := by
  rw [(placeEvent_perm e l).mem_iff, List.mem_cons]

/-- A placing adds one event. -/
@[simp] theorem length_placeDraft (f : Follow) (o : Organ) (sec : Nat) (step : Option Nat) (k : Schedule)
    (d : Draft) : (placeDraft f o sec step k d).events.length = k.events.length + 1 := by
  unfold placeDraft
  dsimp only
  split <;> simp

/-- The event placed has the key asked, and the others keep theirs. -/
theorem placeDraft_key {f : Follow} {o : Organ} {sec : Nat} {step : Option Nat} {k : Schedule} {d : Draft}
    {n : Nat} (asked : d.key < n) (held : ∀ e ∈ k.events, e.key < n) :
    ∀ e ∈ (placeDraft f o sec step k d).events, e.key < n := by
  intro e member
  unfold placeDraft at member
  dsimp only at member
  split at member
  · obtain rfl | other := mem_placeEvent.mp member
    · rwa [afterFirmUp_key]
    · obtain ⟨x, old, rfl⟩ := List.mem_map.mp other
      rw [tieToStrike_key]
      exact held x old
  · obtain rfl | other := mem_placeEvent.mp member
    · rwa [foldl_keeps KeyEvent.key (fun u x => tieToStrike_key f o x u)]
    · exact held e other
  · obtain rfl | other := mem_placeEvent.mp member
    · exact asked
    · exact held e other

section
variable {f : Follow} {o : Organ} {sec n : Nat} {step : Option Nat}

theorem length_placeDrafts (drafts : List Draft) (k : Schedule) :
    (drafts.foldl (placeDraft f o sec step) k).events.length = k.events.length + drafts.length := by
  induction drafts generalizing k with
  | nil => rfl
  | cons d rest ih => simp [ih, Nat.add_comm, Nat.add_left_comm]

theorem placeDrafts_key {drafts : List Draft} {k : Schedule} (asked : ∀ d ∈ drafts, d.key < n)
    (held : ∀ e ∈ k.events, e.key < n) : ∀ e ∈ (drafts.foldl (placeDraft f o sec step) k).events, e.key < n := by
  induction drafts generalizing k with
  | nil => exact held
  | cons d rest ih =>
    exact ih (fun x member => asked x (List.mem_cons_of_mem d member))
      (placeDraft_key (asked d List.mem_cons_self) held)

end

@[simp] theorem firmEvent_key (now boundary : Time) (e : KeyEvent) : (firmEvent now boundary e).key = e.key := by
  unfold firmEvent
  split <;> rfl

@[simp] theorem retimeEvent_key (f : Follow) (o : Organ) (e : KeyEvent) : (retimeEvent f o e).key = e.key := by
  unfold retimeEvent
  split
  · rfl
  · split <;> rfl

theorem firmPass_key {now : Time} {lead n : Nat} {k : Schedule} (held : ∀ e ∈ k.events, e.key < n) :
    ∀ e ∈ (firmPass now lead k).events, e.key < n := by
  intro e member
  obtain ⟨x, old, rfl⟩ := List.mem_map.mp (mem_orderSchedule.mp member)
  rw [firmEvent_key]
  exact held x old

section
variable {s : State}

/-- What a firming pass follows is in order; its places and keys are those of the schedule before the pass. -/
theorem walks_firmPass {k : Schedule}
    (places : s.keys.events.length ≤ Config.schedulePlaces → k.events.length ≤ Config.schedulePlaces)
    (keys : KeysBelow s → ∀ e ∈ k.events, e.key < 64) :
    Walks s { s with keys := firmPass s.now s.params.firmLead k } :=
  walks_keys (fun fits => (length_firmPass _ _ k).trans_le (places fits))
    (fun _ => scheduleInOrder_firmPass _ _ k) (fun below => firmPass_key (keys below))

theorem walks_retime : Walks s (retime s) := by
  refine walks_firmPass (fun fits => ?_) (fun below e member => ?_)
  · rwa [List.length_map]
  · obtain ⟨x, old, rfl⟩ := List.mem_map.mp member
    rw [retimeEvent_key]
    exact below.2.1 x old

theorem walks_placeOrRefuse (sec step : Nat) {drafts : List Draft}
    (asked : KeysBelow s → ∀ d ∈ drafts, d.key < 64) : Walks s (placeOrRefuse s sec step drafts).1 := by
  unfold placeOrRefuse
  split
  · rename_i free
    refine walks_firmPass (fun fits => ?_) (fun below => placeDrafts_key (asked below) below.2.1)
    rw [length_placeDrafts]
    unfold freePlaces at free
    omega
  · exact walks_raise _

theorem walks_extendStep (w : WindowStep) (e : Nat) : Walks s (extendStep w e s) := by
  unfold extendStep
  dsimp only
  have parts := List.length_eq_length_filter_add (l := s.keys.events) (extendable w.sec w.index)
  have twice : ∀ l : List KeyEvent,
      (l.flatMap (extensionDrafts (extendedEnd w e) (min (w.pos + w.dur) (extendedEnd w e)))).length
        = 2 * l.length := by
    intro l
    induction l with
    | nil => rfl
    | cons x rest ih => simp [extensionDrafts, ih]; omega
  split
  · rename_i free
    split
    · exact .refl s
    · refine walks_firmPass (s := s) (fun fits => ?_) (fun below => placeDrafts_key ?_ ?_)
      · rw [length_placeDrafts, twice]
        rw [twice] at free
        unfold freePlaces at free
        dsimp only
        omega
      · intro d member
        obtain ⟨x, cancelled, drafted⟩ := List.mem_flatMap.mp member
        have key := below.2.1 x (List.mem_filter.mp cancelled).1
        simp only [extensionDrafts, List.mem_cons, List.not_mem_nil, or_false] at drafted
        obtain rfl | rfl := drafted <;> exact key
      · exact fun x member => below.2.1 x (List.mem_filter.mp member).1
  · exact walks_raise _

/-! ### Releases of held keys (R129, R131) -/

theorem releasePair_places {now : Time} {sec : Nat} {k : Schedule} {p : Voice × Division × Nat}
    (fits : k.events.length ≤ Config.schedulePlaces) :
    (releasePair now sec k p).events.length ≤ Config.schedulePlaces := by
  unfold releasePair
  split
  · exact fits
  · rename_i free
    have some : freePlaces k ≠ 0 := fun full => free (by simp [full])
    unfold freePlaces at some
    simp only [List.length_cons]
    omega

/-- Each event behind a release stood before, or is a FIRM key-up of the pair. -/
theorem mem_releasePair {now : Time} {sec : Nat} {k : Schedule} {p : Voice × Division × Nat} {e : KeyEvent}
    (member : e ∈ (releasePair now sec k p).events) : e ∈ k.events ∨ (e.firm = true ∧ e.key = p.2.2) := by
  unfold releasePair at member
  split at member
  · exact .inl member
  · obtain rfl | old := List.mem_cons.mp member
    · exact .inr ⟨rfl, rfl⟩
    · exact .inl old

@[simp] theorem releasePair_boundary (now : Time) (sec : Nat) (k : Schedule) (p : Voice × Division × Nat) :
    (releasePair now sec k p).boundary = k.boundary := by
  unfold releasePair
  split <;> rfl

theorem releasePairs_places {now : Time} {sec : Nat} (ps : List (Voice × Division × Nat)) {k : Schedule}
    (fits : k.events.length ≤ Config.schedulePlaces) :
    (ps.foldl (releasePair now sec) k).events.length ≤ Config.schedulePlaces := by
  induction ps generalizing k with
  | nil => exact fits
  | cons p rest ih => exact ih (releasePair_places fits)

theorem mem_releasePairs {now : Time} {sec : Nat} {ps : List (Voice × Division × Nat)} {k : Schedule}
    {e : KeyEvent} (member : e ∈ (ps.foldl (releasePair now sec) k).events) :
    e ∈ k.events ∨ (e.firm = true ∧ ∃ p ∈ ps, e.key = p.2.2) := by
  induction ps generalizing k with
  | nil => exact .inl member
  | cons p rest ih =>
    obtain old | ⟨firm, q, listed, key⟩ := ih member
    · obtain older | ⟨firm, key⟩ := mem_releasePair old
      · exact .inl older
      · exact .inr ⟨firm, p, List.mem_cons_self, key⟩
    · exact .inr ⟨firm, q, List.mem_cons_of_mem p listed, key⟩

theorem releasePairs_boundary (now : Time) (sec : Nat) (ps : List (Voice × Division × Nat)) (k : Schedule) :
    (ps.foldl (releasePair now sec) k).boundary = k.boundary :=
  foldl_keeps Schedule.boundary (releasePair_boundary now sec) ps k

/-- A key of the Sounding Map is one of 64 of its division. -/
theorem heldPairs_key_lt {m : SoundingMap} {p : Voice × Division × Nat} (held : p ∈ heldPairs m) : p.2.2 < 64 := by
  obtain ⟨x, down, pair⟩ := List.mem_flatMap.mp held
  obtain ⟨v, -, rfl⟩ := List.mem_map.mp pair
  obtain ⟨c, -, rfl⟩ := List.mem_map.mp down
  exact Nat.mod_lt _ (by decide)

/-- The schedule with events cancelled and then an UP at now for each held pair, put in order (R129, R131). -/
theorem walks_releaseHeld (sec : Nat) : Walks s (releaseHeld sec s) := by
  refine walks_keys (fun fits => ?_) (fun order => scheduleInOrder_inOrder fun e member provisional => ?_)
    (fun below e member => ?_)
  · exact (length_orderSchedule _).trans_le (releasePairs_places _ fits)
  · rw [releasePairs_boundary]
    obtain old | ⟨firm, -⟩ := mem_releasePairs member
    · exact order.2 e old provisional
    · simp [firm] at provisional
  · obtain old | ⟨-, p, held, key⟩ := mem_releasePairs (mem_orderSchedule.mp member)
    · exact below.2.1 e old
    · exact key ▸ heldPairs_key_lt held

/-! ### Reading ahead, planning, entering and leaving (R96 to R99) -/

theorem walks_readGood (n : Nat) (sl : Slot) :
    ∀ (left i : Nat) (run : Bool) (s : State), Walks s (readGood n sl left i run s).1
  | 0, _, _, s => .refl s
  | left + 1, i, run, s => by
    unfold readGood
    split
    · exact .refl s
    · exact (walks_noteFault n i .player).trans (walks_readGood n sl left _ _ _)

theorem walks_readAheadFrom (sec i : Nat) : Walks s (readAheadFrom sec i s).1 := by
  unfold readAheadFrom
  split
  · exact walks_player rfl rfl
  · exact (walks_readGood _ _ _ _ _ s).trans (walks_player rfl rfl)

theorem walks_beginWalk (sec : Nat) : Walks s (beginWalk sec s) := by
  unfold beginWalk
  split
  · exact walks_readAheadFrom _ _
  · exact .refl s

theorem walks_handStep (w : WindowStep) : Walks s (handStep w s).1 := by
  have placed : Walks s (placeOrRefuse s w.sec w.index
      (stepDrafts (planContext s w) s.organ s.player.channels w)).1 :=
    walks_placeOrRefuse _ _ fun below _ member => stepDrafts_key_lt below.1 member
  unfold handStep
  dsimp only
  generalize placeOrRefuse s w.sec w.index (stepDrafts (planContext s w) s.organ s.player.channels w) = r at placed
  split
  · exact placed.trans (walks_player rfl rfl)
  · exact placed

theorem walks_planSteps : ∀ (n : Nat) (s : State), Walks s (planSteps n s)
  | 0, s => .refl s
  | n + 1, s => by
    unfold planSteps
    split
    · exact .refl s
    · dsimp only
      split
      · exact (walks_handStep _).trans (walks_planSteps n _)
      · exact walks_handStep _

theorem walks_handIfFirst (sec i : Nat) : Walks s (handIfFirst sec i s) := by
  unfold handIfFirst
  split
  · split
    · exact walks_handStep _
    · exact .refl s
  · exact .refl s

theorem walks_attachSuccessor (sec i : Nat) (run : Bool) : Walks s (attachSuccessor sec i run s) := by
  unfold attachSuccessor
  dsimp only
  split
  · split
    · refine Walks.trans ?_ (walks_extendStep _ _)
      exact walks_player rfl rfl
    · exact walks_player rfl rfl
  · exact walks_player rfl rfl

theorem walks_enterStep (r : ReadAhead) : Walks s (enterStep r s) := by
  let pushed : State := { s with player := { s.player with window := s.player.window ++ [windowStepOf r] } }
  let read := readAheadFrom r.sec (r.index + 1) pushed
  let attached := attachSuccessor r.sec r.index read.2 read.1
  have first : Walks s pushed := walks_player rfl rfl
  have second : Walks pushed attached := (walks_readAheadFrom _ _).trans (walks_attachSuccessor _ _ _)
  have third : Walks attached { attached with player := { attached.player with
    fence := fenceAfterEntry r attached.player } } := walks_player rfl rfl
  exact ((first.trans second).trans third).trans (walks_handIfFirst _ _)

theorem walks_enterDueSteps : ∀ (n : Nat) (s : State), Walks s (enterDueSteps n s).1
  | 0, s => .refl s
  | n + 1, s => by
    unfold enterDueSteps
    split
    · exact (walks_enterStep _).trans (walks_enterDueSteps n _)
    · exact .refl s

theorem walks_leaveWindow : Walks s (leaveWindow s) := walks_player rfl rfl

theorem walks_leaveFirst : Walks s (leaveFirst s) := walks_player rfl rfl

theorem walks_admitSteps : ∀ (n : Nat) (s : State), Walks s (admitSteps n s).1
  | 0, s => .refl s
  | n + 1, s => by
    have entered := walks_enterDueSteps (Config.windowPlaces + 1) s
    unfold admitSteps
    dsimp only
    split
    · exact (entered.trans walks_leaveFirst).trans (walks_admitSteps n _)
    · exact entered

/-! ### Fermata releases and freed places (R117, R123, R129) -/

/-- The waiting release requests replaced by others whose keys are among 64 too. -/
theorem walks_releases {qs : List ReleaseRequest}
    (keys : KeysBelow s → ∀ q ∈ qs, ∀ k ∈ q.keys, k.2.2 < 64) :
    Walks s { s with player := { s.player with releases := qs } } :=
  ⟨still_player s _, rfl, rfl, rfl, rfl, .refl _, id, id, id, id,
    fun below => ⟨below.1, below.2.1, keys below⟩⟩

theorem walks_handRelease {q : ReleaseRequest} (keys : KeysBelow s → ∀ k ∈ q.keys, k.2.2 < 64) :
    Walks s (handRelease q s).1 := by
  have placed : Walks s (placeOrRefuse s q.sec q.index
      (q.keys.map (fun k => draftFixed k.1 k.2.1 k.2.2 q.time))).1 := by
    refine walks_placeOrRefuse _ _ fun below d member => ?_
    obtain ⟨k, listed, rfl⟩ := List.mem_map.mp member
    exact keys below k listed
  unfold handRelease
  dsimp only
  split
  · exact placed.trans (walks_player rfl rfl)
  · exact placed

/-- The requests left are among those handed. -/
theorem handReleases_subset : ∀ (qs : List ReleaseRequest) (s : State), (handReleases qs s).2 ⊆ qs
  | [], _ => List.Subset.refl _
  | q :: rest, s => by
    unfold handReleases
    dsimp only
    split
    · exact List.Subset.trans (handReleases_subset rest _) (List.subset_cons_self q rest)
    · exact List.Subset.refl _

@[simp] theorem placeOrRefuse_player (s : State) (sec step : Nat) (drafts : List Draft) :
    (placeOrRefuse s sec step drafts).1.player = s.player := by
  unfold placeOrRefuse
  split <;> rfl

@[simp] theorem handRelease_releases (q : ReleaseRequest) (s : State) :
    (handRelease q s).1.player.releases = s.player.releases := by
  unfold handRelease
  dsimp only
  split <;> simp [updateStep]

theorem walks_handReleases : ∀ (qs : List ReleaseRequest) (s : State), qs ⊆ s.player.releases →
    Walks s (handReleases qs s).1
  | [], s, _ => .refl s
  | q :: rest, s, waiting => by
    have first : Walks s (handRelease q s).1 :=
      walks_handRelease fun below => below.2.2 q (waiting List.mem_cons_self)
    unfold handReleases
    dsimp only
    split
    · refine first.trans (walks_handReleases rest _ ?_)
      rw [handRelease_releases]
      exact fun x member => waiting (List.mem_cons_of_mem q member)
    · exact first

theorem handReleases_releases : ∀ (qs : List ReleaseRequest) (s : State),
    (handReleases qs s).1.player.releases = s.player.releases
  | [], _ => rfl
  | q :: rest, s => by
    unfold handReleases
    dsimp only
    split
    · exact (handReleases_releases rest _).trans (handRelease_releases q s)
    · exact handRelease_releases q s

/-- The requests of `s` handed again, those left taking the place of them all. -/
theorem walks_releasesAgain : Walks s { (handReleases s.player.releases s).1 with
    player := { (handReleases s.player.releases s).1.player with
      releases := (handReleases s.player.releases s).2 } } :=
  (walks_handReleases _ s (List.Subset.refl _)).trans (walks_releases fun below q member =>
    below.2.2 q ((handReleases_releases s.player.releases s).symm ▸ handReleases_subset _ s member))

theorem walks_placesFreed : Walks s (placesFreed s) := by
  have again (u : State) (held : Walks s u) := held.trans (walks_releasesAgain (s := u))
  unfold placesFreed
  dsimp only
  split <;> split
  · exact (again _ (walks_releaseHeld _)).trans (walks_planSteps _ _)
  · exact again _ (walks_releaseHeld _)
  · exact (again _ (.refl s)).trans (walks_planSteps _ _)
  · exact again _ (.refl s)

theorem stepKeys_lt (below : KeysBelow s) {w : WindowStep} {k : Voice × Division × Nat}
    (member : k ∈ stepKeys s w) : k.2.2 < 64 := by
  obtain ⟨n, played, rfl⟩ := List.mem_map.mp member
  exact (routeNotes_key_lt played).trans_le (below.1 n.division)

/-- A request that cannot be placed waits. -/
theorem walks_handOrWait {q : ReleaseRequest} (keys : KeysBelow s → ∀ k ∈ q.keys, k.2.2 < 64) :
    Walks s { (handRelease q s).1 with player := { (handRelease q s).1.player with
      releases := (handRelease q s).1.player.releases ++ [q] } } := by
  have handed : Walks s (handRelease q s).1 := walks_handRelease keys
  refine ⟨handed.still.trans (still_player _ _), handed.follow, handed.listen, handed.keyline, handed.player,
    handed.store, handed.raises, handed.notices, handed.places, handed.order, fun below => ?_⟩
  obtain ⟨counts, events, waiting⟩ := handed.keys below
  refine ⟨counts, events, fun x member => ?_⟩
  obtain old | new := List.mem_append.mp member
  · exact waiting x old
  · rw [List.mem_singleton.mp new]
    exact keys below

theorem walks_decideRelease (w : WindowStep) (t : Time) : Walks s (decideRelease w t s) := by
  have decided : Walks s { s with
      player := updateStep w.sec w.index (fun x => { x with release := some t }) s.player } := walks_player rfl rfl
  unfold decideRelease
  dsimp only
  split
  · exact decided
  · split
    · split
      · exact decided.trans (walks_handRelease fun below _ => stepKeys_lt below)
      · exact decided.trans (walks_handOrWait fun below _ => stepKeys_lt below)
    · exact decided.trans (walks_handIfFirst _ _)

end

end Sys2Proof.Proofs
end

section
/-! PROOFS. What every operation of the part keeps, said of all the invariants at once: `Keeps`, and the updates
of one block that keep them. -/

namespace Sys2Proof.Proofs

open Sys2Proof.Machine Sys2Proof.Laws Sys2Proof.Claims

theorem tablesCanonical_iff (s : State) : tablesCanonical s = true ↔
    Memory.wf s.store.pool = true ∧ s.store.slots.wf none = true ∧ s.organ.registrations.wf none = true
      ∧ s.map.keys.wf noKey = true ∧ s.leak.wf noLeak = true ∧ RaisesCanonical s.flags := by
  simp [tablesCanonical, RaisesCanonical, and_assoc]

theorem withinCapacity_iff (s : State) : withinCapacity s = true ↔
    s.link.queue.length ≤ Config.requestPlaces ∧ s.link.busy.length ≤ Config.requestPlaces
      ∧ NoticesFit s.flags ∧ s.listen.queue.length ≤ Config.onsetPlaces
      ∧ s.keys.events.length ≤ Config.schedulePlaces := by
  simp [withinCapacity, NoticesFit, and_assoc]

/-- The mask agrees, and the keys are in range: the parts of `MaskAgrees` one by one. -/
theorem maskAgrees_iff (s : State) : MaskAgrees s ↔
    (∀ c, c < 12 → (leakEntry s.leak c).held = downOfClass s c) ∧ silentWhenOff s = true
      ∧ tablesCanonical s = true ∧ keysInRange s.map = true ∧ KeysBelow s := Iff.rfl

/-- Every invariant of the part that holds of `s` holds of `t`, and the same commands wait. -/
structure Sound (s t : State) : Prop where
  pending : t.pending = s.pending
  tables : tablesCanonical s = true → tablesCanonical t = true
  divided : StoreSound s → PoolDivided t.store
  fits : withinCapacity s = true → withinCapacity t = true
  order : ScheduleInOrder s.keys → ScheduleInOrder t.keys
  bound : PlayerBound s → PlayerBound t
  reserved : ReservationOpen s → ReservationOpen t
  numbered : PlanSound s → PlanSound t
  mask : MaskAgrees s → MaskAgrees t

theorem Sound.store {s t : State} (k : Sound s t) (sound : StoreSound s) : StoreSound t :=
  ⟨k.tables sound.1, k.divided sound⟩

theorem Sound.refl (s : State) : Sound s s := ⟨rfl, id, And.right, id, id, id, id, id, id⟩

theorem Sound.trans {s t u : State} (a : Sound s t) (b : Sound t u) : Sound s u :=
  ⟨b.pending.trans a.pending, b.tables ∘ a.tables, b.divided ∘ a.store, b.fits ∘ a.fits, b.order ∘ a.order,
    b.bound ∘ a.bound, b.reserved ∘ a.reserved, b.numbered ∘ a.numbered, b.mask ∘ a.mask⟩

/-- What only requests and resets write: the line held in reset, the Console Link, the parameters, the organ, the
step pool and the free runs. -/
def requestOwned (s : State) : Bool × Link × Params × Organ × Table PoolEntry × List (Nat × Nat) :=
  (s.heldInReset, s.link, s.params, s.organ, s.store.pool, s.store.freeRuns)

/-- Every invariant of `s` holds of `t`, which has what only requests write as `s` has it. -/
structure Keeps (s t : State) : Prop extends Sound s t where
  owned : requestOwned t = requestOwned s

theorem Sound.keeps {s t : State} (k : Sound s t) (owned : requestOwned t = requestOwned s) : Keeps s t := ⟨k, owned⟩

theorem Keeps.sound {s t : State} (k : Keeps s t) : Sound s t := k.toSound

section
variable {s t : State} (k : Keeps s t)
include k

theorem Keeps.link : t.link = s.link := congrArg (fun x => x.2.1) k.owned
theorem Keeps.params : t.params = s.params := congrArg (fun x => x.2.2.1) k.owned
theorem Keeps.organ : t.organ = s.organ := congrArg (fun x => x.2.2.2.1) k.owned
theorem Keeps.held : t.heldInReset = s.heldInReset := congrArg (fun x => x.1) k.owned
theorem Keeps.pool : t.store.pool = s.store.pool := congrArg (fun x => x.2.2.2.2.1) k.owned
theorem Keeps.runs : t.store.freeRuns = s.store.freeRuns := congrArg (fun x => x.2.2.2.2.2) k.owned

end

theorem Keeps.refl (s : State) : Keeps s s := ⟨.refl s, rfl⟩

theorem Keeps.trans {s t u : State} (a : Keeps s t) (b : Keeps t u) : Keeps s u :=
  ⟨a.sound.trans b.sound, b.owned.trans a.owned⟩

/-! ### The walk of the steps -/

section
variable {s t : State} (w : Walks s t)
include w

/-- A field of the Player that the walk of the steps leaves alone. -/
theorem Walks.playerField {α : Type} (field : Player → α) (off : ∀ p, field (offWalk p) = field p) :
    field t.player = field s.player := by
  rw [← off t.player, w.player, off]

theorem Walks.state : t.player.state = s.player.state := w.playerField (·.state) fun _ => rfl
theorem Walks.sec : t.player.sec = s.player.sec := w.playerField (·.sec) fun _ => rfl
theorem Walks.slot : t.player.slot = s.player.slot := w.playerField (·.slot) fun _ => rfl
theorem Walks.plan : t.player.plan = s.player.plan := w.playerField (·.plan) fun _ => rfl
theorem Walks.registration : t.player.registration = s.player.registration :=
  w.playerField (·.registration) fun _ => rfl
theorem Walks.channels : t.player.channels = s.player.channels := w.playerField (·.channels) fun _ => rfl
theorem Walks.goLatch : t.player.goLatch = s.player.goLatch := w.playerField (·.goLatch) fun _ => rfl
theorem Walks.reservation : t.player.reservation = s.player.reservation :=
  w.playerField (·.reservation) fun _ => rfl
theorem Walks.wait : t.player.wait = s.player.wait := w.playerField (·.wait) fun _ => rfl
theorem Walks.fermata : t.player.fermata = s.player.fermata := w.playerField (·.fermata) fun _ => rfl
theorem Walks.gap : t.player.gap = s.player.gap := w.playerField (·.gap) fun _ => rfl
theorem Walks.lastOutcome : t.player.lastOutcome = s.player.lastOutcome :=
  w.playerField (·.lastOutcome) fun _ => rfl
theorem Walks.heldRelease : t.player.heldRelease = s.player.heldRelease :=
  w.playerField (·.heldRelease) fun _ => rfl

theorem Walks.tables (canonical : tablesCanonical s = true) : tablesCanonical t = true := by
  obtain ⟨pool, slots, registrations, keys, leak, raises⟩ := (tablesCanonical_iff s).mp canonical
  refine (tablesCanonical_iff t).mpr ⟨?_, (w.store.slots slots).1, ?_, ?_, ?_, w.raises raises⟩
  · rwa [w.store.pool]
  · rwa [w.still.frame.organ]
  · rwa [w.still.map]
  · rwa [w.still.frame.leak]

theorem Walks.keeps : Keeps s t where
  pending := w.still.frame.pending
  owned := by
    unfold requestOwned
    rw [w.still.frame.held, w.still.frame.link, w.still.frame.params, w.still.frame.organ, w.store.pool, w.store.runs]
  tables := w.tables
  divided := fun ⟨canonical, divided⟩ => by
    obtain ⟨-, slots, -⟩ := (tablesCanonical_iff s).mp canonical
    exact poolDivided_of_perm w.store.runs (w.store.slots slots).2 divided
  fits := fun fits => by
    obtain ⟨queue, busy, notices, onsets, places⟩ := (withinCapacity_iff s).mp fits
    refine (withinCapacity_iff t).mpr ⟨?_, ?_, w.notices notices, ?_, w.places places⟩
    · rwa [w.still.frame.link]
    · rwa [w.still.frame.link]
    · rwa [w.listen]
  order := w.order
  bound := fun bound => by
    unfold PlayerBound
    rwa [w.wait, w.state, w.fermata, w.follow]
  reserved := fun reserved => by
    unfold ReservationOpen
    rwa [w.reservation, w.plan]
  numbered := fun numbered => by
    unfold PlanSound
    rwa [w.plan]
  mask := fun mask => by
    obtain ⟨agrees, silent, canonical, range, below⟩ := (maskAgrees_iff s).mp mask
    refine (maskAgrees_iff t).mpr ⟨?_, ?_, w.tables canonical, ?_, w.keys below⟩
    · unfold downOfClass
      rwa [w.still.frame.leak, w.still.map, w.still.frame.organ]
    · unfold silentWhenOff
      rwa [w.keyline, w.still.map]
    · rwa [w.still.map]

end

/-! ### One block at a time -/

section
variable {s : State}

/-- A record of the Follower that is OFF when the one before it was. -/
theorem keeps_follow {f : Follow} (off : f.state = .OFF ↔ s.follow.state = .OFF) :
    Keeps s { s with follow := f } where
  tables := id
  divided := And.right
  pending := rfl
  owned := rfl
  fits := id
  order := id
  bound := fun ⟨wait, fermata, follow⟩ => ⟨wait, fermata, follow.trans off.symm⟩
  reserved := id
  numbered := id
  mask := id

/-- A record of the Player whose bonds hold, and whose waiting releases are among those before. -/
theorem keeps_player {p : Player} (bound : PlayerBound s → PlayerBound { s with player := p })
    (reserved : ReservationOpen s → ReservationOpen { s with player := p })
    (numbered : PlanSound s → PlanSound { s with player := p })
    (releases : ∀ q ∈ p.releases, q ∈ s.player.releases) : Keeps s { s with player := p } where
  tables := id
  divided := And.right
  pending := rfl
  owned := rfl
  fits := id
  order := id
  bound := bound
  reserved := reserved
  numbered := numbered
  mask := fun ⟨agrees, silent, canonical, range, counts, events, waiting⟩ =>
    ⟨agrees, silent, canonical, range, counts, events, fun q member => waiting q (releases q member)⟩

/-- A Player that keeps its plan, its reservation and its waiting releases. -/
theorem keeps_playerState {p : Player} (bound : PlayerBound s → PlayerBound { s with player := p })
    (plan : p.plan = s.player.plan) (reservation : p.reservation = s.player.reservation)
    (releases : p.releases = s.player.releases) : Keeps s { s with player := p } := by
  refine keeps_player bound (fun reserved v held => ?_) (fun numbered pl stands => ?_) fun q member => ?_
  · obtain ⟨pl, stands, found⟩ := reserved v (reservation ▸ held)
    exact ⟨pl, plan.trans stands, found⟩
  · exact numbered pl (plan.symm.trans stands)
  · exact releases ▸ member

/-- A Player that keeps its state and its wait and fermata records, and its waiting releases. -/
theorem keeps_playerPlan {p : Player} (state : p.state = s.player.state) (wait : p.wait = s.player.wait)
    (fermata : p.fermata = s.player.fermata)
    (reserved : ReservationOpen s → ReservationOpen { s with player := p })
    (numbered : PlanSound s → PlanSound { s with player := p })
    (releases : p.releases = s.player.releases) : Keeps s { s with player := p } := by
  refine keeps_player (fun ⟨bounds, holds, off⟩ => ⟨?_, ?_, ?_⟩) reserved numbered fun q member => ?_
  · exact fun w stands => state.trans (bounds w (wait.symm.trans stands))
  · intro f stands
    obtain ⟨inFermata, cued⟩ := holds f (fermata.symm.trans stands)
    exact ⟨state.trans inFermata, fun waits => cued (wait ▸ waits)⟩
  · exact state ▸ off
  · exact releases ▸ member

/-- Nothing that an invariant speaks of is changed in the Player. -/
theorem keeps_playerRest {p : Player} (state : p.state = s.player.state) (wait : p.wait = s.player.wait)
    (fermata : p.fermata = s.player.fermata) (plan : p.plan = s.player.plan)
    (reservation : p.reservation = s.player.reservation) (releases : p.releases = s.player.releases) :
    Keeps s { s with player := p } := by
  refine keeps_playerPlan state wait fermata (fun reserved v held => ?_) (fun numbered pl stands => ?_) releases
  · obtain ⟨pl, stands, found⟩ := reserved v (reservation ▸ held)
    exact ⟨pl, plan.trans stands, found⟩
  · exact numbered pl (plan.symm.trans stands)

theorem keeps_listen {l : Listen}
    (queue : s.listen.queue.length ≤ Config.onsetPlaces → l.queue.length ≤ Config.onsetPlaces) :
    Keeps s { s with listen := l } where
  tables := id
  divided := And.right
  pending := rfl
  owned := rfl
  fits := fun fits => by
    obtain ⟨queued, busy, notices, onsets, places⟩ := (withinCapacity_iff s).mp fits
    exact (withinCapacity_iff _).mpr ⟨queued, busy, notices, queue onsets, places⟩
  order := id
  bound := id
  reserved := id
  numbered := id
  mask := id

/-- A Keyline that is OFF only where no key is down. -/
theorem keeps_keyline {k : Keyline} (off : MaskAgrees s → k.state = .OFF → anyDown s.map = false) :
    Keeps s { s with keyline := k } where
  tables := id
  divided := And.right
  pending := rfl
  owned := rfl
  fits := id
  order := id
  bound := id
  reserved := id
  numbered := id
  mask := fun mask => by
    refine ⟨mask.1, ?_, mask.2.2⟩
    by_cases stopped : k.state = .OFF
    · simp [silentWhenOff, stopped, off mask stopped]
    · simp [silentWhenOff, stopped]

theorem not_anyDown_of_off (mask : MaskAgrees s) (off : s.keyline.state = .OFF) : anyDown s.map = false := by
  have silent := mask.2.1
  simpa [silentWhenOff, off] using silent

/-- A Keyline that is OFF only if it was OFF before. -/
theorem keeps_keylineOn {k : Keyline} (off : k.state = .OFF → s.keyline.state = .OFF) :
    Keeps s { s with keyline := k } :=
  keeps_keyline fun mask stopped => not_anyDown_of_off mask (off stopped)

theorem sound_params (p : Params) : Sound s { s with params := p } := ⟨rfl, id, And.right, id, id, id, id, id, id⟩

theorem keeps_flags {f : Flags} (raises : RaisesCanonical s.flags → RaisesCanonical f)
    (notices : NoticesFit s.flags → NoticesFit f) : Keeps s { s with flags := f } :=
  Walks.keeps ⟨⟨⟨rfl, rfl, rfl, rfl, rfl, rfl, rfl⟩, rfl, rfl, rfl⟩, rfl, rfl, rfl, rfl, .refl _, raises, notices,
    id, id, id⟩

theorem keeps_raise (k : Kind) : Keeps s (raise k s) := (walks_raise k).keeps

theorem sound_link {l : Link} (queue : s.link.queue.length ≤ Config.requestPlaces → l.queue.length ≤ Config.requestPlaces)
    (busy : s.link.busy.length ≤ Config.requestPlaces → l.busy.length ≤ Config.requestPlaces) :
    Sound s { s with link := l } where
  tables := id
  divided := And.right
  pending := rfl
  fits := fun fits => by
    obtain ⟨queued, waiting, rest⟩ := (withinCapacity_iff s).mp fits
    exact (withinCapacity_iff _).mpr ⟨queue queued, busy waiting, rest⟩
  order := id
  bound := id
  reserved := id
  numbered := id
  mask := id

theorem keeps_now (t : Time) : Keeps s { s with now := t } := ⟨⟨rfl, id, And.right, id, id, id, id, id, id⟩, rfl⟩

theorem sound_store {st : Store} (pool : Memory.wf s.store.pool = true → Memory.wf st.pool = true)
    (slots : s.store.slots.wf none = true → st.slots.wf none = true)
    (divided : s.store.slots.wf none = true → PoolDivided s.store → PoolDivided st) :
    Sound s { s with store := st } := by
  have tables (canonical : tablesCanonical s = true) : tablesCanonical { s with store := st } = true := by
    obtain ⟨poolCanonical, slotsCanonical, rest⟩ := (tablesCanonical_iff s).mp canonical
    exact (tablesCanonical_iff _).mpr ⟨pool poolCanonical, slots slotsCanonical, rest⟩
  refine ⟨rfl, tables, fun sound => ?_, id, id, id, id, id, fun mask => ?_⟩
  · obtain ⟨-, slotsCanonical, -⟩ := (tablesCanonical_iff s).mp sound.1
    exact divided slotsCanonical sound.2
  · obtain ⟨agrees, silent, canonical, range, below⟩ := mask
    exact ⟨agrees, silent, tables canonical, range, below⟩

theorem keeps_sameTunes {st : Store} (same : SameTunes s.store st) : Keeps s { s with store := st } :=
  (walks_store same).keeps

end

/-! ### The Onset Queue (R54 to R57) -/

section
variable {s : State}

theorem keeps_judgeBacklog : Keeps s (judgeBacklog s) := by
  unfold judgeBacklog
  dsimp only
  split
  · refine Keeps.trans ?_ (keeps_raise _)
    exact keeps_listen id
  · split
    · exact keeps_listen id
    · exact .refl s

theorem keeps_setOnsets {q : List Onset}
    (queue : s.listen.queue.length ≤ Config.onsetPlaces → q.length ≤ Config.onsetPlaces) :
    Keeps s (setOnsets q s) :=
  (keeps_listen queue).trans keeps_judgeBacklog

theorem keeps_emptyOnsets : Keeps s (emptyOnsets s) := keeps_setOnsets fun _ => Nat.zero_le _

theorem keeps_joinOnset (o : Onset) : Keeps s (joinOnset o s) := by
  unfold joinOnset
  split
  · rename_i room
    refine keeps_setOnsets fun _ => ?_
    simp only [List.length_append, List.length_singleton]
    omega
  · split
    · exact keeps_setOnsets fun _ => Nat.le_of_ble_eq_true rfl
    · rename_i old rest content
      refine (keeps_raise _).trans (keeps_setOnsets fun fits => ?_)
      simp only [raise_listen, content, List.length_cons] at fits
      simpa using fits

end

end Sys2Proof.Proofs
end

section
/-! PROOFS. What the end of a hymn and the Beat Follower keep (R69 to R83, R103, R112, R113). -/

namespace Sys2Proof.Proofs

open Sys2Proof.Machine Sys2Proof.Laws Sys2Proof.Claims

/-! ### Player updates behind others -/

section
variable {r s : State}

/-- A record of the Player and one of the Follower whose bonds hold together. -/
theorem Keeps.followPlayer (k : Keeps r s) {f : Follow} {p : Player}
    (bound : PlayerBound r → PlayerBound s → PlayerBound { s with follow := f, player := p })
    (reserved : ReservationOpen s → ReservationOpen { s with player := p })
    (numbered : PlanSound s → PlanSound { s with player := p })
    (releases : ∀ q ∈ p.releases, q ∈ s.player.releases) : Keeps r { s with follow := f, player := p } where
  pending := k.pending
  owned := k.owned
  tables := k.tables
  divided := k.divided
  fits := k.fits
  order := k.order
  bound := fun holds => bound holds (k.bound holds)
  reserved := reserved ∘ k.reserved
  numbered := numbered ∘ k.numbered
  mask := fun mask => by
    obtain ⟨agrees, silent, canonical, range, counts, events, waiting⟩ := k.mask mask
    exact ⟨agrees, silent, canonical, range, counts, events, fun q member => waiting q (releases q member)⟩

/-- A Player that keeps its plan, its reservation and its waiting releases. -/
theorem Keeps.playerState (k : Keeps r s) {p : Player}
    (bound : PlayerBound r → PlayerBound s → PlayerBound { s with player := p })
    (plan : p.plan = s.player.plan) (reservation : p.reservation = s.player.reservation)
    (releases : p.releases = s.player.releases) : Keeps r { s with player := p } := by
  refine k.followPlayer (f := s.follow) bound (fun reserved v held => ?_) (fun numbered pl stands => ?_)
    fun q member => releases ▸ member
  · obtain ⟨pl, stands, found⟩ := reserved v (reservation ▸ held)
    exact ⟨pl, plan.trans stands, found⟩
  · exact numbered pl (plan.symm.trans stands)

theorem planSound_of_eq {p : Player} (plan : p.plan = s.player.plan) (numbered : PlanSound s) :
    PlanSound { s with player := p } :=
  fun pl stands => numbered pl (plan.symm.trans stands)

theorem reservationOpen_of_not_held {p : Player} (free : ∀ v, p.reservation ≠ .HELD v) :
    ReservationOpen { s with player := p } :=
  fun v held => absurd held (free v)

/-- A silent Player, IDLE or STOPPING, beside a Follower that is OFF. -/
theorem Keeps.silenced (k : Keeps r s) {f : Follow} {p : Player} (off : f.state = .OFF)
    (state : p.state = .IDLE ∨ p.state = .STOPPING) (wait : p.wait = none) (fermata : p.fermata = none)
    (free : p.reservation = .NONE) (plan : p.plan = s.player.plan) (releases : p.releases = []) :
    Keeps r { s with follow := f, player := p } := by
  refine k.followPlayer (fun _ _ => ⟨?_, ?_, ?_⟩) (fun _ => reservationOpen_of_not_held fun v held => ?_)
    (planSound_of_eq plan) fun q member => ?_
  · exact fun w stands => absurd (wait.symm.trans stands) nofun
  · exact fun x stands => absurd (fermata.symm.trans stands) nofun
  · exact ⟨fun _ => off, fun _ => state⟩
  · exact absurd (free.symm.trans held) nofun
  · simp [releases] at member

end

section
variable {s : State}

/-! ### The return to IDLE and the ways a hymn is stopped (R103, R112, R113, R131) -/

theorem keeps_becomeIdle : Keeps s (becomeIdle s) := by
  unfold becomeIdle
  refine Keeps.trans ?_ keeps_emptyOnsets
  refine Keeps.trans ?_ (keeps_raise _)
  have slotReady : Keeps s { s with store := setSlotState (s.player.slot.getD 0) .READY s.store } :=
    keeps_sameTunes (sameTunes_setSlotState _ _ _)
  have unwatched := slotReady.trans (keeps_keylineOn (k := { s.keyline with watch := none }) id)
  exact unwatched.silenced rfl (.inl rfl) rfl rfl rfl rfl rfl

theorem keeps_idleIfDone : Keeps s (idleIfDone s) := by
  unfold idleIfDone
  split
  · exact keeps_becomeIdle
  · exact .refl s

/-- Events cancelled, and the rest put in order again (R129 to R131). -/
theorem walks_cancelled {keep : KeyEvent → Bool} :
    Walks s { s with keys := inOrder { s.keys with events := s.keys.events.filter keep } } := by
  refine walks_keys (fun fits => ?_) (fun order => ?_) fun below e member => ?_
  · exact ((length_orderSchedule _).trans_le (List.length_filter_le _ _)).trans fits
  · exact scheduleInOrder_inOrder fun e member => order.2 e (List.mem_filter.mp member).1
  · exact below.2.1 e (List.mem_filter.mp (mem_orderSchedule.mp member)).1

theorem scheduleInOrder_nil (b : Time) (n : BitVec 32) : ScheduleInOrder ⟨[], b, n⟩ :=
  scheduleInOrder_orderSchedule (l := []) fun _ member => absurd member List.not_mem_nil

theorem walks_cancelAll : Walks s { s with keys := cancelAll s.keys } := by
  have fits : (cancelAll s.keys).events.length ≤ Config.schedulePlaces := Nat.zero_le _
  have none : ∀ e ∈ (cancelAll s.keys).events, e.key < 64 := fun _ member => absurd member List.not_mem_nil
  exact walks_keys (fun _ => fits) (fun _ => scheduleInOrder_nil _ _) fun _ => none

theorem keeps_stopNow : Keeps s (stopNow s) := by
  let released := releaseHeld (s.player.sec.getD 0) { s with keys := cancelAll s.keys }
  have first : Keeps s released := (walks_cancelAll.trans (walks_releaseHeld _)).keeps
  have unwatched := first.trans (keeps_keylineOn (k := { released.keyline with watch := none }) id)
  refine Keeps.trans ?_ keeps_emptyOnsets
  exact unwatched.silenced rfl (.inr rfl) rfl rfl rfl rfl rfl

theorem beforeAmen_iff (p : Player) :
    beforeAmen p = true ↔ p.state = .GAP ∧ ∃ g, p.gap = some g ∧ g.next = Config.amenSection := by
  unfold beforeAmen
  cases p.gap <;> simp

/-- In a gap no fermata record stands, and the Follower is not OFF (R84, R87). -/
theorem dropAmen_bound (gap : s.player.state = .GAP) {p : Player} (state : p.state = .ENDING)
    (wait : p.wait = none) (fermata : p.fermata = s.player.fermata) (bound : PlayerBound s) :
    PlayerBound { s with player := p } := by
  obtain ⟨-, holds, off⟩ := bound
  refine ⟨fun w stands => ?_, fun f stands => ?_, ?_⟩
  · exact absurd (wait.symm.trans stands) nofun
  · have inFermata := (holds f (fermata.symm.trans stands)).1
    simp [gap] at inFermata
  · simp only [gap] at off
    simpa [state] using off

theorem keeps_dropAmen (gap : s.player.state = .GAP) : Keeps s (dropAmen s) := by
  unfold dropAmen
  refine Keeps.trans ?_ walks_placesFreed.keeps
  refine (Keeps.playerState (walks_cancelled (s := s) (keep := fun e => e.sec != Config.amenSection)).keeps
    (fun _ bound => ?_) ?_ ?_ ?_)
  · exact dropAmen_bound (s := { s with keys := _ }) gap rfl rfl rfl bound
  all_goals rfl

/-- Cutting a numbered plan leaves it numbered (R112). -/
theorem planNumbered_filter {pl : Plan} {n : Nat} {amen : Bool} (numbered : PlanNumbered pl) :
    PlanNumbered { pl with entries := pl.entries.filter (fun e => decide (e.verse ≤ n)), amen := amen } := by
  obtain ⟨verses, atMost⟩ := numbered
  have cut : (pl.entries.filter (fun e => decide (e.verse ≤ n))).map (·.verse)
      = (List.range (min pl.entries.length n)).map (· + 1) := by
    have mapped : (pl.entries.filter (fun e => decide (e.verse ≤ n))).map (·.verse)
        = (pl.entries.map (·.verse)).filter (fun v => decide (v ≤ n)) := by
      rw [List.filter_map]
      rfl
    rw [mapped, verses]
    generalize pl.entries.length = count
    induction count with
    | zero => simp
    | succ m ih =>
      simp only [List.range_succ, List.map_append, List.filter_append, ih, List.map_cons, List.map_nil]
      by_cases within : m + 1 ≤ n
      · rw [Nat.min_eq_left within, Nat.min_eq_left (Nat.le_of_succ_le within), List.range_succ]
        simp [within]
      · rw [Nat.min_eq_right (by omega), Nat.min_eq_right (by omega)]
        simp [within]
  have length := congrArg List.length cut
  simp only [List.length_map, List.length_range] at length
  refine ⟨?_, ?_⟩
  · show List.map _ _ = _
    rw [cut, length]
  · exact (List.length_filter_le _ _).trans atMost

theorem keeps_endOfVerse {drop : Bool} {t : State} (ends : endOfVerse drop s = some t) : Keeps s t := by
  have unlatched : Keeps s { s with player := { s.player with goLatch := false, reservation := .NONE } } :=
    keeps_playerPlan rfl rfl rfl (fun _ => reservationOpen_of_not_held nofun) (planSound_of_eq rfl) rfl
  have cut : Keeps s { s with player := { s.player with
      goLatch := false, reservation := .NONE, plan := s.player.plan.map (cutPlan drop) } } := by
    refine keeps_playerPlan rfl rfl rfl (fun _ => reservationOpen_of_not_held nofun) (fun numbered pl stands => ?_) rfl
    obtain ⟨whole, found, rfl⟩ := Option.map_eq_some_iff.mp stands
    exact planNumbered_filter (numbered whole found)
  unfold endOfVerse at ends
  dsimp only at ends
  split at ends
  · split at ends
    · cases ends
    · cases ends
      exact unlatched
  · split at ends
    · cases ends
      exact unlatched
    · split at ends
      · rename_i before
        split at ends
        · cases ends
          exact (cut.trans (keeps_dropAmen ((beforeAmen_iff _).mp before).1)).trans keeps_idleIfDone
        · cases ends
          exact unlatched
      · cases ends
        exact cut

theorem keeps_finishVerse : Keeps s (finishVerse s) := by
  unfold finishVerse
  split
  · exact .refl s
  · cases ends : endOfVerse true s with
    | none => exact .refl s
    | some t => exact keeps_endOfVerse ends

end

/-! ### What the Follower's looking leaves of the Player (R81, R112) -/

/-- The Player but for what the walk of the steps and an END_OF_VERSE write. -/
def offFinish (p : Player) : Player :=
  { offWalk p with plan := none, goLatch := false, reservation := .NONE }

/-- What the Follower's events keep; and unless the Player stands in the gap before the Amen, where a lost choir
may end the walk, they leave its state and records. -/
structure Looks (s t : State) : Prop where
  keeps : Keeps s t
  stands : beforeAmen s.player = false → offFinish t.player = offFinish s.player

theorem beforeAmen_of_offFinish {p q : Player} (same : offFinish q = offFinish p) : beforeAmen q = beforeAmen p := by
  show beforeAmen (offFinish q) = beforeAmen (offFinish p)
  rw [same]

theorem Looks.refl (s : State) : Looks s s := ⟨.refl s, fun _ => rfl⟩

theorem Looks.trans {s t u : State} (a : Looks s t) (b : Looks t u) : Looks s u :=
  ⟨a.keeps.trans b.keeps, fun elsewhere => by
    have first := a.stands elsewhere
    exact (b.stands ((beforeAmen_of_offFinish first).trans elsewhere)).trans first⟩

theorem Walks.looks {s t : State} (w : Walks s t) : Looks s t := by
  refine ⟨w.keeps, fun _ => ?_⟩
  have player := w.player
  show { offWalk t.player with plan := none, goLatch := false, reservation := .NONE } = _
  rw [player]
  rfl

theorem Keeps.looks {s t : State} (k : Keeps s t) (player : t.player = s.player) : Looks s t :=
  ⟨k, fun _ => by rw [player]⟩

section
variable {s : State}

theorem looks_follow {f : Follow} (off : f.state = .OFF ↔ s.follow.state = .OFF) : Looks s { s with follow := f } :=
  (keeps_follow off).looks rfl

/-- Of the Player only what the walk of the steps writes is changed, and no waiting release. -/
theorem looks_player {p : Player} (same : offWalk p = offWalk s.player)
    (releases : p.releases = s.player.releases) : Looks s { s with player := p } :=
  (walks_player same releases).looks

theorem looks_raise (k : Kind) : Looks s (raise k s) := (walks_raise k).looks

@[simp] theorem judgeBacklog_player : (judgeBacklog s).player = s.player := by
  unfold judgeBacklog
  dsimp only
  split
  · rfl
  · split <;> rfl

@[simp] theorem setOnsets_player (q : List Onset) : (setOnsets q s).player = s.player := judgeBacklog_player

/-! ### The Follower's events (R64 to R83) -/

theorem looks_seek : ∀ (n : Nat) (s : State), Looks s (seek n s)
  | 0, s => .refl s
  | n + 1, s => by
    unfold seek
    split
    · exact .refl s
    · split
      · exact .refl s
      · dsimp only
        split
        · refine Looks.trans ?_ (looks_seek n _)
          exact looks_follow .rfl
        · exact looks_follow .rfl

theorem looks_seekWindow : Looks s (seekWindow s) := looks_seek _ s

theorem looks_recompute : Looks s (recompute s) := by
  unfold recompute
  split
  · exact .refl s
  · split
    · exact .refl s
    · split
      · exact looks_follow .rfl
      · refine Looks.trans ?_ looks_seekWindow
        exact looks_follow .rfl

theorem looks_lookForWindow (again : Bool) : Looks s (lookForWindow again s).1 := by
  unfold lookForWindow
  split
  · exact looks_seekWindow
  · split
    · exact looks_recompute
    · exact .refl s

theorem offFinish_of_endOfVerse {t : State} (elsewhere : beforeAmen s.player = false)
    (ends : endOfVerse true s = some t) : offFinish t.player = offFinish s.player := by
  simp only [endOfVerse, elsewhere] at ends
  split at ends
  · cases ends
  · split at ends
    · cases ends
      rfl
    · cases ends
      rfl

theorem looks_finishVerse : Looks s (finishVerse s) := by
  refine ⟨keeps_finishVerse, fun elsewhere => ?_⟩
  unfold finishVerse
  split
  · rfl
  · cases ends : endOfVerse true s with
    | none => rfl
    | some t => exact offFinish_of_endOfVerse elsewhere ends

theorem looks_loseChoir : Looks s (loseChoir s) := by
  have lost : Looks s (raise (.choirLost s.follow.lastMatch s.follow.anchor)
      { s with follow := { s.follow with lost := true } }) := by
    refine Looks.trans ?_ (looks_raise _)
    exact looks_follow .rfl
  unfold loseChoir
  dsimp only
  split
  · exact lost.trans looks_finishVerse
  · exact lost

theorem looks_checkLost : Looks s (checkLost s) := by
  unfold checkLost
  split
  · exact looks_loseChoir
  · exact .refl s

theorem walks_decisionFlags (m : MatchWindow) (hit : Option Onset) (c : Correction) (found : Bool) :
    Walks s (decisionFlags m hit c found s) := by
  unfold decisionFlags
  dsimp only
  have limited : Walks s (match c.bound with
      | some upper => raise (.tempoLimit upper c.follow.period m.point) s
      | none => s) := by
    split
    · exact walks_raise _
    · exact .refl s
  split
  · split
    · exact limited.trans (walks_raise _)
    · exact limited
  · exact limited

/-- R77: a decision leaves OFF and enters it from no other state. -/
theorem followAfterDecision_off (m : MatchWindow) :
    (followAfterDecision s m).1.state = .OFF ↔ s.follow.state = .OFF := by
  have counted := countedFollow_state s m
  rw [followAfterDecision_state, followStateAfter, counted]
  cases s.follow.state
  · simp
  all_goals
    dsimp only
    split <;> simp

theorem looks_decideWindow (m : MatchWindow) : Looks s (decideWindow m s).1 := by
  unfold decideWindow
  refine Looks.trans ?_ looks_checkLost
  refine Looks.trans ?_ (walks_decisionFlags _ _ _ _).looks
  refine Looks.trans (looks_follow (followAfterDecision_off m)) ?_
  exact (keeps_setOnsets fun fits => (List.length_filter_le _ _).trans fits).looks (setOnsets_player _)

theorem looks_progress : ∀ (n : Nat) (s : State), Looks s (progress n s)
  | 0, s => .refl s
  | n + 1, s => by
    have looked := (walks_admitSteps Config.cascadeBound s).looks.trans
      (looks_lookForWindow (admitSteps Config.cascadeBound s).2)
    unfold progress
    dsimp only
    split
    · refine Looks.trans ?_ (looks_progress n _)
      split
      · exact (looked.trans (looks_decideWindow _)).trans walks_retime.looks
      · exact looked.trans (looks_decideWindow _)
    · exact looked.trans walks_leaveWindow.looks

theorem looks_settle : Looks s (settle s) := looks_progress _ s

theorem looks_makeKnown : Looks s (makeKnown s) := walks_retime.looks.trans looks_settle

theorem looks_takeDecision (m : MatchWindow) : Looks s (takeDecision m s) := by
  unfold takeDecision
  dsimp only
  split
  · exact (looks_decideWindow m).trans looks_makeKnown
  · exact (looks_decideWindow m).trans looks_settle

theorem looks_rebase (t : Time) (p : HymnPos) : Looks s (rebase t p s) := by
  unfold rebase
  split
  · exact .refl s
  · refine Looks.trans ?_ walks_retime.looks
    exact looks_follow .rfl

end

end Sys2Proof.Proofs
end

section
/-! PROOFS. What the Verse Plan and the walking of the hymn keep (R91 to R112). -/

namespace Sys2Proof.Proofs

open Sys2Proof.Machine Sys2Proof.Laws Sys2Proof.Claims

variable {r s : State}

/-! ### Latching and passing over (R91, R92) -/

/-- Entries changed but for their verses leave a plan numbered. -/
theorem planSound_setEntries {f : PlanEntry → PlanEntry} (verse : ∀ e, (f e).verse = e.verse)
    (numbered : PlanSound s) : PlanSound { s with player := setEntries f s.player } := by
  intro pl stands
  obtain ⟨whole, found, rfl⟩ := Option.map_eq_some_iff.mp stands
  obtain ⟨verses, atMost⟩ := numbered whole found
  refine ⟨?_, by simpa using atMost⟩
  simp only [List.map_map, List.length_map]
  rw [← verses]
  exact List.map_congr_left fun e _ => verse e

/-- Entries of verse `v` marked and a reservation that names `v` lost: a reservation that is still HELD names an
entry that has not been touched (R91, R92). -/
theorem keeps_markVerse {v : Nat} {f : PlanEntry → PlanEntry} (verse : ∀ e, (f e).verse = e.verse)
    (others : ∀ e, e.verse ≠ v → f e = e) :
    Keeps s (loseReservation v { s with player := setEntries f s.player }) := by
  have untouched (u : Nat) (other : u ≠ v) (reserved : ReservationOpen s) (held : s.player.reservation = .HELD u) :
      ∃ pl, (setEntries f s.player).plan = some pl ∧ ∃ e ∈ pl.entries, e.verse = u ∧ e.latched = false := by
    obtain ⟨pl, stands, e, member, named, unlatched⟩ := reserved u held
    refine ⟨{ pl with entries := pl.entries.map f }, by simp [setEntries, stands], f e,
      List.mem_map_of_mem member, (verse e).trans named, ?_⟩
    rw [others e (named ▸ other)]
    exact unlatched
  unfold loseReservation
  split
  · rename_i u held
    split
    · refine Keeps.trans ?_ (keeps_raise _)
      exact keeps_playerPlan rfl rfl rfl (fun _ => reservationOpen_of_not_held nofun)
        (fun numbered => planSound_setEntries verse numbered) rfl
    · rename_i other
      refine keeps_playerPlan rfl rfl rfl (fun reserved w heldW => ?_) (planSound_setEntries verse) rfl
      have same : u = w := Reservation.HELD.inj (held.symm.trans heldW)
      subst same
      exact untouched u other reserved held
  · rename_i free
    exact keeps_playerPlan rfl rfl rfl (fun _ => reservationOpen_of_not_held free) (planSound_setEntries verse) rfl

theorem keeps_passOver (v : Nat) : Keeps s (passOver v s) :=
  keeps_markVerse (fun e => by split <;> rfl) fun e other => if_neg other

theorem keeps_passOvers (vs : List Nat) (s : State) : Keeps s (vs.foldl (fun acc x => passOver x acc) s) := by
  induction vs generalizing s with
  | nil => exact .refl s
  | cons v rest ih => exact (keeps_passOver v).trans (ih _)

theorem keeps_passOverBelow (v : Nat) : Keeps s (passOverBelow v s) := by
  unfold passOverBelow
  split
  · exact keeps_passOvers _ s
  · exact .refl s

theorem keeps_presentRegistration (sec : Nat) (g : Registration) : Keeps s (presentRegistration sec g s) :=
  keeps_keylineOn id

theorem keeps_latch (sec v : Nat) : Keeps s (latch sec v s) := by
  unfold latch
  split
  · exact .refl s
  · dsimp only
    split
    · refine Keeps.trans ?_ (keeps_markVerse (fun e => by split <;> rfl) fun e other => if_neg other)
      refine Keeps.trans ?_ (keeps_presentRegistration _ _)
      exact keeps_playerRest rfl rfl rfl rfl rfl rfl
    · exact keeps_markVerse (fun e => by split <;> rfl) fun e other => if_neg other

theorem keeps_fixSection (sec : Nat) : Keeps s (fixSection sec s) := by
  unfold fixSection
  dsimp only
  split
  · split
    · exact keeps_passOverBelow sec
    · exact (keeps_passOverBelow sec).trans (keeps_latch sec sec)
  · exact keeps_passOverBelow sec

/-- The Player but for what a latch and a passing over write. -/
def offLatch (p : Player) : Player :=
  { p with plan := none, registration := none, channels := playerAfterReset.channels, reservation := .NONE }

theorem offLatch_loseReservation (v : Nat) : offLatch (loseReservation v s).player = offLatch s.player := by
  unfold loseReservation
  split
  · split <;> rfl
  · rfl

theorem offLatch_passOvers : ∀ (vs : List Nat) (s : State),
    offLatch (vs.foldl (fun acc x => passOver x acc) s).player = offLatch s.player
  | [], _ => rfl
  | v :: rest, s => (offLatch_passOvers rest (passOver v s)).trans (offLatch_loseReservation v)

theorem offLatch_passOverBelow (v : Nat) : offLatch (passOverBelow v s).player = offLatch s.player := by
  unfold passOverBelow
  split
  · exact offLatch_passOvers _ s
  · rfl

theorem offLatch_latch (sec v : Nat) : offLatch (latch sec v s).player = offLatch s.player := by
  unfold latch
  split
  · rfl
  · dsimp only
    rw [offLatch_loseReservation]
    split <;> rfl

theorem offLatch_fixSection (sec : Nat) : offLatch (fixSection sec s).player = offLatch s.player := by
  unfold fixSection
  dsimp only
  split
  · split
    · exact offLatch_passOverBelow sec
    · exact (offLatch_latch sec sec).trans (offLatch_passOverBelow sec)
  · exact offLatch_passOverBelow sec

theorem state_of_offLatch {p q : Player} (same : offLatch q = offLatch p) : q.state = p.state := by
  show (offLatch q).state = (offLatch p).state
  rw [same]

/-! ### States and waits (R84, R87, R100, R107) -/

/-- In any state but FERMATA no fermata record stands. -/
theorem fermata_eq_none (bound : PlayerBound s) (state : s.player.state ≠ .FERMATA) : s.player.fermata = none := by
  cases held : s.player.fermata with
  | none => rfl
  | some f => exact absurd (bound.2.1 f held).1 state

/-- A Player in a state with no wait and no fermata, the Follower on. -/
theorem playerBound_plain {p : Player} (bound : PlayerBound s) (wait : p.wait = none) (fermata : p.fermata = none)
    (on : s.player.state ≠ .IDLE ∧ s.player.state ≠ .STOPPING) (state : p.state ≠ .IDLE ∧ p.state ≠ .STOPPING) :
    PlayerBound { s with player := p } := by
  refine ⟨fun w stands => ?_, fun f stands => ?_, ?_⟩
  · exact absurd (wait.symm.trans stands) nofun
  · exact absurd (fermata.symm.trans stands) nofun
  · have off := bound.2.2
    simp only [on.1, on.2, or_self, false_iff] at off
    show p.state = .IDLE ∨ p.state = .STOPPING ↔ s.follow.state = .OFF
    simp only [state.1, state.2, off, or_self]

theorem sectionState_on (sec : Nat) : sectionState sec ≠ .IDLE ∧ sectionState sec ≠ .STOPPING := by
  unfold sectionState
  split
  · exact ⟨nofun, nofun⟩
  · split <;> exact ⟨nofun, nofun⟩

/-- A cued wait of kind `k` may stand in the state, beside no fermata but a CUED one. -/
def MayWait (k : WaitKind) (s : State) : Prop :=
  s.player.state = waitState k ∧ ∀ f, s.player.fermata = some f → f.kind = .CUED

theorem mayWait_of_wait (bound : PlayerBound s) {w : Wait} (waits : s.player.wait = some w) : MayWait w.kind s :=
  ⟨bound.1 w waits, fun f held => (bound.2.1 f held).2 (by simp [waits])⟩

/-- The wait record written where one of its kind may stand. -/
theorem playerBound_wait {p : Player} {w : Wait} (bound : PlayerBound s) (may : MayWait w.kind s)
    (state : p.state = s.player.state) (wait : p.wait = some w) (fermata : p.fermata = s.player.fermata) :
    PlayerBound { s with player := p } := by
  refine ⟨fun x stands => ?_, fun f stands => ?_, state ▸ bound.2.2⟩
  · obtain rfl := Option.some.inj (wait.symm.trans stands)
    exact state.trans may.1
  · have held := fermata.symm.trans stands
    exact ⟨state.trans (bound.2.1 f held).1, fun _ => may.2 f held⟩

theorem waitIn_eq_some_iff {p : Player} {x : WaitPhase} {w : Wait} :
    waitIn p x = some w ↔ p.wait = some w ∧ w.phase = x := by
  unfold waitIn
  cases p.wait with
  | none => simp
  | some v =>
    simp only [Option.ite_none_right_eq_some, Option.some.injEq]
    constructor
    · rintro ⟨phase, rfl⟩
      exact ⟨rfl, phase⟩
    · rintro ⟨rfl, phase⟩
      exact ⟨phase, rfl⟩

theorem looks_liftAndRebase (t : Time) (p : HymnPos) : Looks s (liftAndRebase t p s) := by
  refine Looks.trans ?_ (looks_rebase t p)
  exact looks_player rfl rfl

/-- The resume of a wait, asked where it may stand. -/
theorem Keeps.resumeWait (k : Keeps r s) {w : Wait} (t : Time) (byOnset : Bool)
    (may : PlayerBound r → PlayerBound s → MayWait w.kind s) : Keeps r (resumeWait w t byOnset s) := by
  let breathing : Wait := { w with phase := .BREATH, breathEnd := t, began := s.now, byOnset := byOnset }
  have begun : Keeps r { s with player := { s.player with wait := some breathing } } :=
    k.playerState (fun outer bound => playerBound_wait (w := breathing) bound (may outer bound) rfl rfl rfl)
      rfl rfl rfl
  have lifted := begun.trans (looks_liftAndRebase t w.resume).keeps
  unfold Machine.resumeWait
  dsimp only
  split
  · exact lifted.trans looks_settle.keeps
  · exact (lifted.trans (walks_beginWalk _).keeps).trans looks_settle.keeps

theorem Keeps.voidWait (k : Keeps r s) {w : Wait} (may : PlayerBound r → PlayerBound s → MayWait w.kind s) :
    Keeps r (voidWait w s) := by
  have voided : Keeps s (raise (.wait .void w.kind w.resume)
      { s with player := { s.player with goLatch := false, lastOutcome := some .void } }) := by
    refine Keeps.trans ?_ (keeps_raise _)
    exact keeps_playerRest rfl rfl rfl rfl rfl rfl
  have bonds : PlayerBound (raise (.wait .void w.kind w.resume)
      { s with player := { s.player with goLatch := false, lastOutcome := some .void } }) → PlayerBound s := id
  exact (k.trans voided).resumeWait _ _ fun outer bound => may outer (bonds bound)

theorem Keeps.enterWaiting (k : Keeps r s) {w : Wait} (may : PlayerBound r → PlayerBound s → MayWait w.kind s) :
    Keeps r (enterWaiting w s) := by
  refine Keeps.trans ?_ (keeps_raise _)
  exact k.playerState (fun outer bound => playerBound_wait (w := { w with phase := .WAITING, start := s.now })
    bound (may outer bound) rfl rfl rfl) rfl rfl rfl

/-- In FERMATA the release at the minimum leaves the state, the wait and the fermata record. -/
theorem looks_releaseAtMinimum (w : Wait) : Looks s (releaseAtMinimum w s) := by
  unfold releaseAtMinimum
  split
  · split
    · exact (walks_decideRelease _ _).looks.trans looks_settle
    · exact .refl s
  · exact .refl s

theorem releaseAtMinimum_of_not_fermata {w : Wait} (kind : w.kind ≠ .fermata) : releaseAtMinimum w s = s := by
  unfold releaseAtMinimum
  split
  · exact if_neg kind
  · rfl

theorem mayWait_releaseAtMinimum {w : Wait} (waits : s.player.wait = some w) (bound : PlayerBound s) :
    MayWait w.kind (releaseAtMinimum w s) := by
  have may := mayWait_of_wait bound waits
  by_cases kind : w.kind = .fermata
  · have state : s.player.state = .FERMATA := may.1.trans (by rw [kind]; rfl)
    have elsewhere : beforeAmen s.player = false := by simp [beforeAmen, state]
    have player := (looks_releaseAtMinimum w (s := s)).stands elsewhere
    have states : (releaseAtMinimum w s).player.state = s.player.state := by
      show (offFinish (releaseAtMinimum w s).player).state = (offFinish s.player).state
      rw [player]
    have fermatas : (releaseAtMinimum w s).player.fermata = s.player.fermata := by
      show (offFinish (releaseAtMinimum w s).player).fermata = (offFinish s.player).fermata
      rw [player]
    exact ⟨states.trans may.1, fun f held => may.2 f (fermatas.symm.trans held)⟩
  · rwa [releaseAtMinimum_of_not_fermata kind]

theorem keeps_endMinimum {w : Wait} (waits : s.player.wait = some w) : Keeps s (endMinimum w s) := by
  have released : Keeps s (releaseAtMinimum w s) := (looks_releaseAtMinimum w).keeps
  unfold endMinimum
  dsimp only
  split
  · exact released.voidWait fun bound _ => mayWait_releaseAtMinimum waits bound
  · exact released.enterWaiting fun bound _ => mayWait_releaseAtMinimum waits bound

/-- A section entered from a gap or from START_WAIT (R100). -/
theorem keeps_enterSection (sec : Nat) (from_ : PlayerBound s → s.player.state = .GAP ∨ s.player.state = .START_WAIT) :
    Keeps s (enterSection sec s) := by
  refine Keeps.trans ?_ (keeps_raise _)
  refine keeps_playerState (fun bound => ?_) rfl rfl rfl
  obtain state | state := from_ bound
  all_goals
    refine playerBound_plain bound rfl (fermata_eq_none bound (by simp [state])) (by simp [state]) ?_
    exact sectionState_on sec

theorem keeps_endBreath {w : Wait} (waits : s.player.wait = some w) : Keeps s (endBreath w s) := by
  unfold endBreath
  split
  · rename_i kind
    refine keeps_playerState (fun bound => ?_) rfl rfl rfl
    have state : s.player.state = .FERMATA := (bound.1 w waits).trans (by rw [kind]; rfl)
    exact playerBound_plain bound rfl rfl (by simp [state]) (sectionState_on _)
  · rename_i kind
    exact keeps_enterSection _ fun bound => .inl ((bound.1 w waits).trans (by rw [kind]; rfl))
  · rename_i kind
    exact keeps_enterSection _ fun bound => .inr ((bound.1 w waits).trans (by rw [kind]; rfl))

theorem keeps_pullBreath {w : Wait} (t : Time) (waits : s.player.wait = some w) : Keeps s (pullBreath w t s) := by
  refine Keeps.trans ?_ looks_settle.keeps
  refine Keeps.trans ?_ (looks_rebase _ _).keeps
  refine keeps_playerState (fun bound => ?_) rfl rfl rfl
  have may : MayWait w.kind s := mayWait_of_wait bound waits
  exact playerBound_wait (w := { w with breathEnd := t }) bound may rfl rfl rfl

theorem keeps_knowOnset (t : Time) : Keeps s (knowOnset t s).1 := by
  unfold knowOnset
  dsimp only
  split
  · split
    · rename_i w waits
      split
      · exact .refl s
      · exact (Keeps.refl s).resumeWait _ _ fun bound _ => mayWait_of_wait bound waits
      · split
        · exact keeps_pullBreath _ waits
        · exact .refl s
    · exact .refl s
  · exact .refl s

/-! ### Fermatas, gaps and section ends (R101 to R106) -/

theorem inSection_iff (p : Player) : inSection p = true ↔ p.state = .INTRO ∨ p.state = .VERSE ∨ p.state = .AMEN := by
  simp [inSection, or_assoc]

/-- In a section state no wait and no fermata record stands, and the Follower is on. -/
theorem wait_fermata_none_of_inSection (bound : PlayerBound s) (within : inSection s.player = true) :
    s.player.wait = none ∧ s.player.fermata = none ∧ s.player.state ≠ .IDLE ∧ s.player.state ≠ .STOPPING := by
  have states := (inSection_iff _).mp within
  refine ⟨?_, fermata_eq_none bound ?_, ?_, ?_⟩
  · cases waits : s.player.wait with
    | none => rfl
    | some w =>
      have state := bound.1 w waits
      cases kind : w.kind <;> simp [state, kind, waitState] at states
  all_goals
    obtain state | state | state := states <;> simp [state]

theorem fermataDue_spec {w : WindowStep} (due : fermataDue s = some w) : inSection s.player = true := by
  unfold fermataDue at due
  split at due
  · assumption
  · cases due

/-- The cipher deadlines of down keys renewed leave the Sounding Map's keys and their holders (R145). -/
theorem keeps_keyCells {g : Nat × KeyEntry → Nat × KeyEntry}
    (index : ∀ c, (g c).1 = c.1) (holders : ∀ c, (g c).2.holders = c.2.holders)
    (up : ∀ c, c.2.holders = [] → g c = c) :
    Keeps s { s with map := { s.map with keys := ⟨s.map.keys.cells.map g⟩ } } := by
  have canonical : ∀ l : List (Nat × KeyEntry), wfCells noKey l = true → wfCells noKey (l.map g) = true := by
    intro l
    induction l with
    | nil => exact id
    | cons c rest ih =>
      intro wf
      obtain ⟨present, rising, restWf⟩ := wfCells_cons.mp wf
      refine wfCells_cons.mpr ⟨fun blank => ?_, fun x member => ?_, ih restWf⟩
      · have empty : c.2.holders = [] := by
          rw [← holders c, blank]
          rfl
        rw [up c empty] at blank
        exact present blank
      · obtain ⟨y, old, rfl⟩ := List.mem_map.mp member
        rw [index, index]
        exact rising y old
  have tables (sound : tablesCanonical s = true) :
      tablesCanonical { s with map := { s.map with keys := ⟨s.map.keys.cells.map g⟩ } } = true := by
    obtain ⟨pool, slots, registrations, keys, rest⟩ := (tablesCanonical_iff s).mp sound
    exact (tablesCanonical_iff _).mpr ⟨pool, slots, registrations, canonical _ keys, rest⟩
  refine Sound.keeps ⟨rfl, tables, And.right, id, id, id, id, id, fun mask => ?_⟩ rfl
  obtain ⟨agrees, silent, sound, range, below⟩ := mask
  refine ⟨fun c small => (agrees c small).trans ?_, ?_, tables sound, ?_, below⟩
  · unfold downOfClass downKeys
    simp only [List.filter_map, List.countP_map]
    congr 1
    · funext x
      simp [index]
    · exact List.filter_congr fun c _ => by simp [holders]
  · unfold silentWhenOff anyDown at *
    simp only [List.any_map]
    convert silent using 4
    funext c
    simp [holders]
  · unfold keysInRange at *
    rw [List.all_map]
    convert range using 2
    funext c
    simp [index]

theorem keeps_renewKeys (t : Time) : Keeps s { s with map := renewKeys t s.map } := by
  refine keeps_keyCells (fun c => ?_) (fun c => ?_) fun c empty => ?_
  · split <;> rfl
  · split <;> rfl
  · simp [empty]

theorem keeps_enterFermata {w : WindowStep} {f : Fermata} (within : inSection s.player = true) :
    Keeps s (enterFermata w f s) := by
  let record : FermataRecord :=
    { step := w, kind := f.kind, sound := s.now, hold := holdOf s f.factor w.dur,
      back := timePlus s.now (holdOf s f.factor w.dur + s.params.breath) }
  let renewed : State := { s with map := renewKeys (timePlus s.now s.params.cipherLimit) s.map }
  let entered : State := { renewed with player := { s.player with state := .FERMATA, fermata := some record } }
  have renewing : Keeps s renewed := keeps_renewKeys _
  have onset (bound : PlayerBound s) := wait_fermata_none_of_inSection bound within
  have bonds (bound : PlayerBound s) (k : WaitKind) (p : Player) (state : p.state = .FERMATA)
      (fermata : p.fermata = some record) (wait : p.wait = none ∨ ∃ x, p.wait = some x ∧ x.kind = .fermata ∧ f.kind = .CUED) :
      PlayerBound { renewed with player := p } := by
    obtain ⟨-, -, on⟩ := onset bound
    refine ⟨fun x stands => ?_, fun y stands => ?_, ?_⟩
    · obtain none | ⟨z, held, kind, -⟩ := wait
      · exact absurd (none.symm.trans stands) nofun
      · obtain rfl := Option.some.inj (held.symm.trans stands)
        exact state.trans (by rw [kind]; rfl)
    · obtain rfl := Option.some.inj (fermata.symm.trans stands)
      refine ⟨state, fun waits => ?_⟩
      obtain none | ⟨-, -, -, cued⟩ := wait
      · exact absurd none waits
      · exact cued
    · have off := bound.2.2
      simp only [on.1, on.2, or_self, false_iff] at off
      show p.state = .IDLE ∨ p.state = .STOPPING ↔ s.follow.state = .OFF
      simp [state, off]
  unfold enterFermata
  dsimp only
  split
  · have entering : Keeps s entered := renewing.playerState
      (fun bound _ => bonds bound .fermata _ rfl rfl (.inl (onset bound).1)) rfl rfl rfl
    exact ((entering.trans (walks_decideRelease _ _).keeps).trans (looks_liftAndRebase _ _).keeps).trans
      looks_settle.keeps
  · rename_i kind
    exact renewing.playerState (fun bound _ => bonds bound .fermata _ rfl rfl
      (.inr ⟨_, rfl, rfl, kind⟩)) rfl rfl rfl

theorem fermataBackDue_spec (due : fermataBackDue s = true) :
    s.player.state = .FERMATA ∧ ∃ f, s.player.fermata = some f ∧ f.kind = .TIMED := by
  unfold fermataBackDue at due
  split at due
  · rename_i f state held
    simp only [Bool.and_eq_true, beq_iff_eq] at due
    exact ⟨state, f, held, due.1⟩
  · cases due

theorem keeps_returnFromFermata (due : fermataBackDue s = true) : Keeps s (returnFromFermata s) := by
  obtain ⟨state, f, held, timed⟩ := fermataBackDue_spec due
  refine keeps_playerState (fun bound => ?_) rfl rfl rfl
  refine playerBound_plain bound ?_ rfl (by simp [state]) (sectionState_on _)
  by_contra waits
  have cued := (bound.2.1 f held).2 waits
  simp [timed] at cued

theorem sectionEndDue_spec (due : sectionEndDue s = true) : inSection s.player = true := by
  simp only [sectionEndDue, Bool.and_eq_true] at due
  exact due.1.1

theorem Keeps.beginWait (k : Keeps r s) {kind : WaitKind} (p : HymnPos) (m : Int)
    (may : PlayerBound r → PlayerBound s → MayWait kind s) : Keeps r (beginWait kind p m s) :=
  k.playerState (fun outer bound => playerBound_wait (w := ⟨kind, .MINIMUM, p, timePlus s.now m, s.now, s.now, s.now,
    false⟩) bound (may outer bound) rfl rfl rfl) rfl rfl rfl

theorem Keeps.enterGap (k : Keeps r s) (next : Nat) (g : Gap)
    (within : PlayerBound s → inSection s.player = true) : Keeps r (enterGap next g s) := by
  have entered (record : GapRecord) : Keeps r { s with player := { s.player with state := .GAP, gap := some record } } :=
    k.playerState (fun _ bound => by
      obtain ⟨wait, fermata, on⟩ := wait_fermata_none_of_inSection bound (within bound)
      exact playerBound_plain bound wait fermata on ⟨nofun, nofun⟩) rfl rfl rfl
  unfold Machine.enterGap
  dsimp only
  split
  · refine (entered _).beginWait _ _ fun outer bound => ⟨rfl, fun f held => ?_⟩
    have none := fermata_eq_none bound (s := { s with player := _ }) (by simp)
    exact absurd (none.symm.trans held) nofun
  · exact (((entered _).trans (looks_liftAndRebase _ _).keeps).trans (walks_beginWalk _).keeps).trans
      looks_settle.keeps

theorem inSection_of_offLatch {p q : Player} (same : offLatch q = offLatch p) (within : inSection p = true) :
    inSection q = true := by
  rw [inSection_iff, state_of_offLatch same]
  exact (inSection_iff p).mp within

theorem keeps_endSection (sec : Nat) (within : inSection s.player = true) : Keeps s (endSection sec s) := by
  unfold endSection
  dsimp only
  generalize made : ({ s with player := { s.player with
    window := s.player.window.filter (staysPastEnd sec), readAhead := none } } : State) = u
  have left : Keeps s u := made ▸ keeps_playerRest rfl rfl rfl rfl rfl rfl
  have walked : inSection u.player = true := made ▸ within
  split
  · exact (left.trans (keeps_fixSection _)).enterGap _ _ fun _ =>
      inSection_of_offLatch (offLatch_fixSection _) walked
  · refine (left.trans (keeps_passOverBelow Config.amenSection)).playerState (fun _ bound => ?_) rfl rfl rfl
    obtain ⟨wait, fermata, on⟩ := wait_fermata_none_of_inSection bound
      (inSection_of_offLatch (offLatch_passOverBelow Config.amenSection) walked)
    exact playerBound_plain bound wait fermata on ⟨nofun, nofun⟩

/-! ### What follows at once (R100) -/

theorem gapDue_spec {n : Nat} (due : gapDue s = some n) : s.player.state = .GAP := by
  unfold gapDue at due
  split at due
  · assumption
  · cases due

/-- The transitions of the Player that can be due, each with its occasion (R100). -/
theorem nextAtOnce_cases {t : State} (next : nextAtOnce s = some t) :
    (idleDue s = true ∧ t = becomeIdle s)
      ∨ (∃ w, waitIn s.player .MINIMUM = some w ∧ due s w.minimumEnd = true ∧ t = endMinimum w s)
      ∨ (∃ w, waitIn s.player .BREATH = some w ∧ due s w.breathEnd = true ∧ t = endBreath w s)
      ∨ (∃ n, gapDue s = some n ∧ t = enterSection n s)
      ∨ (fermataBackDue s = true ∧ t = returnFromFermata s)
      ∨ (∃ w f, fermataDue s = some w ∧ w.fermata = some f ∧ t = enterFermata w f s)
      ∨ (∃ n, s.player.sec = some n ∧ sectionEndDue s = true ∧ t = endSection n s) := by
  unfold nextAtOnce at next
  by_cases idle : idleDue s = true
  · rw [if_pos idle] at next
    exact .inl ⟨idle, (Option.some.inj next).symm⟩
  rw [if_neg idle] at next
  right
  cases minimum : waitIn s.player .MINIMUM with
  | some w =>
    simp only [minimum, Option.ite_none_right_eq_some] at next
    exact .inl ⟨w, rfl, next.1, (Option.some.inj next.2).symm⟩
  | none =>
  right
  cases breath : waitIn s.player .BREATH with
  | some w =>
    simp only [minimum, breath, Option.ite_none_right_eq_some] at next
    exact .inl ⟨w, rfl, next.1, (Option.some.inj next.2).symm⟩
  | none =>
  right
  cases gap : gapDue s with
  | some n =>
    simp only [minimum, breath, gap] at next
    exact .inl ⟨n, rfl, (Option.some.inj next).symm⟩
  | none =>
  right
  simp only [minimum, breath, gap] at next
  by_cases back : fermataBackDue s = true
  · rw [if_pos back] at next
    exact .inl ⟨back, (Option.some.inj next).symm⟩
  rw [if_neg back] at next
  right
  cases fermata : fermataDue s with
  | some w =>
    simp only [fermata] at next
    obtain ⟨f, held, rfl⟩ := Option.map_eq_some_iff.mp next
    exact .inl ⟨w, f, rfl, held, rfl⟩
  | none =>
  right
  cases sec : s.player.sec with
  | none => simp [fermata, sec] at next
  | some n =>
    simp only [fermata, sec, Option.ite_none_right_eq_some] at next
    exact ⟨n, rfl, next.1, (Option.some.inj next.2).symm⟩

theorem keeps_nextAtOnce {t : State} (next : nextAtOnce s = some t) : Keeps s t := by
  obtain ⟨-, rfl⟩ | ⟨w, waits, -, rfl⟩ | ⟨w, waits, -, rfl⟩ | ⟨n, due, rfl⟩ | ⟨due, rfl⟩ | ⟨w, f, due, -, rfl⟩
    | ⟨n, -, due, rfl⟩ := nextAtOnce_cases next
  · exact keeps_becomeIdle
  · exact keeps_endMinimum (waitIn_eq_some_iff.mp waits).1
  · exact keeps_endBreath (waitIn_eq_some_iff.mp waits).1
  · exact keeps_enterSection n fun _ => .inl (gapDue_spec due)
  · exact keeps_returnFromFermata due
  · exact keeps_enterFermata (fermataDue_spec due)
  · exact keeps_endSection n (sectionEndDue_spec due)

theorem keeps_chain : ∀ (n : Nat) (s : State), Keeps s (chain n s)
  | 0, s => .refl s
  | n + 1, s => by
    unfold chain
    split
    · exact (keeps_nextAtOnce ‹_›).trans (keeps_chain n _)
    · exact .refl s

theorem keeps_follows : Keeps s (follows s) := keeps_chain _ s

end Sys2Proof.Proofs
end

section
/-! PROOFS. The step pool under the requests of the store: first fit, freeing, and what every request keeps
(R6 to R8, R11 to R23). -/

namespace Sys2Proof.Proofs

open Sys2Proof.Machine Sys2Proof.Laws Sys2Proof.Claims

/-! ### Free runs (R6) -/

/-- Maximal runs, said of the first and of the rest: each later run begins behind a gap. -/
theorem runsMaximal_cons {b m : Nat} {rest : List (Nat × Nat)} : runsMaximal ((b, m) :: rest) = true ↔
    0 < m ∧ b + m ≤ Config.poolEntries ∧ (∀ r ∈ rest, b + m < r.1) ∧ runsMaximal rest = true := by
  induction rest generalizing b m with
  | nil => simp [runsMaximal]
  | cons r rest ih =>
    obtain ⟨c, n⟩ := r
    have split : runsMaximal ((b, m) :: (c, n) :: rest) = true
        ↔ 0 < m ∧ b + m < c ∧ runsMaximal ((c, n) :: rest) = true := by
      simp [runsMaximal, and_assoc]
    rw [split, List.forall_mem_cons]
    constructor
    · rintro ⟨filled, gap, maximal⟩
      obtain ⟨held, inside, behind, -⟩ := ih.mp maximal
      have above : ∀ r ∈ rest, b + m < r.1 := fun r member => by have := behind r member; omega
      exact ⟨filled, by omega, ⟨gap, above⟩, maximal⟩
    · rintro ⟨filled, -, ⟨gap, -⟩, maximal⟩
      exact ⟨filled, gap, maximal⟩

/-- One run's share of an entry: 1 where it holds it. -/
def holdsEntry (e a n : Nat) : Nat := if a ≤ e ∧ e < a + n then 1 else 0

theorem owners_cons (e a n : Nat) (runs : List (Nat × Nat)) :
    owners e ((a, n) :: runs) = owners e runs + holdsEntry e a n := by
  simp [owners, holdsEntry, List.countP_cons]

/-- First fit (R7): what is taken lies within one run, and the free runs stay maximal. -/
theorem takeRun_spec {n a : Nat} {runs left : List (Nat × Nat)} (filled : 0 < n) (maximal : runsMaximal runs = true)
    (taken : takeRun n runs = some (a, left)) :
    (∀ e, owners e runs = owners e left + holdsEntry e a n) ∧ a + n ≤ Config.poolEntries
      ∧ runsMaximal left = true ∧ ∀ x, (∀ r ∈ runs, x < r.1) → ∀ r ∈ left, x < r.1 := by
  induction runs generalizing left with
  | nil => cases taken
  | cons r rest ih =>
    obtain ⟨b, m⟩ := r
    obtain ⟨held, inside, behind, restMaximal⟩ := runsMaximal_cons.mp maximal
    simp only [takeRun] at taken
    split at taken
    · rename_i fits
      obtain ⟨rfl, rfl⟩ := Prod.mk.inj (Option.some.inj taken)
      refine ⟨fun e => ?_, by omega, ?_, ?_⟩
      · rw [owners_cons]
        split
        · rename_i whole
          rw [whole]
        · rw [owners_cons]
          unfold holdsEntry
          split <;> split <;> split <;> omega
      · split
        · exact restMaximal
        · refine runsMaximal_cons.mpr ⟨by omega, by omega, fun r member => ?_, restMaximal⟩
          have := behind r member
          omega
      · intro x below
        have here := below (b, m) List.mem_cons_self
        split
        · exact fun r member => below r (List.mem_cons_of_mem _ member)
        · intro r member
          obtain rfl | later := List.mem_cons.mp member
          · show x < b + n
            have : x < b := here
            omega
          · exact below r (List.mem_cons_of_mem _ later)
    · split at taken
      · rename_i a' left' inner
        obtain ⟨rfl, rfl⟩ := Prod.mk.inj (Option.some.inj taken)
        obtain ⟨shares, within, leftMaximal, bounded⟩ := ih restMaximal inner
        refine ⟨fun e => ?_, within, ?_, fun x below r member => ?_⟩
        · rw [owners_cons, owners_cons, shares]
          omega
        · exact runsMaximal_cons.mpr ⟨held, inside, bounded _ behind, leftMaximal⟩
        · obtain rfl | later := List.mem_cons.mp member
          · exact below _ List.mem_cons_self
          · exact bounded x (fun q old => below q (List.mem_cons_of_mem _ old)) r later
      · cases taken

/-- Freeing (R8): a run that no free run overlaps joins its neighbours, and the free runs stay maximal. -/
theorem giveRun_spec {a n : Nat} {runs : List (Nat × Nat)} (filled : 0 < n) (within : a + n ≤ Config.poolEntries)
    (maximal : runsMaximal runs = true) (free : ∀ e, a ≤ e → e < a + n → owners e runs = 0) :
    (∀ e, owners e (giveRun a n runs) = owners e runs + holdsEntry e a n)
      ∧ runsMaximal (giveRun a n runs) = true
      ∧ ∀ x, x < a → (∀ r ∈ runs, x < r.1) → ∀ r ∈ giveRun a n runs, x < r.1 := by
  induction runs generalizing a n with
  | nil =>
    refine ⟨fun e => owners_cons e a n [], ?_, fun x below _ r member => ?_⟩
    · exact runsMaximal_cons.mpr ⟨filled, within, fun r member => absurd member List.not_mem_nil, rfl⟩
    · rw [List.mem_singleton.mp member]
      exact below
  | cons r rest ih =>
    obtain ⟨b, m⟩ := r
    obtain ⟨held, inside, behind, restMaximal⟩ := runsMaximal_cons.mp maximal
    have apart : a + n ≤ b ∨ b + m ≤ a := by
      by_contra overlap
      have shared := free (max a b) (by omega) (by omega)
      rw [owners_cons] at shared
      have holds : holdsEntry (max a b) b m = 1 := if_pos (by omega)
      omega
    have freeRest : ∀ e, a ≤ e → e < a + n → owners e rest = 0 := fun e low high => by
      have := free e low high
      rw [owners_cons] at this
      omega
    simp only [giveRun]
    split
    · rename_i ends
      refine ⟨fun e => owners_cons e a n _, ?_, fun x below others r member => ?_⟩
      · refine runsMaximal_cons.mpr ⟨filled, within, fun r member => ?_, maximal⟩
        obtain rfl | later := List.mem_cons.mp member
        · exact ends
        · have := behind r later
          omega
      · obtain rfl | old := List.mem_cons.mp member
        · exact below
        · exact others r old
    · split
      · rename_i joins
        refine ⟨fun e => ?_, ?_, fun x below others r member => ?_⟩
        · rw [owners_cons, owners_cons]
          unfold holdsEntry
          split <;> split <;> split <;> omega
        · refine runsMaximal_cons.mpr ⟨by omega, by omega, fun r member => ?_, restMaximal⟩
          have := behind r member
          omega
        · obtain rfl | later := List.mem_cons.mp member
          · exact below
          · exact others r (List.mem_cons_of_mem _ later)
      · split
        · rename_i joins
          have widened : ∀ e, b ≤ e → e < b + (m + n) → owners e rest = 0 := fun e low high => by
            by_cases lower : e < a
            · rw [owners, List.countP_eq_zero]
              intro r member
              have := behind r member
              simp only [Bool.and_eq_true, decide_eq_true_eq, not_and]
              omega
            · exact freeRest e (by omega) (by omega)
          obtain ⟨shares, joined, bounded⟩ := ih (a := b) (n := m + n) (by omega) (by omega) restMaximal widened
          refine ⟨fun e => ?_, joined, fun x below others r member => ?_⟩
          · rw [shares, owners_cons]
            unfold holdsEntry
            split <;> split <;> split <;> omega
          · exact bounded x (others (b, m) List.mem_cons_self)
              (fun q old => others q (List.mem_cons_of_mem _ old)) r member
        · obtain ⟨shares, joined, bounded⟩ := ih filled within restMaximal freeRest
          refine ⟨fun e => ?_, ?_, fun x below others r member => ?_⟩
          · rw [owners_cons, owners_cons, shares]
            omega
          · exact runsMaximal_cons.mpr ⟨held, inside, bounded _ (by omega) behind, joined⟩
          · obtain rfl | later := List.mem_cons.mp member
            · exact others _ List.mem_cons_self
            · exact bounded x below (fun q old => others q (List.mem_cons_of_mem _ old)) r later

theorem owners_append (e : Nat) (a b : List (Nat × Nat)) : owners e (a ++ b) = owners e a + owners e b :=
  List.countP_append

theorem owners_perm {e : Nat} {a b : List (Nat × Nat)} (same : a.Perm b) : owners e a = owners e b :=
  same.countP_eq _

/-! ### The requests of the store (R11 to R22) -/

section
variable {s : State}

/-- The extents with the slot `n`, EMPTY before, given an extent. -/
theorem extents_set_new {st : Store} {n : Nat} {new : Slot} (canonical : st.slots.wf none = true)
    (empty : slotRec st n = none) :
    (extents { st with slots := st.slots.set none n (some new) }).Perm (extentOf new :: extents st) := by
  have exchanged := extents_writeCells n (some new) canonical
  have read : readCells none st.slots.cells n = none := empty
  rw [read] at exchanged
  simp only [Option.map_none, Option.toList_none, List.append_nil, Option.map_some, Option.toList_some,
    List.singleton_append] at exchanged
  exact exchanged

/-- The extents with the slot `n` made EMPTY. -/
theorem extents_set_none {st : Store} {n : Nat} {sl : Slot} (canonical : st.slots.wf none = true)
    (held : slotRec st n = some sl) :
    (extentOf sl :: extents { st with slots := st.slots.set none n none }).Perm (extents st) := by
  have exchanged := extents_writeCells n none canonical
  have read : readCells none st.slots.cells n = some sl := held
  rw [read] at exchanged
  exact (List.perm_append_singleton _ _).symm.trans exchanged

/-- An extent taken by first fit keeps the pool divided (R6, R7). -/
theorem poolDivided_take {st : Store} {n start : Nat} {new : Slot} {runs : List (Nat × Nat)}
    (canonical : st.slots.wf none = true) (empty : slotRec st n = none) (filled : 0 < new.header.entries)
    (begins : new.start = start) (taken : takeRun new.header.entries st.freeRuns = some (start, runs))
    (divided : PoolDivided st) :
    PoolDivided { st with slots := st.slots.set none n (some new), freeRuns := runs } := by
  obtain ⟨once, within, maximal⟩ := divided
  obtain ⟨shares, inside, left, -⟩ := takeRun_spec filled maximal taken
  have added := extents_set_new (new := new) canonical empty
  have extent : extentOf new = (start, new.header.entries) := by rw [extentOf, begins]
  rw [extent] at added
  refine ⟨fun e below => ?_, fun x member => ?_, left⟩
  · have before := once e below
    rw [owners_append, shares] at before
    have after : owners e (extents { st with slots := st.slots.set none n (some new), freeRuns := runs })
        = owners e (extents st) + holdsEntry e start new.header.entries :=
      (owners_perm added).trans (owners_cons e _ _ _)
    rw [owners_append, after]
    dsimp only
    omega
  · obtain rfl | old := List.mem_cons.mp (added.mem_iff.mp member)
    · exact ⟨filled, inside⟩
    · exact within x old

/-- An extent freed keeps the pool divided (R6, R8). -/
theorem poolDivided_give {st : Store} {n : Nat} {sl : Slot} (canonical : st.slots.wf none = true)
    (held : slotRec st n = some sl) (divided : PoolDivided st) :
    PoolDivided { st with slots := st.slots.set none n none,
                          freeRuns := giveRun sl.start sl.header.entries st.freeRuns } := by
  obtain ⟨once, within, maximal⟩ := divided
  have removed := extents_set_none canonical held
  have owned : extentOf sl ∈ extents st := removed.mem_iff.mp List.mem_cons_self
  obtain ⟨filled, inside⟩ := within _ owned
  have before (e : Nat) (below : e < Config.poolEntries) : owners e st.freeRuns
      + (owners e (extents { st with slots := st.slots.set none n none })
        + holdsEntry e sl.start sl.header.entries) = 1 := by
    have total := once e below
    rw [owners_append, ← owners_perm removed, extentOf, owners_cons] at total
    exact total
  obtain ⟨shares, joined, -⟩ := giveRun_spec (a := sl.start) (n := sl.header.entries) filled inside maximal
    fun e low high => by
      have := before e (by have : sl.start + sl.header.entries ≤ Config.poolEntries := inside; omega)
      have holds : holdsEntry e sl.start sl.header.entries = 1 := if_pos ⟨low, high⟩
      omega
  refine ⟨fun e below => ?_, fun x member => ?_, joined⟩
  · have total := before e below
    rw [owners_append, shares]
    have same : extents { st with slots := st.slots.set none n none,
                                  freeRuns := giveRun sl.start sl.header.entries st.freeRuns }
        = extents { st with slots := st.slots.set none n none } := rfl
    rw [same]
    omega
  · exact within x (removed.mem_iff.mp (List.mem_cons_of_mem _ member))

theorem sound_answerTuneBegin (n : Nat) (h : HeaderFields) : Sound s (answerTuneBegin n h s).state := by
  unfold answerTuneBegin
  split
  · exact .refl s
  · split
    · exact .refl s
    · split
      · exact .refl s
      · rename_i empty
        split
        · exact .refl s
        · rename_i valid
          split
          · exact .refl s
          · rename_i start runs taken
            obtain ⟨-, -, -, -, -, -, -, steps, -, -, -, entries, -⟩ := (headerProblem_eq_none_iff h).mp valid
            have filled : 0 < h.entries := by omega
            refine sound_store id (Table.wf_set _ _) fun canonical divided => ?_
            exact poolDivided_take (new := loadingSlot (headerOf h) start) canonical
              (by simpa using empty) filled rfl taken divided

theorem extentOf_writeSteps : ∀ (l : List StepFields) (sl : Slot) (pool : Table PoolEntry),
    extentOf (writeSteps sl pool l).1 = extentOf sl
  | [], _, _ => rfl
  | f :: rest, sl, pool => extentOf_writeSteps rest (writeStep sl pool f).1 (writeStep sl pool f).2

theorem sound_answerTuneSteps (n first : Nat) (l : List StepFields) :
    Sound s (answerTuneSteps n first l s).state := by
  unfold answerTuneSteps
  split
  · exact .refl s
  · split
    · exact .refl s
    · split
      · exact .refl s
      · rename_i sl held
        split
        · exact .refl s
        · split
          · exact .refl s
          · split
            · exact .refl s
            · dsimp only
              split
              · refine sound_store (Memory.wf_writeSteps l sl s.store.pool) (Table.wf_set _ _)
                  fun canonical divided => ?_
                exact poolDivided_of_perm (a := s.store) rfl
                  (extents_set_same canonical held (extentOf_writeSteps l sl s.store.pool)) divided
              · exact .refl s

theorem keeps_answerTuneEnd (n : Nat) : Keeps s (answerTuneEnd n s).state := by
  unfold answerTuneEnd
  split
  · exact .refl s
  · split
    · exact .refl s
    · split
      · exact .refl s
      · rename_i sl held
        dsimp only
        split
        · exact .refl s
        · split
          · exact .refl s
          · exact keeps_sameTunes (sameTunes_set held rfl)

theorem sound_answerTuneErase (n : Nat) : Sound s (answerTuneErase n s).state := by
  unfold answerTuneErase
  split
  · exact .refl s
  · split
    · exact .refl s
    · split
      · exact .refl s
      · rename_i sl held
        split
        · exact .refl s
        · exact sound_store id (Table.wf_set _ _) fun canonical divided => poolDivided_give canonical held divided

theorem walks_readSteps (n : Nat) (sl : Slot) : ∀ (count i room : Nat) (s : State),
    Walks s (readSteps n sl count i room s).2.2
  | 0, _, _, s => .refl s
  | count + 1, i, room, s => by
    unfold readSteps
    dsimp only
    split
    · split
      · refine .trans ?_ (walks_readSteps n sl count _ _ _)
        split
        · exact .refl s
        · exact walks_noteFault _ _ _
      · exact .refl s
    · exact .refl s

theorem keeps_answerTuneRead (n first count : Nat) : Keeps s (answerTuneRead n first count s).state := by
  unfold answerTuneRead
  split
  · exact .refl s
  · split
    · exact .refl s
    · split
      · exact .refl s
      · split
        · exact .refl s
        · exact (walks_readSteps _ _ _ _ _ s).keeps

theorem poolDivided_clearing (now : Time) : PoolDivided (storeClearing now) := by
  refine ⟨fun e below => ?_, fun x member => ?_, rfl⟩
  · show owners e [(0, Config.poolEntries)] = 1
    rw [owners_cons]
    have holds : holdsEntry e 0 Config.poolEntries = 1 := if_pos (by omega)
    rw [holds]
    rfl
  · exact absurd member List.not_mem_nil

theorem sound_answerClearStore : Sound s (answerClearStore s).state := by
  unfold answerClearStore
  split
  · exact .refl s
  · split
    · exact .refl s
    · exact sound_store (fun _ => rfl) (fun _ => rfl) fun _ _ => poolDivided_clearing s.now

theorem keeps_endClearing : Keeps s (endClearing s) := by
  unfold endClearing
  split
  · split
    · refine Keeps.trans ?_ (keeps_raise _)
      exact Sound.keeps (sound_store id id fun _ => id) rfl
    · exact .refl s
  · exact .refl s

theorem extents_map {st : Store} {g : Slot → Slot} (extent : ∀ sl, extentOf (g sl) = extentOf sl) :
    extents { st with slots := ⟨st.slots.cells.map (fun c => (c.1, c.2.map g))⟩ } = extents st := by
  rw [extents_eq, extents_eq]
  simp only [List.filterMap_map]
  congr 1
  funext c
  simp only [Function.comp_apply, Option.map_map]
  congr 1
  funext sl
  exact extent sl

/-- Present records changed, each into a present one, leave a table canonical. -/
theorem wfCells_map {α : Type} [DecidableEq α] {g : α → α} : ∀ {l : List (Nat × Option α)},
    wfCells none l = true → wfCells none (l.map (fun c => (c.1, c.2.map g))) = true
  | [], _ => rfl
  | c :: rest, wf => by
    obtain ⟨present, rising, restWf⟩ := wfCells_cons.mp wf
    refine wfCells_cons.mpr ⟨?_, fun x member => ?_, wfCells_map restWf⟩
    · simpa using present
    · obtain ⟨y, old, rfl⟩ := List.mem_map.mp member
      exact rising y old

theorem keeps_storeAfterConsoleReset : Keeps s { s with store := storeAfterConsoleReset s.store } := by
  refine Sound.keeps (sound_store id wfCells_map fun _ divided => ?_) rfl
  refine poolDivided_of_perm (a := s.store) rfl ?_ divided
  refine .of_eq ((extents_map (st := s.store) fun sl => ?_))
  split <;> rfl

theorem keeps_clearStoreFault : Keeps s { s with store := clearStoreFault s.store } :=
  Sound.keeps (sound_store id id fun _ => id) rfl

end

end Sys2Proof.Proofs
end

section
/-! PROOFS. The Leak Mask and the Sounding Map together: what every key change keeps (R133 to R144). -/

namespace Sys2Proof.Proofs

open Sys2Proof.Machine Sys2Proof.Laws Sys2Proof.Claims

/-! ### Down keys by class (R139) -/

/-- A write to a canonical table changes a count by what is written and what was there. -/
theorem countP_writeCells {β : Type} [DecidableEq β] {d : β} {l : List (Nat × β)} (p : Nat × β → Bool) (k : Nat)
    (v : β) (blank : ∀ i, p (i, d) = false) (canonical : wfCells d l = true) :
    (writeCells d l k v).countP p + (p (k, readCells d l k)).toNat = l.countP p + (p (k, v)).toNat := by
  induction l with
  | nil =>
    simp only [writeCells, readCells, blank]
    split
    · rename_i same
      simp [same, blank]
    · cases held : p (k, v) <;> simp [held]
  | cons c rest ih =>
    obtain ⟨i, w⟩ := c
    obtain ⟨present, rising, restCanonical⟩ := wfCells_cons.mp canonical
    simp only [writeCells, readCells]
    by_cases below : k < i
    · rw [if_pos below, if_pos below, blank]
      split
      · rename_i same
        simp [same, blank]
      · rw [List.countP_cons (l := (i, w) :: rest)]
        cases p (k, v) <;> simp
    · rw [if_neg below, if_neg below]
      by_cases here : k = i
      · rw [if_pos here, if_pos here]
        subst here
        split
        · rename_i same
          rw [List.countP_cons, same, blank]
          cases p (k, w) <;> simp
        · rw [List.countP_cons, List.countP_cons]
          cases p (k, v) <;> cases p (k, w) <;> simp
      · rw [if_neg here, if_neg here, List.countP_cons, List.countP_cons]
        have := ih restCanonical
        omega

@[simp] theorem keyOfId_keyId (d : Division) {k : Nat} (below : k < 64) : keyOfId (keyId d k) = (d, k) := by
  have group : keyId d k / 64 = divisionNumber d := by
    unfold keyId
    omega
  have number : keyId d k % 64 = k := by
    unfold keyId
    omega
  rw [keyOfId, group, number, divisionOf_divisionNumber]
  rfl

/-- Whether key `k` of division `d` counts for class `c` while it is down (R139). -/
def classed (o : Organ) (c : Nat) (d : Division) (k : Nat) : Bool := (divRec o d).leakTracking && keyClass o d k == c

/-- Whether a cell of the key table is a down key of class `c`. -/
def countedCell (o : Organ) (c : Nat) (x : Nat × KeyEntry) : Bool :=
  !x.2.holders.isEmpty && classed o c (keyOfId x.1).1 (keyOfId x.1).2

theorem downOfClass_eq (s : State) (c : Nat) :
    downOfClass s c = s.map.keys.cells.countP (countedCell s.organ c) := by
  unfold downOfClass downKeys
  rw [List.countP_map, List.countP_filter]
  congr 1
  funext x
  simp [countedCell, classed, Bool.and_comm]

/-- What key `k` of division `d` adds to the count of class `c` with the entry `e`. -/
def share (o : Organ) (c : Nat) (d : Division) (k : Nat) (e : KeyEntry) : Nat :=
  (!e.holders.isEmpty && classed o c d k).toNat

theorem downOfClass_setKey {s : State} {d : Division} {k : Nat} (e : KeyEntry) (l : Table LeakEntry) (c : Nat)
    (canonical : s.map.keys.wf noKey = true) (below : k < 64) :
    downOfClass { s with map := setKey s.map d k e, leak := l } c + share s.organ c d k (keyEntry s.map d k)
      = downOfClass s c + share s.organ c d k e := by
  rw [downOfClass_eq, downOfClass_eq]
  have counted := countP_writeCells (countedCell s.organ c) (keyId d k) e (fun i => rfl) canonical
  simp only [countedCell, keyOfId_keyId d below] at counted
  exact counted

/-! ### Cells of the key table (R133) -/

theorem keysInRange_iff (m : SoundingMap) : keysInRange m = true ↔ ∀ c ∈ m.keys.cells, 64 ≤ c.1 ∧ c.1 < 384 := by
  simp [keysInRange]

theorem keyId_bounds (d : Division) {k : Nat} (below : k < 64) : 64 ≤ keyId d k ∧ keyId d k < 384 := by
  cases d <;> simp only [keyId, divisionNumber] <;> omega

theorem keysInRange_setKey {m : SoundingMap} {d : Division} {k : Nat} (e : KeyEntry) (below : k < 64)
    (range : keysInRange m = true) : keysInRange (setKey m d k e) = true := by
  refine (keysInRange_iff _).mpr fun c member => ?_
  obtain old | rfl := mem_writeCells member
  · exact (keysInRange_iff _).mp range c old
  · exact keyId_bounds d below

theorem keyId_keyOfId {n : Nat} (low : 64 ≤ n) (high : n < 384) : keyId (keyOfId n).1 (keyOfId n).2 = n := by
  have groups : n / 64 = 1 ∨ n / 64 = 2 ∨ n / 64 = 3 ∨ n / 64 = 4 ∨ n / 64 = 5 := by omega
  unfold keyId keyOfId
  obtain group | group | group | group | group := groups
  all_goals
    rw [group]
    simp only [divisionOf, Option.getD_some, divisionNumber]
    omega

/-- Reading at the index of a cell of a canonical table gives the cell. -/
theorem readCells_of_mem {β : Type} [DecidableEq β] {d : β} {l : List (Nat × β)} {c : Nat × β}
    (canonical : wfCells d l = true) (member : c ∈ l) : readCells d l c.1 = c.2 := by
  induction l with
  | nil => cases member
  | cons x rest ih =>
    obtain ⟨i, w⟩ := x
    obtain ⟨-, rising, restCanonical⟩ := wfCells_cons.mp canonical
    obtain rfl | later := List.mem_cons.mp member
    · simp [readCells]
    · have behind := rising c later
      simp [readCells, behind.not_gt, behind.ne', ih restCanonical later]

section
variable {m : SoundingMap} (canonical : m.keys.wf noKey = true) (range : keysInRange m = true)
include canonical range

/-- What stands among the down keys: a key with its entry, held by a voice. -/
theorem downKeys_spec {x : Division × Nat × KeyEntry} (member : x ∈ downKeys m) :
    x.2.1 < 64 ∧ keyEntry m x.1 x.2.1 = x.2.2 ∧ x.2.2.holders ≠ [] := by
  obtain ⟨c, held, rfl⟩ := List.mem_map.mp member
  obtain ⟨listed, down⟩ := List.mem_filter.mp held
  obtain ⟨low, high⟩ := (keysInRange_iff m).mp range c listed
  refine ⟨Nat.mod_lt _ (by decide), ?_, by simpa using down⟩
  show readCells noKey m.keys.cells (keyId (keyOfId c.1).1 (keyOfId c.1).2) = c.2
  rw [keyId_keyOfId low high]
  exact readCells_of_mem canonical listed

/-- No key stands twice among the down keys. -/
theorem downKeys_distinct : (downKeys m).Pairwise (fun x y => y.1 ≠ x.1 ∨ y.2.1 ≠ x.2.1) := by
  have rising : m.keys.cells.Pairwise (fun a b => a.1 < b.1) := by
    have wf : wfCells noKey m.keys.cells = true := canonical
    revert wf
    induction m.keys.cells with
    | nil => exact fun _ => .nil
    | cons c rest ih =>
      intro wf
      obtain ⟨-, behind, restWf⟩ := wfCells_cons.mp wf
      exact .cons behind (ih restWf)
  unfold downKeys
  refine List.pairwise_map.mpr ((rising.filter _).imp_of_mem fun {a b} inA inB less => ?_)
  obtain ⟨lowA, highA⟩ := (keysInRange_iff m).mp range a (List.mem_filter.mp inA).1
  obtain ⟨lowB, highB⟩ := (keysInRange_iff m).mp range b (List.mem_filter.mp inB).1
  by_contra same
  push Not at same
  have equal : a.1 = b.1 := by
    obtain ⟨division, number⟩ : (keyOfId b.1).1 = (keyOfId a.1).1 ∧ (keyOfId b.1).2 = (keyOfId a.1).2 := same
    rw [← keyId_keyOfId lowA highA, ← keyId_keyOfId lowB highB, division, number]
  omega

end

/-! ### One key written with its class (R134, R135, R140, R141) -/

section
variable {s : State}

theorem wf_leakDown (o : Organ) (f : Time) (d : Division) (k : Nat) {l : Table LeakEntry}
    (canonical : l.wf noLeak = true) : (leakDown o f d k l).wf noLeak = true := by
  unfold leakDown
  dsimp only
  split
  · exact Table.wf_set _ _ canonical
  · exact canonical

theorem wf_leakUp (o : Organ) (f : Time) (d : Division) (k : Nat) {l : Table LeakEntry}
    (canonical : l.wf noLeak = true) : (leakUp o f d k l).wf noLeak = true := by
  unfold leakUp
  dsimp only
  split
  · split <;> exact Table.wf_set _ _ canonical
  · exact canonical

/-- A key that goes down adds one to the held count of its class. -/
theorem leakDown_held (o : Organ) (f : Time) (d : Division) (k c : Nat) {l : Table LeakEntry}
    (canonical : l.wf noLeak = true) :
    (leakEntry (leakDown o f d k l) c).held = (leakEntry l c).held + (classed o c d k).toNat := by
  cases on : (divRec o d).leakTracking
  · simp [leakDown_of_untracked on, classed, on]
  · obtain ⟨same, other⟩ := leakEntry_of_eq_set canonical (leakDown_of_tracked (f := f) (k := k) on)
    by_cases here : c = keyClass o d k
    · subst here
      simp [same, classed, on]
    · have apart : (keyClass o d k == c) = false := by simpa using Ne.symm here
      simp [other c here, classed, apart]

/-- A key that goes up takes one from the held count of its class. -/
theorem leakUp_held (o : Organ) (f : Time) (d : Division) (k c : Nat) {l : Table LeakEntry}
    (canonical : l.wf noLeak = true) :
    (leakEntry (leakUp o f d k l) c).held = (leakEntry l c).held - (classed o c d k).toNat := by
  cases on : (divRec o d).leakTracking
  · simp [leakUp_of_untracked on, classed, on]
  · obtain ⟨same, other⟩ := leakEntry_of_eq_set canonical (leakUp_of_tracked (f := f) (k := k) on)
    by_cases here : c = keyClass o d k
    · subst here
      simp [same, classed, on]
    · have apart : (keyClass o d k == c) = false := by simpa using Ne.symm here
      simp [other c here, classed, apart]

/-- A map and a mask written, whose tables are canonical and which agree where those before agreed. -/
theorem Keeps.mapLeak {r : State} (k : Keeps r s) {m : SoundingMap} {l : Table LeakEntry}
    (keys : s.map.keys.wf noKey = true → m.keys.wf noKey = true)
    (leak : s.leak.wf noLeak = true → l.wf noLeak = true)
    (agree : MaskAgrees r → MaskAgrees s →
      (∀ c, c < 12 → (leakEntry l c).held = downOfClass { s with map := m, leak := l } c)
      ∧ silentWhenOff { s with map := m, leak := l } = true ∧ keysInRange m = true) :
    Keeps r { s with map := m, leak := l } := by
  have tables (sound : tablesCanonical s = true) : tablesCanonical { s with map := m, leak := l } = true := by
    obtain ⟨pool, slots, registrations, keyCells, leakCells, raises⟩ := (tablesCanonical_iff s).mp sound
    exact (tablesCanonical_iff _).mpr ⟨pool, slots, registrations, keys keyCells, leak leakCells, raises⟩
  refine Sound.keeps ⟨k.pending, tables ∘ k.tables, k.divided, k.fits, k.order, k.bound, k.reserved, k.numbered,
    fun outer => ?_⟩ k.owned
  have mask := k.mask outer
  obtain ⟨agrees, silent, range⟩ := agree outer mask
  exact ⟨agrees, silent, tables mask.2.2.1, range, mask.2.2.2.2⟩

/-- The Keyline is not OFF, so keys may be down (R148). -/
def KeylineOn (s : State) : Prop := s.keyline.state ≠ .OFF

theorem silentWhenOff_of_on {t : State} (on : KeylineOn t) : silentWhenOff t = true := by
  have running : t.keyline.state ≠ .OFF := on
  simp [silentWhenOff, running]

/-- One key and its class written together, the held count following the key. -/
theorem Keeps.setKey {r : State} (kept : Keeps r s) {d : Division} {k : Nat} {e : KeyEntry}
    {l : Table LeakEntry} (on : KeylineOn s) (below : MaskAgrees r → MaskAgrees s → k < 64)
    (leak : s.leak.wf noLeak = true → l.wf noLeak = true)
    (held : MaskAgrees r → MaskAgrees s → ∀ c, c < 12 →
      (leakEntry l c).held + share s.organ c d k (keyEntry s.map d k)
        = (leakEntry s.leak c).held + share s.organ c d k e) :
    Keeps r { s with map := Machine.setKey s.map d k e, leak := l } := by
  refine kept.mapLeak (Table.wf_set _ _) leak fun outer mask => ?_
  have number := below outer mask
  have moved := held outer mask
  obtain ⟨agrees, -, canonical, range, -⟩ := mask
  obtain ⟨-, -, -, keys, -⟩ := (tablesCanonical_iff s).mp canonical
  refine ⟨fun c small => ?_, silentWhenOff_of_on (t := { s with map := _, leak := _ }) on,
    keysInRange_setKey e number range⟩
  have counted := downOfClass_setKey e l c keys number (d := d)
  have moved := moved c small
  have before := agrees c small
  omega

theorem leakCanonical (mask : MaskAgrees s) : s.leak.wf noLeak = true := by
  obtain ⟨-, -, -, -, leak, -⟩ := (tablesCanonical_iff s).mp mask.2.2.1
  exact leak

theorem share_of_up {o : Organ} {c : Nat} {d : Division} {k : Nat} {e : KeyEntry} (up : e.holders = []) :
    share o c d k e = 0 := by
  simp [share, up]

theorem share_of_down {o : Organ} {c : Nat} {d : Division} {k : Nat} {e : KeyEntry} (down : e.holders ≠ []) :
    share o c d k e = (classed o c d k).toNat := by
  have held : e.holders.isEmpty = false := by simpa using down
  simp [share, held]

/-- A down key of class `c` is counted. -/
theorem classed_le_held (mask : MaskAgrees s) {d : Division} {k c : Nat} (small : c < 12) (below : k < 64)
    (down : (keyEntry s.map d k).holders ≠ []) : (classed s.organ c d k).toNat ≤ (leakEntry s.leak c).held := by
  obtain ⟨-, -, -, keys, -⟩ := (tablesCanonical_iff s).mp mask.2.2.1
  have counted := downOfClass_setKey noKey s.leak c keys below (d := d)
  rw [share_of_down down, share_of_up (e := noKey) rfl] at counted
  have := mask.1 c small
  omega

section
variable {f : Time} {v : Voice} {d : Division} {k : Nat} (on : KeylineOn s) (below : MaskAgrees s → k < 64)
include on below

theorem keeps_takeDown : Keeps s (takeDown f v d k s) := by
  have filled : (addVoice v (keyEntry s.map d k).holders) ≠ [] := fun empty => by
    have member : v ∈ addVoice v (keyEntry s.map d k).holders := mem_addVoice.mpr (.inl rfl)
    rw [empty] at member
    cases member
  refine (Keeps.refl s).setKey on (fun _ => below) (fun canonical => ?_) fun _ mask c small => ?_
  · split
    · exact wf_leakDown _ _ _ _ canonical
    · exact canonical
  · rw [share_of_down (e := ⟨addVoice v _, _⟩) filled]
    split
    · rename_i up
      rw [leakDown_held _ _ _ _ _ (leakCanonical mask), share_of_up (by simpa using up)]
      rfl
    · rename_i down
      rw [share_of_down (by simpa using down)]

theorem keeps_takeUp : Keeps s (takeUp f v d k s) := by
  unfold takeUp
  dsimp only
  split
  · rename_i holds
    have down : (keyEntry s.map d k).holders ≠ [] := fun empty => by simp [empty] at holds
    refine (Keeps.refl s).setKey on (fun _ => below) (fun canonical => ?_) fun _ mask c small => ?_
    · split
      · exact wf_leakUp _ _ _ _ canonical
      · exact canonical
    · rw [share_of_down down]
      split
      · rename_i up
        rw [leakUp_held _ _ _ _ _ (leakCanonical mask), share_of_up (by simpa using up)]
        have := classed_le_held mask small (below mask) down
        omega
      · rename_i left
        rw [share_of_down (by simpa using left)]
  · exact .refl s

theorem keeps_takeRenew : Keeps s (takeRenew f v d k s) := by
  unfold takeRenew
  dsimp only
  split
  · exact (Keeps.refl s).setKey on (fun _ => below) id fun _ _ _ _ => rfl
  · exact .refl s

end

/-- The cipher guard's release of a key that is down (R144). -/
theorem Keeps.releaseKey {r : State} (kept : Keeps r s) {f : Time} {d : Division} {k : Nat} (on : KeylineOn s)
    (e : KeyEntry) (down : MaskAgrees r → MaskAgrees s → k < 64 ∧ (keyEntry s.map d k).holders ≠ []) :
    Keeps r { s with map := Machine.setKey s.map d k { e with holders := [] }, leak := leakUp s.organ f d k s.leak } := by
  refine kept.setKey on (fun outer mask => (down outer mask).1) (wf_leakUp _ _ _ _) fun outer mask c small => ?_
  obtain ⟨below, held⟩ := down outer mask
  rw [leakUp_held _ _ _ _ _ (leakCanonical mask), share_of_down held, share_of_up rfl]
  have := classed_le_held mask small below held
  omega

/-! ### Every key up (R114, R143, R172) -/

theorem downOfClass_of_silent {t : State} (silent : anyDown t.map = false) (c : Nat) : downOfClass t c = 0 := by
  rw [downOfClass_eq, List.countP_eq_zero]
  intro x member
  have up := (List.any_eq_false.mp silent) x member
  simp only [Bool.not_eq_true', Bool.not_eq_false] at up
  simp [countedCell, up]

theorem wf_silenceLeak (tail : Time) {l : Table LeakEntry} (canonical : l.wf noLeak = true) :
    (silenceLeak tail l).wf noLeak = true := by
  have all : ∀ (cs : List Nat) (t : Table LeakEntry), t.wf noLeak = true →
      (cs.foldl (fun acc c => acc.set noLeak c ⟨0, tail, (leakEntry l c).fresh⟩) t).wf noLeak = true := by
    intro cs
    induction cs with
    | nil => exact fun _ => id
    | cons c rest ih => exact fun t wf => ih _ (Table.wf_set _ _ wf)
  exact all _ l canonical

/-- What every class reads as once the mask is silenced (R143). -/
theorem leakEntry_silenceLeak (tail : Time) {l : Table LeakEntry} (canonical : l.wf noLeak = true) (c : Nat) :
    leakEntry (silenceLeak tail l) c = if c < 12 then ⟨0, tail, (leakEntry l c).fresh⟩ else leakEntry l c := by
  have all : ∀ (cs : List Nat) (t : Table LeakEntry), t.wf noLeak = true →
      leakEntry (cs.foldl (fun acc c => acc.set noLeak c ⟨0, tail, (leakEntry l c).fresh⟩) t) c
        = if c ∈ cs then ⟨0, tail, (leakEntry l c).fresh⟩ else leakEntry t c := by
    intro cs
    induction cs with
    | nil => exact fun t _ => by simp
    | cons x rest ih =>
      intro t wf
      simp only [List.foldl_cons, ih _ (Table.wf_set _ _ wf), List.mem_cons]
      by_cases later : c ∈ rest
      · simp [later]
      · by_cases here : c = x
        · subst here
          simp [later, leakEntry, Table.get_set_same _ _ wf]
        · simp [later, here, leakEntry, Table.get_set_other _ here wf]
  have read := all (List.range 12) l canonical
  simp only [List.mem_range] at read
  exact read

theorem keeps_silenceMap : Keeps s (silenceMap s) := by
  refine (Keeps.refl s).mapLeak (fun _ => rfl) (wf_silenceLeak _) fun _ mask => ⟨fun c small => ?_, ?_, rfl⟩
  · rw [leakEntry_silenceLeak _ (leakCanonical mask), if_pos small, downOfClass_of_silent rfl]
  · simp [silentWhenOff, anyDown]

end

end Sys2Proof.Proofs
end

section
/-! PROOFS. What a composition and a frame start keep (R126, R134 to R160). -/

namespace Sys2Proof.Proofs

open Sys2Proof.Machine Sys2Proof.Laws Sys2Proof.Claims

/-! ### What a composition leaves alone -/

/-- The part but for what a composition's events write: the map, the mask, the flags and the settle watch. -/
def offCompose (s : State) : State :=
  { s with map := mapAfterReset, leak := ⟨[]⟩, flags := flagsAfterReset,
           keyline := { s.keyline with watch := none } }

/-- What the events of a composition keep and leave alone. -/
structure Composes (s t : State) : Prop where
  keeps : Keeps s t
  rest : offCompose t = offCompose s

theorem Composes.refl (s : State) : Composes s s := ⟨.refl s, rfl⟩

theorem Composes.trans {s t u : State} (a : Composes s t) (b : Composes t u) : Composes s u :=
  ⟨a.keeps.trans b.keeps, b.rest.trans a.rest⟩

section
variable {s t : State} (c : Composes s t)
include c

/-- A field that a composition's events leave alone. -/
theorem Composes.field {α : Type} (g : State → α) (off : ∀ u, g (offCompose u) = g u) : g t = g s := by
  rw [← off t, c.rest, off]

theorem Composes.keys : t.keys = s.keys := c.field (·.keys) fun _ => rfl
theorem Composes.organ : t.organ = s.organ := c.field (·.organ) fun _ => rfl
theorem Composes.keylineState : t.keyline.state = s.keyline.state := c.field (·.keyline.state) fun _ => rfl

theorem Composes.on (on : KeylineOn s) : KeylineOn t := by
  unfold KeylineOn
  rwa [c.keylineState]

end

section
variable {s : State}

theorem composes_judgeWatch (e : KeyEvent) : Composes s (judgeWatch e s) := by
  unfold judgeWatch
  split
  · split
    · dsimp only
      have unwatched : Composes s { s with keyline := { s.keyline with watch := none } } :=
        ⟨keeps_keylineOn id, rfl⟩
      split
      · exact unwatched.trans ⟨keeps_raise _, rfl⟩
      · exact unwatched
    · exact .refl s
  · exact .refl s

theorem offCompose_takeUp (f : Time) (v : Voice) (d : Division) (k : Nat) :
    offCompose (takeUp f v d k s) = offCompose s := by
  unfold takeUp
  dsimp only
  split <;> rfl

theorem offCompose_takeRenew (f : Time) (v : Voice) (d : Division) (k : Nat) :
    offCompose (takeRenew f v d k s) = offCompose s := by
  unfold takeRenew
  dsimp only
  split <;> rfl

theorem composes_applyEvent (f : Time) (e : KeyEvent) (on : KeylineOn s) (member : e ∈ s.keys.events) :
    Composes s (applyEvent f e s) := by
  have watched := composes_judgeWatch (s := s) e
  have running := watched.on on
  have below (mask : MaskAgrees (judgeWatch e s)) : e.key < 64 :=
    mask.2.2.2.2.2.1 e (watched.keys ▸ member)
  unfold applyEvent
  dsimp only
  split
  · exact watched.trans ⟨keeps_takeDown running below, rfl⟩
  · exact watched.trans ⟨keeps_takeUp running below, offCompose_takeUp _ _ _ _⟩
  · exact watched.trans ⟨keeps_takeRenew running below, offCompose_takeRenew _ _ _ _⟩

/-! ### The events of a composition (R154, R159) -/

/-- What one due event brings: it is taken into the frame, or it is left, held back or slipped. -/
theorem composeEvent_cases (f : Time) (limit : Option Nat) (c : Comp) (e : KeyEvent) :
    (∃ slots, composeEvent f limit c e = takeEvent f e slots c)
      ∨ ∃ slip, composeEvent f limit c e = leaveEvent e slip c := by
  unfold composeEvent
  split
  · exact .inr ⟨_, rfl⟩
  · split
    · exact .inr ⟨_, rfl⟩
    · split
      · exact .inl ⟨_, rfl⟩
      · dsimp only
        split
        · exact .inl ⟨_, rfl⟩
        · split
          · exact .inl ⟨_, rfl⟩
          · split
            · exact .inl ⟨_, rfl⟩
            · exact .inr ⟨_, rfl⟩

/-- The events of a composition one by one: those left are among them, in their order. -/
theorem composeEvents_spec (f : Time) (limit : Option Nat) : ∀ (es : List KeyEvent) (c : Comp),
    KeylineOn c.state → (∀ e ∈ es, e ∈ c.state.keys.events) →
    Composes c.state (es.foldl (composeEvent f limit) c).state
      ∧ ∃ left, left.Sublist es ∧ (es.foldl (composeEvent f limit) c).kept = c.kept ++ left
  | [], c, _, _ => ⟨.refl _, [], .slnil, (List.append_nil _).symm⟩
  | e :: rest, c, on, due => by
    have restDue := fun x (member : x ∈ rest) => due x (List.mem_cons_of_mem e member)
    rw [List.foldl_cons]
    obtain ⟨slots, taken⟩ | ⟨slip, left⟩ := composeEvent_cases f limit c e
    · have first : Composes c.state (composeEvent f limit c e).state := by
        rw [taken]
        exact composes_applyEvent f e on (due e List.mem_cons_self)
      obtain ⟨others, behind, sub, kept⟩ := composeEvents_spec f limit rest (composeEvent f limit c e) (first.on on)
        fun x member => first.keys ▸ restDue x member
      refine ⟨first.trans others, behind, sub.cons e, ?_⟩
      rw [kept, taken]
      rfl
    · have same : (composeEvent f limit c e).state = c.state := by
        rw [left]
        rfl
      obtain ⟨others, behind, sub, kept⟩ := composeEvents_spec f limit rest (composeEvent f limit c e)
        (same ▸ on) (same ▸ restDue)
      refine ⟨same ▸ others, e :: behind, sub.cons_cons e, ?_⟩
      rw [kept, left]
      simp [leaveEvent]

/-! ### The cipher guard (R144) -/

/-- Each key of the list is down in `s` with its entry, and none is there twice. -/
def Down (s : State) (l : List (Division × Nat × KeyEntry)) : Prop :=
  (∀ x ∈ l, x.2.1 < 64 ∧ keyEntry s.map x.1 x.2.1 = x.2.2 ∧ x.2.2.holders ≠ [])
    ∧ l.Pairwise (fun x y => y.1 ≠ x.1 ∨ y.2.1 ≠ x.2.1)

theorem down_cipherDue (mask : MaskAgrees s) (f : Time) : Down s (cipherDue s.map f) := by
  obtain ⟨-, -, canonical, range, -⟩ := mask
  obtain ⟨-, -, -, keys, -⟩ := (tablesCanonical_iff s).mp canonical
  exact ⟨fun x member => downKeys_spec keys range (List.mem_filter.mp member).1,
    (downKeys_distinct keys range).filter _⟩

/-- The keys behind the one released are still down. -/
theorem Down.tail {x : Division × Nat × KeyEntry} {rest : List (Division × Nat × KeyEntry)}
    (down : Down s (x :: rest)) (canonical : s.map.keys.wf noKey = true) {e : KeyEntry} {t : State}
    (map : t.map = setKey s.map x.1 x.2.1 e) : Down t rest := by
  obtain ⟨held, distinct⟩ := down
  obtain ⟨apart, others⟩ := List.pairwise_cons.mp distinct
  refine ⟨fun y member => ?_, others⟩
  obtain ⟨below, entry, holders⟩ := held y (List.mem_cons_of_mem x member)
  refine ⟨below, ?_, holders⟩
  rw [map, otherKeysStay_setKey e canonical (held x List.mem_cons_self).1 y.1 y.2.1 below (apart y member)]
  exact entry

theorem cipherReleases_spec (f : Time) {r : State} : ∀ (l : List (Division × Nat × KeyEntry)) (c : Comp),
    KeylineOn c.state → Keeps r c.state → offCompose c.state = offCompose r → (MaskAgrees r → Down c.state l) →
    Composes r (l.foldl (cipherRelease f) c).state ∧ (l.foldl (cipherRelease f) c).kept = c.kept
  | [], _, _, kept, same, _ => ⟨⟨kept, same⟩, rfl⟩
  | x :: rest, c, on, kept, same, down => by
    have released : Keeps r (cipherRelease f c x).state := by
      refine Keeps.trans ?_ (keeps_raise _)
      refine kept.releaseKey on x.2.2 fun outer _ => ?_
      obtain ⟨below, entry, holders⟩ := (down outer).1 x List.mem_cons_self
      exact ⟨below, entry ▸ holders⟩
    exact cipherReleases_spec f rest (cipherRelease f c x) on released same fun outer => by
      obtain ⟨-, -, -, keys, -⟩ := (tablesCanonical_iff _).mp (kept.mask outer).2.2.1
      exact (down outer).tail keys rfl

theorem composeReleases_spec (f : Time) (on : KeylineOn s) :
    Composes s (composeReleases f s).state ∧ (composeReleases f s).kept = [] :=
  cipherReleases_spec f (cipherDue s.map f) (emptyComp s) on (.refl s) rfl fun mask => down_cipherDue mask f

/-! ### The compositions (R152, R159, R160) -/

theorem keyline_boundary (k : Schedule) (f : Time) : (laterEvents k f).length + (dueEvents k f).length = k.events.length := by
  unfold laterEvents dueEvents
  rw [Nat.add_comm]
  exact (List.length_eq_length_filter_add _).symm

/-- What a composition leaves of the schedule, put back in order: events of the schedule, those left FIRM. -/
theorem walks_keepEvents {f : Time} {c : Comp} {left : List KeyEvent} (sub : left.Sublist (dueEvents s.keys f))
    (kept : c.kept = left) : Walks s { s with keys := keepEvents f c s.keys } := by
  refine walks_keys (fun fits => ?_) (fun order => ?_) fun below e member => ?_
  · have parts := keyline_boundary s.keys f
    have fewer := sub.length_le
    show (orderSchedule _).length ≤ _
    rw [length_orderSchedule, List.length_append, kept]
    omega
  · refine scheduleInOrder_orderSchedule fun e member provisional => ?_
    obtain inKept | inLater := List.mem_append.mp member
    · have due := (List.mem_filter.mp (sub.subset (kept ▸ inKept))).2
      simp [provisional] at due
    · exact order.2 e (List.mem_filter.mp inLater).1 provisional
  · obtain inKept | inLater := List.mem_append.mp (mem_orderSchedule.mp member)
    · exact below.2.1 e (List.mem_filter.mp (sub.subset (kept ▸ inKept))).1
    · exact below.2.1 e (List.mem_filter.mp inLater).1

/-- Stops and expression of the map written, its keys as they were. -/
theorem keeps_mapStops {m : SoundingMap} (keys : m.keys = s.map.keys) : Keeps s { s with map := m } := by
  refine (Keeps.refl s).mapLeak (l := s.leak) (fun canonical => keys ▸ canonical) id fun _ mask => ?_
  obtain ⟨agrees, silent, canonical, range, below⟩ := mask
  refine ⟨fun c small => ?_, ?_, ?_⟩
  · rw [agrees c small, downOfClass_eq, downOfClass_eq]
    show _ = List.countP _ m.keys.cells
    rw [keys]
  · unfold silentWhenOff anyDown at *
    dsimp only
    rwa [keys]
  · unfold keysInRange at *
    rwa [keys]

theorem applyStop_keys (o : Organ) (m : SoundingMap) (e : StopEntry) : (applyStop o m e).keys = m.keys := by
  unfold applyStop
  split <;> rfl

theorem keeps_composeStops (f : Time) (room : Nat) : Keeps s (composeStops f room s).1 := by
  have stopped : Keeps s { s with map := (takeStops f room s.keyline.stopQueue).1.foldl (applyStop s.organ) s.map } :=
    keeps_mapStops (foldl_keeps SoundingMap.keys (applyStop_keys s.organ) _ _)
  refine stopped.trans ?_
  exact keeps_keylineOn id

theorem keeps_addRefresh (n : Nat) : Keeps s (addRefresh n s).1 := keeps_keylineOn id

theorem keeps_reportSlips (f : Time) (slipped : List KeyEvent) : Keeps s (reportSlips f slipped s) := by
  unfold reportSlips
  split
  · exact keeps_keylineOn id
  · dsimp only
    refine Keeps.trans ?_ (keeps_raise _)
    exact keeps_keylineOn id

/-- The events of a composition behind its releases, and what is left put back in the schedule. -/
theorem keeps_composedEvents (f : Time) (limit : Option Nat) (slots : List (Division × Nat)) (on : KeylineOn s) :
    let c := (dueEvents s.keys f).foldl (composeEvent f limit) { composeReleases f s with slots := slots }
    Keeps s { c.state with keys := keepEvents f c c.state.keys } := by
  intro c
  obtain ⟨released, none⟩ := composeReleases_spec f on (s := s)
  obtain ⟨events, left, sub, kept⟩ := composeEvents_spec f limit (dueEvents s.keys f)
    { composeReleases f s with slots := slots } (released.on on)
    fun e member => released.keys ▸ (List.mem_filter.mp member).1
  have whole := released.trans events
  have keys : c.state.keys = s.keys := whole.keys
  refine whole.keeps.trans (walks_keepEvents (s := c.state) (keys ▸ sub) ?_).keeps
  rw [kept]
  exact (congrArg (· ++ left) none).trans (List.nil_append left)

theorem keeps_composeRunning (f : Time) (on : KeylineOn s) : Keeps s (composeRunning f s).1 := by
  refine Keeps.trans ?_ (keeps_addRefresh 1)
  refine Keeps.trans ?_ (keeps_composeStops f _)
  refine Keeps.trans ?_ (keeps_reportSlips f _)
  refine Keeps.trans (keeps_composedEvents f (some Config.changeSlots)
    ((owedGroups s.keyline.carry (groupsOf (cipherDue s.map f))).take Config.changeSlots) on) ?_
  exact keeps_keylineOn id

theorem keeps_composeFault (f : Time) (on : KeylineOn s) : Keeps s (composeFault f s).1 := by
  refine Keeps.trans ?_ (keeps_addRefresh _)
  refine Keeps.trans ?_ (keeps_composeStops f _)
  refine Keeps.trans (keeps_composedEvents f none (composeReleases f s).slots on) ?_
  exact keeps_keylineOn id

theorem keeps_composeSweep : Keeps s (composeSweep s).1 := by
  refine Keeps.trans ?_ (keeps_addRefresh 1)
  exact keeps_keylineOn id

theorem keeps_compose (f : Time) : Keeps s (compose f s).1 := by
  unfold compose
  split
  · rename_i state
    exact keeps_composeRunning f (by simp [KeylineOn, state])
  · rename_i state
    exact keeps_composeFault f (by simp [KeylineOn, state])
  · exact keeps_composeSweep
  · exact .refl s

/-! ### Echoes and frame starts (R149 to R151) -/

theorem keeps_enterFault (n : Nat) (x : EchoOutcome) : Keeps s (enterFault n x s) := by
  refine Keeps.trans ?_ (keeps_raise _)
  exact keeps_keylineOn nofun

theorem keeps_stateAfterJudgement (n : Nat) (x : EchoOutcome) : Keeps s (stateAfterJudgement n x s) := by
  unfold stateAfterJudgement
  split
  · exact .refl s
  · split
    · exact keeps_enterFault n x
    · exact .refl s
  · split
    · refine Keeps.trans ?_ (keeps_raise _)
      exact keeps_keylineOn nofun
    · exact .refl s
  · split
    · split
      · exact keeps_enterFault n x
      · dsimp only
        split
        · refine Keeps.trans ?_ (keeps_raise _)
          exact keeps_keylineOn nofun
        · exact keeps_keylineOn nofun
    · exact .refl s

@[simp] theorem countEcho_state (x : EchoOutcome) (k : Keyline) : (countEcho x k).state = k.state := by
  unfold countEcho
  dsimp only
  split <;> rfl

theorem keeps_judgeEcho : Keeps s (judgeEcho s) := by
  unfold judgeEcho
  split
  · exact .refl s
  · dsimp only
    refine Keeps.trans ?_ (keeps_stateAfterJudgement _ _)
    exact keeps_keylineOn fun off => (countEcho_state _ _).symm.trans off

theorem keeps_holdEcho (e : Echo) : Keeps s { s with keyline := holdEcho e s.keyline } := by
  refine keeps_keylineOn fun off => ?_
  unfold holdEcho at off
  split at off
  · assumption
  · split at off
    · exact off
    · split at off
      · exact off
      · split at off <;> exact off

theorem keeps_receiveEcho (bs : List Byte) : Keeps s (receiveEcho bs s) := by
  unfold receiveEcho
  split
  · exact keeps_holdEcho _
  · exact .refl s

theorem keeps_frameStages : Keeps s (frameStages s) := by
  have started : Keeps s { s with keyline := setNextStart s.now s.keyline } := keeps_keylineOn id
  have judged := started.trans keeps_judgeEcho
  let u := judgeEcho { s with keyline := setNextStart s.now s.keyline }
  have firmed : Keeps u { u with keys := firmPass s.now u.params.firmLead u.keys } :=
    (walks_keys (fun fits => (length_firmPass _ _ _).trans_le fits) (fun _ => scheduleInOrder_firmPass _ _ _)
      fun below => firmPass_key below.2.1).keeps
  have composed := (judged.trans firmed).trans (keeps_compose s.now)
  exact composed.trans (keeps_keylineOn id)

theorem keeps_frameStart : Keeps s (frameStart s) := by
  unfold frameStart
  dsimp only
  refine Keeps.trans ?_ keeps_idleIfDone
  split
  · exact (keeps_frameStages.trans walks_placesFreed.keeps).trans looks_settle.keeps
  · exact keeps_frameStages

/-! ### ALL_OFF and the keyline enable (R114, R160 to R162) -/

theorem allOffKeyline_state (o : Organ) (k : Keyline) (off : (allOffKeyline o k).state = .OFF) : k.state = .OFF := by
  unfold allOffKeyline at off
  split at off
  · assumption
  · cases off

theorem sound_enableOn : Sound s (enableOn s) := by
  unfold enableOn
  split
  · dsimp only
    refine Sound.trans (sound_params { s.params with enable := true }) ?_
    refine Keeps.sound ?_
    exact keeps_keylineOn nofun
  · exact .refl s

/-- The Keyline turned off where no key is down (R162). -/
theorem sound_enableOff (may : s.keyline.state ≠ .OFF → mayDisable s = true) : Sound s (enableOff s) := by
  unfold enableOff
  split
  · exact .refl s
  · rename_i on
    dsimp only
    refine Sound.trans (sound_params { s.params with enable := false }) ?_
    refine Keeps.sound (keeps_keyline fun _ _ => ?_)
    have allowed := may on
    simp only [mayDisable, Bool.and_eq_true, Bool.not_eq_true'] at allowed
    exact allowed.2

end

end Sys2Proof.Proofs
end

section
/-! PROOFS. What the requests of the hymn keep (R88 to R94, R111 to R114). -/

namespace Sys2Proof.Proofs

open Sys2Proof.Machine Sys2Proof.Laws Sys2Proof.Claims

variable {r s : State}

/-! ### ALL_OFF (R114, R130, R143, R161) -/

/-- R113 looks at no field of the Follower's but its record, which enters OFF. -/
theorem Keeps.stopNow {f : Follow} (kept : Keeps r s) : Keeps r (stopNow { s with follow := f }) := by
  let released := releaseHeld (s.player.sec.getD 0) { s with keys := cancelAll s.keys }
  have first := kept.trans (walks_cancelAll.trans (walks_releaseHeld (s.player.sec.getD 0))).keeps
  have unwatched := first.trans (keeps_keylineOn (k := { released.keyline with watch := none }) id)
  refine Keeps.trans ?_ keeps_emptyOnsets
  exact unwatched.silenced rfl (.inr rfl) rfl rfl rfl rfl rfl

/-- The Follower enters OFF where the Player stands in IDLE or STOPPING (R82). -/
theorem Keeps.followOff (kept : Keeps r s) (state : s.player.state = .IDLE ∨ s.player.state = .STOPPING) :
    Keeps r { s with follow := followOff s.follow } :=
  kept.followPlayer (p := s.player) (fun _ ⟨wait, fermata, _⟩ => ⟨wait, fermata, fun _ => rfl, fun _ => state⟩)
    id id fun _ => id

theorem keeps_allOff : Keeps s (allOff s) := by
  let cancelled : State := { s with keys := cancelAll s.keys }
  let silenced : State := silenceMap cancelled
  let swept : State := { silenced with keyline := allOffKeyline silenced.organ silenced.keyline }
  have quiet : Keeps s silenced := walks_cancelAll.keeps.trans keeps_silenceMap
  have kept : Keeps s swept := quiet.trans (keeps_keylineOn (allOffKeyline_state _ _))
  unfold allOff
  dsimp only
  refine Keeps.trans ?_ keeps_emptyOnsets
  split
  · exact kept.followOff (.inl ‹_›)
  · refine Keeps.trans ?_ keeps_idleIfDone
    split
    · exact kept.followOff (.inr ‹_›)
    · exact kept.stopNow

/-! ### The plan (R88 to R94) -/

/-- A plan whose entries are those of the verses 1 to `n`. -/
theorem planNumbered_of_versesTo {pl : Plan} {g : Nat → PlanEntry} {n : Nat} (verse : ∀ v, (g v).verse = v)
    (entries : pl.entries = (versesTo n).map g) (atMost : n ≤ 12) : PlanNumbered pl := by
  have length : pl.entries.length = n := by simp [entries, versesTo]
  refine ⟨?_, length ▸ atMost⟩
  rw [length, entries, List.map_map]
  exact (List.map_congr_left fun v _ => verse v).trans (List.map_id _)

theorem verse_of_find {v : Nat} {es : List PlanEntry} {e : PlanEntry}
    (found : es.find? (fun x => x.verse == v) = some e) : e.verse = v := by
  simpa using List.find?_some found

theorem verse_chosenEntry (pl : Plan) (es : List PlanEntry) (v : Nat) : (chosenEntry pl es v).verse = v := by
  unfold chosenEntry
  cases found : es.find? (fun e => e.verse == v) with
  | none => rfl
  | some e => exact verse_of_find found

theorem verseCount_of_startProblem {f : StartFields} (good : startProblem f = none) : f.verseCount ≤ 12 := by
  by_contra beyond
  unfold startProblem at good
  rw [if_pos fun within => beyond within.2] at good
  cases good

theorem planNumbered_buildPlan {f : StartFields} (es : List PlanEntry) (good : startProblem f = none) :
    PlanNumbered (buildPlan f es) :=
  planNumbered_of_versesTo (verse_chosenEntry _ es) rfl (verseCount_of_startProblem good)

theorem amendedCount_le {f : AmendFields} {pl : Plan} {n : Option Nat} (good : amendProblem f = none)
    (count : asOptional f.verseCount = some n) (numbered : PlanNumbered pl) : amendedCount pl n ≤ 12 := by
  cases n with
  | none => exact numbered.2
  | some c =>
    unfold amendProblem at good
    simp only [count] at good
    by_contra beyond
    have outside : decide (c ≤ 12) = false := by simpa [amendedCount] using beyond
    simp only [outside, Bool.and_false, Bool.not_false, if_true] at good
    split_ifs at good

theorem planNumbered_amendPlan {f : AmendFields} {pl : Plan} {n : Option Nat} {a : Option Bool}
    (es : List PlanEntry) (good : amendProblem f = none) (count : asOptional f.verseCount = some n)
    (numbered : PlanNumbered pl) : PlanNumbered (amendPlan pl n a es) := by
  refine planNumbered_of_versesTo (fun v => ?_) rfl (amendedCount_le good count numbered)
  split
  · exact verse_of_find ‹_›
  · cases found : pl.entries.find? (fun e => e.verse == v) with
    | none => rfl
    | some e => exact verse_of_find found

theorem keeps_answerAmendPlan (f : AmendFields) : Keeps s (answerAmendPlan f s).state := by
  unfold answerAmendPlan
  split
  · exact .refl s
  · exact .refl s
  · split
    · exact .refl s
    · rename_i good
      split
      · rename_i pl n a es stands count _ _
        unfold answerAmendFields
        split_ifs
        · exact .refl s
        · exact .refl s
        · exact .refl s
        · exact .refl s
        · refine keeps_playerPlan rfl rfl rfl (fun _ => reservationOpen_of_not_held nofun)
            (fun numbered other held => ?_) rfl
          obtain rfl := Option.some.inj held
          exact planNumbered_amendPlan _ good count (numbered pl stands)
      · exact .refl s

theorem firstUnlatched_eq_some {p : Player} {v : Nat} (first : firstUnlatched p = some v) :
    ∃ pl, p.plan = some pl ∧ ∃ e ∈ pl.entries, e.verse = v ∧ e.latched = false := by
  unfold firstUnlatched at first
  split at first
  · rename_i pl stands
    obtain ⟨e, found, verse⟩ := Option.map_eq_some_iff.mp first
    exact ⟨pl, stands, e, List.mem_of_find?_eq_some found, verse, by simpa using List.find?_some found⟩
  · cases first

theorem keeps_answerReservePlan : Keeps s (answerReservePlan s).state := by
  unfold answerReservePlan
  split
  · exact .refl s
  · split
    · exact .refl s
    · rename_i v first
      refine keeps_playerPlan rfl rfl rfl (fun _ w held => ?_) (planSound_of_eq rfl) rfl
      obtain rfl := Reservation.HELD.inj held
      exact firstUnlatched_eq_some first

/-! ### START_HYMN (R88, R89) -/

/-- The part of an accepted START_HYMN up to the opening verse's latch and the slot. -/
def opened (n : Nat) (pl : Plan) (opening : Nat) (s : State) : State :=
  let latched := latch (hymnStart pl opening).sec opening (passOverBelow opening
    { s with player := { playerAfterReset with plan := some pl, slot := some n } })
  { latched with store := setSlotState n .PLAYING latched.store }

theorem keeps_opened (n opening : Nat) {pl : Plan} (idle : s.player.state = .IDLE) (numbered : PlanNumbered pl) :
    Keeps s (opened n pl opening s) := by
  have planned : Keeps s { s with player := { playerAfterReset with plan := some pl, slot := some n } } := by
    refine keeps_player (fun bound => ⟨nofun, nofun, ?_⟩) (fun _ => reservationOpen_of_not_held nofun)
      (fun _ other held => ?_) fun _ member => absurd member List.not_mem_nil
    · exact ⟨fun _ => bound.2.2.mp (.inl idle), fun _ => .inl rfl⟩
    · obtain rfl := Option.some.inj held
      exact numbered
  exact ((planned.trans (keeps_passOverBelow opening)).trans (keeps_latch _ _)).trans
    (keeps_sameTunes (sameTunes_setSlotState _ _ _))

theorem offLatch_opened (n : Nat) (pl : Plan) (opening : Nat) :
    offLatch (opened n pl opening s).player = offLatch { playerAfterReset with plan := some pl, slot := some n } :=
  (offLatch_latch _ _).trans (offLatch_passOverBelow _)

/-- A hymn just opened: the Follower leads, and the Player in a state of its own with a wait that belongs there. -/
theorem keeps_hymnBegun (n opening : Nat) {pl : Plan} (idle : s.player.state = .IDLE) (numbered : PlanNumbered pl)
    {f : Follow} (lead : f.state = .LEAD) {p : Player}
    (wait : ∀ w, p.wait = some w → p.state = waitState w.kind)
    (state : p.state ≠ .IDLE ∧ p.state ≠ .STOPPING)
    (fermata : p.fermata = (opened n pl opening s).player.fermata)
    (plan : p.plan = (opened n pl opening s).player.plan)
    (reservation : p.reservation = (opened n pl opening s).player.reservation)
    (releases : p.releases = (opened n pl opening s).player.releases) :
    Keeps s { opened n pl opening s with follow := f, player := p } := by
  have none : p.fermata = none := by
    have standing : (offLatch (opened n pl opening s).player).fermata = Option.none := by
      rw [offLatch_opened]
      rfl
    exact fermata.trans standing
  refine (keeps_opened n opening idle numbered).followPlayer (fun _ _ => ⟨wait, ?_, ?_⟩) (fun reserved v held => ?_)
    (planSound_of_eq plan) fun q member => releases ▸ member
  · exact fun x stands => absurd (none.symm.trans stands) nofun
  · simp [state.1, state.2, lead]
  · obtain ⟨whole, stands, found⟩ := reserved v (reservation ▸ held)
    exact ⟨whole, plan.trans stands, found⟩

theorem keeps_startHymn (n : Nat) (h : Header) {pl : Plan} (opening : Nat) (idle : s.player.state = .IDLE)
    (numbered : PlanNumbered pl) : Keeps s (startHymn n h pl opening s) := by
  unfold startHymn
  dsimp only
  split
  · refine Keeps.trans ?_ keeps_follows
    let now := (opened n pl opening s).now
    let w : Wait := ⟨.start, .MINIMUM, hymnStart pl opening, timePlus now 0, now, now, now, false⟩
    let p : Player := { (opened n pl opening s).player with state := .START_WAIT, fence := .CLOSED, wait := some w }
    let f : Follow := (startFollow (hymnStart pl opening) h.nominal (opened n pl opening s)).follow
    have begun : Keeps s { opened n pl opening s with follow := f, player := p } := by
      refine keeps_hymnBegun n opening idle numbered rfl (fun x stands => ?_) ⟨nofun, nofun⟩ rfl rfl rfl rfl
      obtain rfl := Option.some.inj stands
      rfl
    have told : Keeps s (raise (.hymn .started n h.number)
        (retime { opened n pl opening s with follow := f, player := p })) :=
      (begun.trans walks_retime.keeps).trans (keeps_raise _)
    exact told
  · refine Keeps.trans ?_ keeps_follows
    refine Keeps.trans ?_ looks_settle.keeps
    refine Keeps.trans ?_ (walks_beginWalk _).keeps
    let sec := (hymnStart pl opening).sec
    let p : Player := { (opened n pl opening s).player with
      state := sectionState sec, sec := some sec, wait := none, gap := none }
    let f : Follow := (startFollow (hymnStart pl opening) h.nominal (opened n pl opening s)).follow
    have begun : Keeps s { opened n pl opening s with follow := f, player := p } :=
      keeps_hymnBegun n opening idle numbered rfl nofun (sectionState_on sec) rfl rfl rfl rfl
    have told : Keeps s (raise (.hymn .started n h.number)
        (retime { opened n pl opening s with follow := f, player := p })) :=
      (begun.trans walks_retime.keeps).trans (keeps_raise _)
    refine Keeps.trans ?_ (keeps_raise _)
    exact told

theorem keeps_answerStartHymn (f : StartFields) : Keeps s (answerStartHymn f s).state := by
  unfold answerStartHymn
  split
  · exact .refl s
  split
  · exact .refl s
  rename_i idle
  split
  · exact .refl s
  split
  · exact .refl s
  split
  · exact .refl s
  split
  · exact .refl s
  · exact .refl s
  rename_i es good _
  dsimp only
  split
  · exact .refl s
  split
  · exact .refl s
  split
  · exact .refl s
  split
  · exact .refl s
  · exact keeps_startHymn _ _ _ (not_not.mp idle) (planNumbered_buildPlan es good)

/-! ### GO and STOP_HYMN (R111 to R113) -/

theorem keeps_answerGo : Keeps s (answerGo s).state := by
  unfold answerGo
  split
  · exact .refl s
  · split
    · rename_i w waits
      have resumed := (Keeps.refl s).resumeWait (breathTime s) false
        fun bound _ => mayWait_of_wait bound (waitIn_eq_some_iff.mp waits).1
      exact resumed.trans keeps_follows
    · split
      · exact .refl s
      · exact keeps_playerRest rfl rfl rfl rfl rfl rfl

theorem keeps_answerStopHymn (mode amen : Nat) : Keeps s (answerStopHymn mode amen s).state := by
  unfold answerStopHymn
  split
  · unfold answerStopEndOfVerse
    split
    · exact .refl s
    · split
      · exact .refl s
      · split
        · exact .refl s
        · exact keeps_endOfVerse ‹_›
  · unfold answerStopNow
    split
    · exact .refl s
    · exact keeps_stopNow.trans keeps_idleIfDone
  · exact .refl s

end Sys2Proof.Proofs
end

section
/-! PROOFS. What the requests of the organ, the parameters, the notices and the link keep, and every command and
step with them. -/

namespace Sys2Proof.Proofs

open Sys2Proof.Machine Sys2Proof.Laws Sys2Proof.Claims

variable {r s : State}

/-! ### Divisions and registrations (R26 to R34) -/

theorem divGet_divSet {α : Type} (p : PerDivision α) (d e : Division) (x : α) :
    divGet (divSet p d x) e = if e = d then x else divGet p e := by
  cases d <;> cases e <;> rfl

theorem keyCount_clampDivision (f : DivisionFields) : (clampDivision f).keyCount ≤ 64 := by
  unfold clampDivision clampNat
  refine (Nat.min_le_left _ _).trans ?_
  split_ifs <;> omega

theorem wfCells_filter {α : Type} [DecidableEq α] {d : α} (p : Nat × α → Bool) {l : List (Nat × α)}
    (canonical : wfCells d l = true) : wfCells d (l.filter p) = true := by
  induction l with
  | nil => rfl
  | cons c rest ih =>
    obtain ⟨present, rising, restCanonical⟩ := wfCells_cons.mp canonical
    rw [List.filter_cons]
    split
    · exact wfCells_cons.mpr ⟨present, fun x member => rising x (List.mem_filter.mp member).1, ih restCanonical⟩
    · exact ih restCanonical

/-- A division's record written while the Keyline is OFF: no key is down, so no class holds one (R28). -/
theorem sound_writeDivision (d : Division) {new : DivisionRec} (off : s.keyline.state = .OFF)
    (count : new.keyCount ≤ 64) : Sound s (writeDivision d new s) := by
  have tables (canonical : tablesCanonical s = true) : tablesCanonical (writeDivision d new s) = true := by
    obtain ⟨pool, slots, registrations, keys, leak, raises⟩ := (tablesCanonical_iff s).mp canonical
    exact (tablesCanonical_iff _).mpr ⟨pool, slots, wfCells_map registrations, wfCells_filter _ keys, leak, raises⟩
  refine ⟨rfl, tables, And.right, id, id, id, id, id, fun mask => ?_⟩
  have silent := not_anyDown_of_off mask off
  have after : anyDown (writeDivision d new s).map = false := by
    refine List.any_eq_false.mpr fun c member => ?_
    exact List.any_eq_false.mp silent c (List.mem_filter.mp member).1
  obtain ⟨agrees, -, canonical, range, counts, below⟩ := mask
  refine ⟨fun c small => ?_, ?_, tables canonical, ?_, fun e => ?_, below⟩
  · rw [downOfClass_of_silent after]
    exact (agrees c small).trans (downOfClass_of_silent silent c)
  · simp [silentWhenOff, after]
  · exact List.all_eq_true.mpr fun c member => List.all_eq_true.mp range c (List.mem_filter.mp member).1
  · show (divGet (divSet s.organ.divisions d new) e).keyCount ≤ 64
    rw [divGet_divSet]
    split
    · exact count
    · exact counts e

theorem sound_answerSetDivision (n : Nat) (f : DivisionFields) : Sound s (answerSetDivision n f s).state := by
  unfold answerSetDivision
  split
  · exact .refl s
  split
  · exact .refl s
  split
  · exact .refl s
  split
  · exact .refl s
  rename_i off
  exact sound_writeDivision _ (not_not.mp off) (keyCount_clampDivision f)

theorem sound_writeRegistration (i : Nat) (g : Option Registration) : Sound s (writeRegistration i g s) := by
  have tables (canonical : tablesCanonical s = true) : tablesCanonical (writeRegistration i g s) = true := by
    obtain ⟨pool, slots, registrations, rest⟩ := (tablesCanonical_iff s).mp canonical
    exact (tablesCanonical_iff _).mpr ⟨pool, slots, Table.wf_set _ _ registrations, rest⟩
  exact ⟨rfl, tables, And.right, id, id, id, id, id, fun ⟨agrees, silent, canonical, rest⟩ =>
    ⟨agrees, silent, tables canonical, rest⟩⟩

theorem sound_answerSetRegistration (i : Nat) (g : Wire RegistrationFields) :
    Sound s (answerSetRegistration i g s).state := by
  unfold answerSetRegistration
  split
  · exact .refl s
  · split
    · exact .refl s
    · exact sound_writeRegistration i none
    split
    · exact .refl s
    split
    · exact .refl s
    split
    · exact .refl s
    split
    · exact .refl s
    · exact sound_writeRegistration i _

/-! ### The notices and flags (R175 to R178) -/

theorem offerNotice_fits (x : Raise) {f : Flags} (fits : NoticesFit f) : NoticesFit (offerNotice f x) := by
  unfold offerNotice NoticesFit
  split
  · rename_i room
    simp only [List.length_append, List.length_singleton]
    omega
  · exact fits

theorem enableNotices_keeps (global : Bool) (enables : BitVec 18) (f : Flags) :
    (enableNotices global enables f).raised = f.raised ∧ (NoticesFit f → NoticesFit (enableNotices global enables f)) := by
  have all (l : List Flag) (f₀ : Flags) (g : Flag → Bool) (acc : Flags) :
      let out := l.foldl (fun acc x => match raiseRecord f₀ x with
        | some y => if g x then offerNotice acc y else acc
        | none => acc) acc
      out.raised = acc.raised ∧ (NoticesFit acc → NoticesFit out) := by
    induction l generalizing acc with
    | nil => exact ⟨rfl, id⟩
    | cons x rest ih =>
      simp only [List.foldl_cons]
      split
      · split
        · obtain ⟨raised, fits⟩ := ih (offerNotice acc _)
          exact ⟨raised.trans (offerNotice_raised _ _), fits ∘ offerNotice_fits _⟩
        · exact ih acc
      · exact ih acc
  exact all allFlags f (fun x => !noticesEnabled f x && noticesEnabled { f with global := global, enables := enables } x)
    { f with global := global, enables := enables }

theorem keeps_answerSetNotices (g e : Nat) : Keeps s (answerSetNotices g e s).state := by
  unfold answerSetNotices
  split
  · exact .refl s
  · obtain ⟨raised, fits⟩ := enableNotices_keeps (g == 1) (BitVec.ofNat 18 e) s.flags
    refine keeps_flags (fun canonical => ?_) fits
    unfold RaisesCanonical
    rwa [raised]

theorem keeps_answerFetchNotices : Keeps s (answerFetchNotices s).state :=
  keeps_flags id fun fits => (List.drop_sublist _ _).length_le.trans fits

theorem lowerFlags_keeps (set : Nat) (f : Flags) :
    (RaisesCanonical f → RaisesCanonical (lowerFlags set f)) ∧ (lowerFlags set f).queue = f.queue := by
  have all (l : List Flag) (acc : Flags) :
      let out := l.foldl (fun acc g => if set.testBit (flagNumber g - 1) then lowerFlag g acc else acc) acc
      (RaisesCanonical acc → RaisesCanonical out) ∧ out.queue = acc.queue := by
    induction l generalizing acc with
    | nil => exact ⟨id, rfl⟩
    | cons x rest ih =>
      simp only [List.foldl_cons]
      split
      · obtain ⟨raised, queue⟩ := ih (lowerFlag x acc)
        exact ⟨fun canonical => raised (Table.wf_set _ _ canonical), queue⟩
      · exact ih acc
  exact all allFlags f

theorem keeps_answerAckFlags (set : Nat) : Keeps s (answerAckFlags set s).state := by
  unfold answerAckFlags
  split
  · exact .refl s
  · obtain ⟨raised, queue⟩ := lowerFlags_keeps set s.flags
    have lowered : Keeps s { s with flags := lowerFlags set s.flags } := by
      refine keeps_flags raised fun fits => ?_
      unfold NoticesFit
      rwa [queue]
    dsimp only
    split
    · exact lowered.trans keeps_clearStoreFault
    · exact lowered

/-! ### The parameters (R181 to R183) -/

theorem keeps_reconsiderWindow : Keeps s (reconsiderWindow s) := by
  unfold reconsiderWindow
  split
  · split
    · dsimp only
      split
      · exact (looks_recompute.trans (looks_takeDecision _)).keeps
      · exact looks_recompute.keeps
    · exact .refl s
  · exact .refl s

theorem maxWaitDue_spec {w : Wait} (due : maxWaitDue s = some w) : s.player.wait = some w := by
  unfold maxWaitDue at due
  split at due
  · rename_i v waits
    split at due
    · split at due
      · obtain rfl := Option.some.inj due
        exact (waitIn_eq_some_iff.mp waits).1
      · cases due
    · cases due
  · cases due

theorem keeps_expireMaxWait {w : Wait} (waits : s.player.wait = some w) : Keeps s (expireMaxWait w s) :=
  ((Keeps.refl s).resumeWait _ _ fun bound _ => mayWait_of_wait bound waits).trans keeps_follows

theorem keeps_maxWaitNow : Keeps s (maxWaitNow s) := by
  unfold maxWaitNow
  split
  · exact keeps_expireMaxWait (maxWaitDue_spec ‹_›)
  · exact .refl s

theorem pullIn_holders (t : Time) (e : KeyEntry) : (pullIn t e).holders = e.holders := by
  unfold pullIn
  split <;> rfl

theorem keeps_pullInDeadlines : Keeps s (pullInDeadlines s) := by
  refine keeps_keyCells (fun _ => rfl) (fun c => pullIn_holders _ c.2) fun c up => ?_
  simp [pullIn, up]

theorem keeps_actAtOnce (n : Nat) : Keeps s (actAtOnce n s) := by
  unfold actAtOnce
  split
  · exact keeps_reconsiderWindow
  · exact keeps_reconsiderWindow
  · exact looks_checkLost.keeps
  · exact keeps_maxWaitNow
  · exact keeps_pullInDeadlines
  · exact .refl s

theorem sound_takeParam (n v : Nat) (may : n = 21 → v ≠ 1 → s.keyline.state ≠ .OFF → mayDisable s = true) :
    Sound s (takeParam n v s) := by
  unfold takeParam
  split
  · refine Keeps.sound ?_
    exact keeps_keylineOn id
  · split
    · split
      · exact sound_enableOn
      · exact sound_enableOff (may ‹_› ‹_›)
    · have put : Sound s { s with params := putParam n v s.params } := sound_params _
      dsimp only
      split
      · exact put.trans keeps_judgeBacklog.sound
      · split
        · exact put
        · exact put.trans (keeps_actAtOnce n).sound

/-- An enable that was not refused and is not on is off, and may be turned off (R162, R181). -/
theorem mayDisable_of_not_refused {v : Int} (accepted : paramRefused 21 v s = none)
    (notOn : clampParam 21 v s ≠ 1) (on : s.keyline.state ≠ .OFF) : mayDisable s = true := by
  by_contra refused
  have within : 0 ≤ v ∧ v ≤ 1 := by
    by_contra outside
    unfold paramRefused at accepted
    split_ifs at accepted with _ _ _ choice
    exact choice ⟨rfl, by simpa [paramBounds] using outside⟩
  have zero : v = 0 := by
    have value : clampParam 21 v s = v.toNat := by
      show (clampInt 0 1 v).toNat = v.toNat
      unfold clampInt
      split_ifs <;> omega
    omega
  unfold paramRefused at accepted
  simp [zero, on, refused] at accepted

theorem sound_answerSetParam (n : Nat) (v : Int) : Sound s (answerSetParam n v s).state := by
  unfold answerSetParam
  split
  · exact .refl s
  · rename_i accepted
    refine sound_takeParam n _ fun number notOn on => ?_
    subst number
    exact mayDisable_of_not_refused accepted notOn on

/-! ### The owners' answers, and the Console Link (R168 to R173) -/

theorem sound_answer (q : Request) : Sound s (answer q s).state := by
  cases q with
  | identify | getFollow | getPlan | reset => exact .refl s
  | getStatus => exact sound_link id id
  | setParam n v => exact sound_answerSetParam n v
  | getParam n =>
    show Sound s (answerGetParam n s).state
    unfold answerGetParam
    split <;> exact .refl s
  | setDivision d f => exact sound_answerSetDivision d f
  | getDivision d =>
    show Sound s (answerGetDivision d s).state
    unfold answerGetDivision
    split <;> exact .refl s
  | setRegistration i g => exact sound_answerSetRegistration i g
  | getRegistration i =>
    show Sound s (answerGetRegistration i s).state
    unfold answerGetRegistration
    split <;> exact .refl s
  | tuneBegin n h => exact sound_answerTuneBegin n h
  | tuneSteps n i l => exact sound_answerTuneSteps n i l
  | tuneEnd n => exact (keeps_answerTuneEnd n).sound
  | tuneErase n => exact sound_answerTuneErase n
  | tuneRead n i c => exact (keeps_answerTuneRead n i c).sound
  | getDirectory n =>
    show Sound s (answerGetDirectory n s).state
    unfold answerGetDirectory
    split <;> exact .refl s
  | clearStore => exact sound_answerClearStore
  | startHymn f => exact (keeps_answerStartHymn f).sound
  | go => exact keeps_answerGo.sound
  | stopHymn m a => exact (keeps_answerStopHymn m a).sound
  | allOff => exact keeps_allOff.sound
  | reservePlan => exact keeps_answerReservePlan.sound
  | amendPlan f => exact (keeps_answerAmendPlan f).sound
  | setNotices g e => exact (keeps_answerSetNotices g e).sound
  | fetchNotices => exact keeps_answerFetchNotices.sound
  | ackFlags f => exact (keeps_answerAckFlags f).sound

theorem sound_takeRequest (q : Queued) : Sound s (takeRequest q s) := by
  have answered : Sound s (answerQueued q s).state := by
    unfold answerQueued
    split
    · exact sound_answer _
    · exact .refl s
    · exact .refl s
  exact answered.trans (sound_link id id)

theorem sound_pump : Sound s (pump s) := by
  unfold pump
  split
  · exact .refl s
  · split
    · exact sound_takeRequest _
    · exact .refl s

theorem sound_submit (q : Queued) : Sound s (submit q s) := by
  unfold submit
  split
  · rename_i room
    refine Sound.trans ?_ sound_pump
    refine sound_link (fun _ => ?_) id
    simp only [List.length_append, List.length_singleton]
    omega
  · split
    · rename_i room
      refine sound_link id fun _ => ?_
      simp only [List.length_append, List.length_singleton]
      omega
    · exact sound_link id id

theorem sound_consoleReset : Sound s (consoleReset s) := by
  have silenced := keeps_silenceMap (s := s)
  have stored := silenced.trans keeps_storeAfterConsoleReset
  have heard := stored.trans (keeps_listen (l := listenAfterReset s.now s.listen.analyses) fun _ => Nat.zero_le _)
  have stopped := heard.followPlayer (f := followAfterReset) (p := playerAfterReset)
    (fun _ _ => ⟨nofun, nofun, fun _ => rfl, fun _ => .inl rfl⟩) (fun _ => reservationOpen_of_not_held nofun)
    (fun _ => nofun) fun _ member => absurd member List.not_mem_nil
  have emptied := stopped.trans (walks_keys (k := keysAfterReset) (fun _ => Nat.zero_le _)
    (fun _ => scheduleInOrder_nil _ _) fun _ _ member => absurd member List.not_mem_nil).keeps
  have swept := emptied.trans (keeps_keylineOn (k := keylineAfterConsoleReset s.organ s.keyline)
    (allOffKeyline_state s.organ s.keyline))
  have lowered := swept.trans (keeps_flags (f := flagsAfterReset) (fun _ => rfl) fun _ => Nat.zero_le _)
  exact lowered.sound.trans (sound_link (l := linkAfterConsoleReset s.link) (fun _ => Nat.zero_le _)
    fun _ => Nat.zero_le _)

theorem sound_nextReply : Sound s (nextReply s) := by
  unfold nextReply
  split
  · rename_i b rest content
    refine sound_link id fun fits => ?_
    rw [content] at fits
    exact (Nat.le_succ _).trans fits
  · exact sound_pump

theorem sound_replyDone : Sound s (replyDone s) := by
  unfold replyDone
  split
  · exact .refl s
  · split
    · exact sound_consoleReset
    · refine Sound.trans (sound_link ?_ ?_) sound_nextReply
      · unfold finishReply
        split
        · exact fun fits => (List.drop_sublist _ _).length_le.trans fits
        · exact id
      · unfold finishReply
        split <;> exact id

theorem sound_huntByte (b : Byte) : Sound s (huntByte b s) := by
  unfold huntByte
  split
  · exact sound_link id id
  · exact .refl s

theorem sound_expireFrame : Sound s (expireFrame s) := sound_link id id

theorem sound_closeFrame (bs : List Byte) : Sound s (closeFrame bs s) := by
  have hunting : Sound s { s with link := hunt s.link } := sound_link id id
  unfold closeFrame
  dsimp only
  split
  · split
    · exact hunting.trans (sound_submit _)
    · exact hunting
  · exact sound_link id id

theorem sound_receiveLevels (levels : List Bool) : Sound s (receiveLevels levels s) := by
  unfold receiveLevels
  split
  · unfold receiveLine
    split
    · exact sound_huntByte _
    · exact .refl s
    · split
      · exact sound_expireFrame.trans (sound_huntByte _)
      · unfold assemble
        dsimp only
        split
        · exact sound_link id id
        · split
          · exact sound_closeFrame _
          · exact sound_link id id
    · split
      · exact sound_expireFrame
      · exact sound_link id id
  · exact .refl s

/-! ### Hearing and walking (R39 to R57, R67, R96 to R109) -/

theorem keeps_hearOnset (o : Onset) : Keeps s (hearOnset o s) := by
  unfold hearOnset
  split
  · dsimp only
    split
    · split
      · exact ((keeps_joinOnset o).trans (keeps_knowOnset _)).trans keeps_follows
      · exact (keeps_joinOnset o).trans (keeps_knowOnset _)
    · exact keeps_joinOnset o
  · exact .refl s

theorem detect_queue (a b : HopInput) : (detect s a b).2.queue = s.listen.queue := by
  unfold detect
  dsimp only
  split <;> rfl

theorem keeps_completeHop (a b : HopInput) : Keeps s (completeHop a b s) := by
  have measured : Keeps s { s with listen := (detect s a b).2 } :=
    keeps_listen fun fits => (congrArg List.length (detect_queue a b)).trans_le fits
  unfold completeHop
  dsimp only
  split
  · exact measured.trans (keeps_hearOnset _)
  · exact measured

theorem keeps_loseChannel (c : Channel) : Keeps s (loseChannel c s) := by
  unfold loseChannel
  split
  · dsimp only
    refine Keeps.trans ?_ (keeps_raise _)
    refine keeps_listen fun fits => ?_
    cases c <;> split <;> exact fits
  · exact .refl s

theorem keeps_openWindow : Keeps s (openWindow s) := by
  unfold openWindow
  split
  · split
    · exact keeps_follow .rfl
    · exact .refl s
  · exact .refl s

theorem keeps_closeWindow : Keeps s (closeWindow s) := by
  unfold closeWindow
  split
  · split
    · exact keeps_follow .rfl
    · exact .refl s
  · exact .refl s

theorem keeps_decideNow : Keeps s (decideNow s) := by
  unfold decideNow
  split
  · split
    · exact (looks_takeDecision _).keeps
    · exact .refl s
  · exact .refl s

theorem keeps_fermataNow : Keeps s (fermataNow s) := by
  unfold fermataNow
  split
  · split
    · exact (keeps_enterFermata (fermataDue_spec ‹_›)).trans keeps_follows
    · exact .refl s
  · exact .refl s

theorem keeps_fermataBackNow : Keeps s (fermataBackNow s) := by
  unfold fermataBackNow
  split
  · exact (keeps_returnFromFermata ‹_›).trans keeps_follows
  · exact .refl s

theorem keeps_sectionEndNow : Keeps s (sectionEndNow s) := by
  unfold sectionEndNow
  split
  · split
    · exact (keeps_endSection _ (sectionEndDue_spec ‹_›)).trans keeps_follows
    · exact .refl s
  · exact .refl s

theorem keeps_gapEndNow : Keeps s (gapEndNow s) := by
  unfold gapEndNow
  split
  · rename_i due
    exact (keeps_enterSection _ fun _ => .inl (gapDue_spec due)).trans keeps_follows
  · exact .refl s

theorem keeps_minimumEndNow : Keeps s (minimumEndNow s) := by
  unfold minimumEndNow
  split
  · rename_i waits
    split
    · exact (keeps_endMinimum (waitIn_eq_some_iff.mp waits).1).trans keeps_follows
    · exact .refl s
  · exact .refl s

theorem keeps_breathEndNow : Keeps s (breathEndNow s) := by
  unfold breathEndNow
  split
  · rename_i waits
    split
    · exact (keeps_endBreath (waitIn_eq_some_iff.mp waits).1).trans keeps_follows
    · exact .refl s
  · exact .refl s

/-! ### Every command and every step -/

theorem playerBound_afterFullReset (straps : BitVec 2) (n : Nat) : PlayerBound (afterFullReset straps n) :=
  ⟨nofun, nofun, fun _ => rfl, fun _ => .inl rfl⟩

theorem maskAgrees_afterFullReset (straps : BitVec 2) (n : Nat) : MaskAgrees (afterFullReset straps n) := by
  refine ⟨fun _ _ => rfl, rfl, rfl, rfl, fun d => ?_, fun _ member => absurd member List.not_mem_nil,
    fun _ member => absurd member List.not_mem_nil⟩
  cases d <;> exact Nat.le_of_ble_eq_true rfl

/-- The reset values have every property that the steps keep. -/
theorem sound_afterFullReset (straps : BitVec 2) (n : Nat) :
    Sound s { afterFullReset straps n with pending := s.pending } where
  pending := rfl
  tables := fun _ => rfl
  divided := fun _ => poolDivided_clearing _
  fits := fun _ => rfl
  order := fun _ => scheduleInOrder_nil _ _
  bound := fun _ => playerBound_afterFullReset straps n
  reserved := fun _ => nofun
  numbered := fun _ => nofun
  mask := fun _ => maskAgrees_afterFullReset straps n

theorem onService_eq_next {dt : Nat} {f : State → State} {t : State} (next : onService dt f s = .next t) :
    t = s ∨ t = f (elapse dt s) := by
  unfold onService at next
  split at next
  · exact .inl (Host.Outcome.next.inj next).symm
  · exact .inr (Host.Outcome.next.inj next).symm

theorem keeps_onService {dt : Nat} {f : State → State} {t : State} (kept : ∀ u, Keeps u (f u))
    (next : onService dt f s = .next t) : Keeps s t := by
  obtain rfl | rfl := onService_eq_next next
  · exact .refl t
  · exact Keeps.trans (keeps_now _) (kept (elapse dt s))

theorem sound_onService {dt : Nat} {f : State → State} {t : State} (kept : ∀ u, Sound u (f u))
    (next : onService dt f s = .next t) : Sound s t := by
  obtain rfl | rfl := onService_eq_next next
  · exact .refl t
  · exact (keeps_now _).sound.trans (kept (elapse dt s))

theorem sound_request (tag : Byte) (q : Request) : Sound s (request tag q s) := sound_submit _

theorem keeps_ifDue {b : State → Bool} {f : State → State} (kept : ∀ u, Keeps u (f u)) (u : State) :
    Keeps u (if b u then f u else u) := by
  split
  · exact kept u
  · exact .refl u

theorem sound_frameTimeout (u : State) : Sound u (if frameTimeoutDue u then expireFrame u else u) := by
  split
  · exact sound_expireFrame
  · exact .refl u

theorem sound_holdInReset (c : ResetCause) : Sound s (holdInReset c s) := by
  have held : Sound s { s with heldInReset := true } := ⟨rfl, id, And.right, id, id, id, id, id, id⟩
  unfold holdInReset
  split
  · split
    · exact .refl s
    · exact held
  · exact held

/-- The events of the part's own blocks keep every invariant, and what only requests write. -/
theorem keeps_blockEvent {c : Instr} {t : State} (block : blockEvent c = true) (next : exec c s = .next t) :
    Keeps s t := by
  cases c with
  | clearingEnd => exact keeps_onService (fun _ => keeps_endClearing) next
  | inputLost => exact keeps_onService (fun _ => keeps_loseChannel _) next
  | hopComplete => exact keeps_onService (keeps_ifDue fun _ => keeps_completeHop _ _) next
  | windowOpen => exact keeps_onService (fun _ => keeps_openWindow) next
  | windowClose => exact keeps_onService (fun _ => keeps_closeWindow) next
  | windowDecision => exact keeps_onService (fun _ => keeps_decideNow) next
  | lostTime => exact keeps_onService (fun _ => looks_checkLost.keeps) next
  | stepEntry => exact keeps_onService (keeps_ifDue (b := fun u => (entryDue u).isSome) fun _ => looks_settle.keeps) next
  | stepSoundTime => exact keeps_onService (keeps_ifDue fun _ => looks_settle.keeps) next
  | fermataSoundTime => exact keeps_onService (fun _ => keeps_fermataNow) next
  | fermataRebasedTime => exact keeps_onService (fun _ => keeps_fermataBackNow) next
  | sectionEnd => exact keeps_onService (fun _ => keeps_sectionEndNow) next
  | gapEnd => exact keeps_onService (fun _ => keeps_gapEndNow) next
  | minimumEnd => exact keeps_onService (fun _ => keeps_minimumEndNow) next
  | maxWaitExpiry => exact keeps_onService (fun _ => keeps_maxWaitNow) next
  | breathEnd => exact keeps_onService (fun _ => keeps_breathEndNow) next
  | frameStart => exact keeps_onService (keeps_ifDue fun _ => keeps_frameStart) next
  | echoReceived => exact keeps_onService (fun _ => keeps_receiveEcho _) next
  | _ => cases block

/-- Every command keeps every invariant of the part. -/
theorem sound_exec {c : Instr} {t : State} (next : exec c s = .next t) : Sound s t := by
  by_cases block : blockEvent c = true
  · exact (keeps_blockEvent block next).sound
  · cases c with
    | fullReset straps =>
      cases next
      exact sound_afterFullReset straps _
    | consoleReset => exact sound_onService (fun _ => sound_consoleReset) next
    | receiveFrame => exact sound_onService (fun _ => sound_submit _) next
    | frameTimeout => exact sound_onService sound_frameTimeout next
    | replySent => exact sound_onService (fun _ => sound_replyDone) next
    | heldInReset => exact sound_onService (fun _ => sound_holdInReset _) next
    | byteReceived => exact sound_onService (fun _ => sound_receiveLevels _) next
    | identify | getStatus | getFollow | setParam | keylineEnableOn | keylineEnableOff | getParam | setDivision
    | getDivision | setRegistration | getRegistration | tuneBegin | tuneSteps | tuneEnd | tuneErase | tuneRead
    | getDirectory | clearStore | startHymn | go | stopHymnEndOfVerse | stopHymnNow | allOff | reservePlan
    | amendPlan | getPlan | setNotices | fetchNotices | ackFlags | reset =>
      exact sound_onService (fun _ => sound_request _ _) next
    | _ => exact absurd rfl block

/-- A step keeps every invariant; which commands wait is no part of one. -/
theorem sound_step {t : State} (next : step s = .next t) : Sound { s with pending := t.pending } t := by
  unfold step at next
  split at next
  · rename_i c rest _
    have kept := sound_exec next
    have same : t.pending = rest := kept.pending
    subst same
    exact kept
  · have kept : Sound s t := by
      unfold idle at next
      split at next
      · cases next
        exact .refl s
      · split at next
        · exact sound_exec next
        · cases next
          exact (keeps_now _).sound
    rw [kept.pending]
    exact kept

/-- Every command but a full reset is taken in service only. -/
theorem exec_eq_onService {c : Instr} (command : ∀ straps, c ≠ .fullReset straps) :
    ∃ dt f, ∀ s, exec c s = onService dt f s := by
  cases c with
  | fullReset straps => exact absurd rfl (command straps)
  | frameTimeout dt => exact ⟨dt, fun t => if frameTimeoutDue t then expireFrame t else t, fun _ => rfl⟩
  | hopComplete dt a b => exact ⟨dt, fun t => if hopDue a b t then completeHop a b t else t, fun _ => rfl⟩
  | frameStart dt => exact ⟨dt, fun t => if frameDue t then frameStart t else t, fun _ => rfl⟩
  | _ => exact ⟨_, _, fun _ => rfl⟩

/-- No command stops the part. -/
theorem exec_answers (c : Instr) (s : State) : ∃ t, exec c s = .next t := by
  by_cases reset : ∃ straps, c = .fullReset straps
  · obtain ⟨straps, rfl⟩ := reset
    exact ⟨_, rfl⟩
  · obtain ⟨dt, f, same⟩ := exec_eq_onService fun straps eq => reset ⟨straps, eq⟩
    rw [same]
    exact onService_answers dt f s

/-! ### The obligations -/

/-- Settles O56: every operation of the part keeps the division of the pool and the form of the tables (`Sound`). -/
theorem storeStaysSound : Obligations.StoreStaysSound :=
  fun _ _ sound next => (sound_step next).store sound

/-- Settles O57: every operation of the part keeps the queues and the order of the schedule (`Sound`). -/
theorem queuesStayWithinCapacity : Obligations.QueuesStayWithinCapacity :=
  fun _ _ => ⟨fun fits next => (sound_step next).fits fits, fun order next => (sound_step next).order order⟩

/-- Settles O58: every operation of the part keeps the bonds of the Player's records (`Sound`). -/
theorem playerRecordsStayBound : Obligations.PlayerRecordsStayBound :=
  fun _ _ => ⟨fun bound next => (sound_step next).bound bound, fun reserved next => (sound_step next).reserved reserved,
    fun numbered next => (sound_step next).numbered numbered⟩

/-- Settles O59: every operation of the part keeps the held counts and what they rest on (`Sound`). -/
theorem maskKeepsAgreeing : Obligations.MaskKeepsAgreeing :=
  fun _ _ mask next => (sound_step next).mask mask

/-- Settles O2: a command keeps the queue of waiting commands (`Sound`), a block event what only requests write
(`Keeps`). -/
theorem commandsAnswerNextWithinTheirBlocks : Obligations.CommandsAnswerNextWithinTheirBlocks := by
  intro c s
  obtain ⟨t, next⟩ := exec_answers c s
  refine ⟨t, next, (sound_exec next).pending, fun block => ?_⟩
  have kept := keeps_blockEvent block next
  exact ⟨kept.link, kept.params, kept.organ, kept.held, kept.pool, kept.runs⟩

/-- Settles O60: a blank part with one free run, read invariant by invariant. -/
theorem resetIsSound : Obligations.ResetIsSound :=
  ⟨⟨rfl, poolDivided_clearing _⟩, rfl, playerBound_afterFullReset _ _, nofun, nofun, maskAgrees_afterFullReset _ _,
    scheduleInOrder_nil _ _⟩

/-- Settles O1: by the queue of waiting commands, empty or not. -/
theorem stepTakesTheNextCommand : Obligations.StepTakesTheNextCommand := by
  refine ⟨fun _ _ _ => rfl, fun s empty => ⟨fun held => ?_, fun live none => ?_, fun c rest live first => ?_⟩⟩
  · simp [step, empty, idle, held]
  · simp [step, empty, idle, live, none, elapse]
  · simp [step, empty, idle, live, first]

/-- Settles O3: the values of `afterFullReset`, read store by store. -/
theorem fullResetGivesResetValues : Obligations.FullResetGivesResetValues := by
  intro straps s
  have silent (v : Voice) : voiceGet playerAfterReset.channels v = ⟨none, 0⟩ := by cases v <;> rfl
  have player : PlayerAtReset playerAfterReset :=
    ⟨rfl, rfl, rfl, rfl, rfl, silent, rfl, rfl, rfl, rfl, rfl, rfl, rfl, rfl, rfl⟩
  have keyline : KeylineAtReset keylineAfterReset := by
    refine ⟨?_, ?_, ?_, ?_, ?_, ?_, ?_, ?_, ?_, ?_, ?_, ?_, ?_, ?_, ?_, ?_, ?_⟩ <;> rfl
  have division (d : Division) : divRec organAfterReset d = ⟨false, 36, 61, 0, 0, 0, false, 0, 0, false⟩ := by
    cases d <;> rfl
  have stops (d : Division) : divGet mapAfterReset.stops d = 0#32 ∧ divGet mapAfterReset.expression d = 0 := by
    cases d <;> exact ⟨rfl, rfl⟩
  have flags (g : Flag) : flagUp flagsAfterReset g = false ∧ ownEnable flagsAfterReset g = false := by
    cases g <;> exact ⟨rfl, rfl⟩
  have channels (c : Channel) : channelState (listenAfterReset 0#32 s.listen.analyses) c = ⟨true, none⟩ := by
    cases c <;> rfl
  exact ⟨_, rfl, rfl, rfl, rfl, rfl, rfl, rfl, rfl, rfl, rfl, rfl, rfl, fun _ => rfl, rfl, rfl, fun _ => rfl,
    fun _ => rfl, division, rfl, rfl, rfl, channels, rfl, rfl, rfl, rfl, rfl, rfl, rfl, player, rfl, rfl, rfl,
    fun _ _ => rfl, stops, fun _ => rfl, keyline, rfl, rfl, flags, rfl⟩

end Sys2Proof.Proofs
end

section
/-! PROOFS. The console reset and the part held in reset (R172, R185). -/

namespace Sys2Proof.Proofs

open Sys2Proof.Machine Sys2Proof.Laws Sys2Proof.Claims

variable {s : State}

/-- Settles O6: by the length of the pulse, and by the commands that a part held in reset lets pass. -/
theorem heldInResetStandsStill : Obligations.HeldInResetStandsStill := by
  refine ⟨fun dt s live => ⟨fun ns long => ?_, fun ns short => ?_, ?_⟩, fun c s held => ⟨?_, ?_, ?_, fun command => ?_⟩⟩
  · refine (onService_live dt _ s live).trans ?_
    simp [holdInReset, long, elapse]
  · refine (onService_live dt _ s live).trans ?_
    simp [holdInReset, short, elapse]
  · exact onService_live dt _ s live
  · simp [attention, held]
  · simp [transmitLine, held]
  · simp [transmitPair, held]
  · obtain ⟨dt, f, same⟩ := exec_eq_onService command
    rw [same, onService_held dt f s held]

/-! ### The console reset (R172) -/

/-- A read of cells whose contents are changed, none staying none. -/
theorem readCells_map {α : Type} (g : α → α) (l : List (Nat × Option α)) (k : Nat) :
    readCells none (l.map (fun c => (c.1, c.2.map g))) k = (readCells none l k).map g := by
  induction l with
  | nil => rfl
  | cons c rest ih =>
    simp only [List.map_cons, readCells, ih]
    split
    · rfl
    · split <;> rfl

theorem keyline_consoleReset (o : Organ) (k : Keyline) :
    let t := keylineAfterConsoleReset o k
    t = { k with state := t.state, sweep := t.sweep, originFault := t.originFault,
                 errors := 0, goods := 0, stopQueue := [], carry := [], watch := none }
      ∧ (k.state = .OFF → t.state = .OFF ∧ t.sweep = k.sweep)
      ∧ (k.state ≠ .OFF → t.state = .SWEEP ∧ t.sweep = allGroups o
          ∧ (k.state = .SWEEP → t.originFault = k.originFault)
          ∧ (k.state ≠ .SWEEP → (t.originFault = true ↔ k.state = .FAULT))) := by
  by_cases off : k.state = .OFF
  · simp [keylineAfterConsoleReset, allOffKeyline, off]
  · refine ⟨?_, fun stopped => absurd stopped off, fun _ => ⟨?_, ?_, fun sweep => ?_, fun other => ?_⟩⟩
    all_goals simp [keylineAfterConsoleReset, allOffKeyline, enterSweep, *]

/-- Settles O5: the record that `consoleReset` builds, read field by field. -/
theorem consoleResetKeepsSettings : Obligations.ConsoleResetKeepsSettings := by
  intro dt s live
  have silent (v : Voice) : voiceGet playerAfterReset.channels v = ⟨none, 0⟩ := by cases v <;> rfl
  have player : PlayerAtReset playerAfterReset :=
    ⟨rfl, rfl, rfl, rfl, rfl, silent, rfl, rfl, rfl, rfl, rfl, rfl, rfl, rfl, rfl⟩
  have flags (g : Flag) : flagUp flagsAfterReset g = false ∧ ownEnable flagsAfterReset g = false := by
    cases g <;> exact ⟨rfl, rfl⟩
  have channels (c : Channel) :
      channelState (listenAfterReset (elapse dt s).now s.listen.analyses) c = ⟨true, none⟩ := by cases c <;> rfl
  have tails (canonical : s.leak.wf noLeak = true) (c : Nat) (small : c < 12) :
      leakEntry (consoleReset (elapse dt s)).leak c
        = ⟨0, timePlus (elapse dt s).now (largestTail s.organ), (leakEntry s.leak c).fresh⟩ :=
    (leakEntry_silenceLeak _ canonical c).trans (if_pos small)
  obtain ⟨keyline, off, on⟩ := keyline_consoleReset s.organ s.keyline
  exact ⟨_, onService_live dt _ s live, rfl, live, rfl, rfl, rfl, rfl, rfl, rfl, rfl, readCells_map _ _, rfl, rfl,
    rfl, fun _ _ => rfl, tails, rfl, rfl, rfl, rfl, rfl, rfl, rfl, rfl, rfl, channels, rfl, rfl, rfl, rfl, rfl, rfl,
    rfl, player, rfl, rfl, rfl, rfl, rfl, rfl, flags, keyline, off, on⟩

end Sys2Proof.Proofs
end

section
/-! PROOFS. The Console Link: requests taken, queued and answered (R165, R168, R172). -/

namespace Sys2Proof.Proofs

open Sys2Proof.Machine Sys2Proof.Laws Sys2Proof.Claims

variable {s : State}

/-! ### A request's row and its owner's answer -/

theorem exec_rowOf {q : Request} (mode : ∀ m a, q = .stopHymn m a → m < 2) (dt : Nat) (tag : Byte) (s : State) :
    exec (rowOf dt tag q) s = onService dt (request tag q) s := by
  cases q with
  | stopHymn m a =>
    match m, mode m a rfl with
    | 0, _ => rfl
    | 1, _ => rfl
  | _ => rfl

theorem takeParam_link (n v : Nat) : (takeParam n v s).link = s.link := by
  unfold takeParam
  split
  · rfl
  · split
    · split
      · unfold enableOn
        split <;> rfl
      · unfold enableOff
        split <;> rfl
    · dsimp only
      split
      · exact keeps_judgeBacklog.link
      · split
        · rfl
        · exact (keeps_actAtOnce n).link

/-! Requests of the organ and the store leave the link, whichever branch they take. -/

theorem answerTuneBegin_link (n : Nat) (h : HeaderFields) : (answerTuneBegin n h s).state.link = s.link := by
  unfold answerTuneBegin
  repeat' split
  all_goals rfl

theorem answerTuneSteps_link (n i : Nat) (l : List StepFields) : (answerTuneSteps n i l s).state.link = s.link := by
  unfold answerTuneSteps
  dsimp only
  repeat' split
  all_goals rfl

theorem answerTuneErase_link (n : Nat) : (answerTuneErase n s).state.link = s.link := by
  unfold answerTuneErase
  repeat' split
  all_goals rfl

theorem answerClearStore_link : (answerClearStore s).state.link = s.link := by
  unfold answerClearStore
  repeat' split
  all_goals rfl

theorem answerSetDivision_link (n : Nat) (f : DivisionFields) : (answerSetDivision n f s).state.link = s.link := by
  unfold answerSetDivision
  repeat' split
  all_goals rfl

theorem answerSetRegistration_link (n : Nat) (g : Wire RegistrationFields) : (answerSetRegistration n g s).state.link = s.link := by
  unfold answerSetRegistration
  repeat' split
  all_goals rfl

/-! Requests that only read answer with the part as it was. -/

theorem answerGetParam_state (n : Nat) : (answerGetParam n s).state = s := by
  unfold answerGetParam
  split <;> rfl

theorem answerGetDivision_state (n : Nat) : (answerGetDivision n s).state = s := by
  unfold answerGetDivision
  split <;> rfl

theorem answerGetRegistration_state (n : Nat) : (answerGetRegistration n s).state = s := by
  unfold answerGetRegistration
  split <;> rfl

theorem answerGetDirectory_state (n : Nat) : (answerGetDirectory n s).state = s := by
  unfold answerGetDirectory
  split <;> rfl

theorem answerSetParam_link (n : Nat) (v : Int) : (answerSetParam n v s).state.link = s.link := by
  unfold answerSetParam
  split
  · rfl
  · exact takeParam_link n _

/-- No owner touches the request queue. -/
theorem answer_queue (q : Request) : (answer q s).state.link.queue = s.link.queue := by
  cases q with
  | setParam n v => exact congrArg Link.queue (answerSetParam_link n v)
  | getParam n => exact congrArg (·.link.queue) (answerGetParam_state n)
  | setDivision d f => exact congrArg Link.queue (answerSetDivision_link d f)
  | getDivision d => exact congrArg (·.link.queue) (answerGetDivision_state d)
  | setRegistration i g => exact congrArg Link.queue (answerSetRegistration_link i g)
  | getRegistration i => exact congrArg (·.link.queue) (answerGetRegistration_state i)
  | tuneBegin n h => exact congrArg Link.queue (answerTuneBegin_link n h)
  | tuneSteps n i l => exact congrArg Link.queue (answerTuneSteps_link n i l)
  | tuneEnd n => exact congrArg Link.queue (keeps_answerTuneEnd n).link
  | tuneErase n => exact congrArg Link.queue (answerTuneErase_link n)
  | tuneRead n i c => exact congrArg Link.queue (keeps_answerTuneRead n i c).link
  | getDirectory n => exact congrArg (·.link.queue) (answerGetDirectory_state n)
  | clearStore => exact congrArg Link.queue answerClearStore_link
  | startHymn f => exact congrArg Link.queue (keeps_answerStartHymn f).link
  | go => exact congrArg Link.queue keeps_answerGo.link
  | stopHymn m a => exact congrArg Link.queue (keeps_answerStopHymn m a).link
  | allOff => exact congrArg Link.queue keeps_allOff.link
  | reservePlan => exact congrArg Link.queue keeps_answerReservePlan.link
  | amendPlan f => exact congrArg Link.queue (keeps_answerAmendPlan f).link
  | setNotices g e => exact congrArg Link.queue (keeps_answerSetNotices g e).link
  | fetchNotices => exact congrArg Link.queue keeps_answerFetchNotices.link
  | ackFlags f => exact congrArg Link.queue (keeps_answerAckFlags f).link
  | identify | getStatus | getFollow | getPlan | reset => rfl

theorem takeRequest_queuedRow (q : Request) (tag : Byte) (s : State) :
    takeRequest (queuedRow q tag) s = { (answer q s).state with link := { (answer q s).state.link with
      inHand := true, sending := some ⟨replyFrame (replyOf q tag (answer q s).result (answer q s).fields), true,
        decide (q = .reset)⟩ } } := by
  unfold takeRequest
  rw [isReset_queuedRow]
  rfl

/-- Settles O7: the row is the arrival of its request, which an idle link takes at once. -/
theorem idleLinkTakesEachRequest : Obligations.IdleLinkTakesEachRequest := by
  intro q dt tag s ⟨live, queue, inHand, sending, busy⟩ mode asked
  rw [exec_rowOf mode, onService_live dt _ s live,
    request_of_idle q tag (elapse dt s) queue inHand sending busy]
  have taken := takeRequest_queuedRow q tag asked
  have queued : (answer q asked).state.link.queue = [queuedRow q tag] := answer_queue q
  refine congrArg _ (taken.trans ?_)
  simp only [replied, linkAnswering, ← queued]

/-! ### The request queue and the end of a reply (R168, R172) -/

theorem byteLevels_eq_serial (b : Byte) : byteLevels b = serial b true := rfl

/-- A frame behind two queued requests joins the BUSY list or is discarded. -/
theorem submit_full {q : Queued} (full : 2 ≤ s.link.queue.length) :
    submit q s = if s.link.busy.length < 2
      then { s with link := { s.link with busy := s.link.busy ++ [replyTo q.kind q.tag .BUSY []] } }
      else { s with link := discard .OVERRUN s.link } := by
  have places : ¬ s.link.queue.length < Config.requestPlaces := Nat.not_lt.mpr full
  exact if_neg places

/-- A frame behind the request in hand waits. -/
theorem submit_behind {q p : Queued} (one : s.link.queue = [p]) (hand : s.link.inHand = true) :
    submit q s = { s with link := { s.link with queue := [p, q] } } := by
  simp [submit, one, Config.requestPlaces, pump, hand]

theorem pump_taken {q : Queued} {rest : List Queued} (queue : s.link.queue = q :: rest)
    (sending : s.link.sending = none) (busy : s.link.busy = []) (hand : s.link.inHand = false) :
    pump s = takeRequest q s := by
  simp [pump, queue, sending, busy, hand]

theorem pump_still (still : s.link.queue = [] ∨ s.link.inHand = true) : pump s = s := by
  unfold pump
  obtain empty | hand := still
  · rw [empty]
  · split
    · rfl
    · simp [hand]

theorem nextReply_busy {b : Reply} {rest : List Reply} (busy : s.link.busy = b :: rest) :
    nextReply s = { s with link := { s.link with sending := some ⟨replyFrame b, false, false⟩, busy := rest } } := by
  simp [nextReply, busy]

theorem nextReply_pump (busy : s.link.busy = []) : nextReply s = pump s := by
  simp [nextReply, busy]

theorem replyDone_plain {x : Sending} (sending : s.link.sending = some x) (plain : x.resets = false) :
    replyDone s = nextReply { s with link := finishReply x s.link } := by
  simp [replyDone, sending, plain]

theorem finishReply_ofHand {x : Sending} (ofHand : x.ofHand = true) (l : Link) :
    finishReply x l = { l with sending := none, queue := l.queue.drop 1, inHand := false } := if_pos ofHand

theorem finishReply_ofBusy {x : Sending} (ofBusy : x.ofHand = false) (l : Link) :
    finishReply x l = { l with sending := none } := by
  simp [finishReply, ofBusy]

section
variable {x : Sending} (live : InService s) (sending : s.link.sending = some x) (plain : x.resets = false) (dt : Nat)
include live sending plain

/-- REPLY_SENT of any reply but that to RESET. -/
theorem exec_replySent : exec (.replySent dt) s
    = .next (nextReply { elapse dt s with link := finishReply x s.link }) :=
  (onService_live dt _ s live).trans (congrArg _ (replyDone_plain (s := elapse dt s) sending plain))

/-- The end of the reply to the request in hand (R168). -/
theorem exec_replySent_ofHand (ofHand : x.ofHand = true) :
    (∀ b rest, s.link.busy = b :: rest → exec (.replySent dt) s
      = .next { elapse dt s with link := { s.link with
          queue := s.link.queue.drop 1, inHand := false, busy := rest, sending := some ⟨replyFrame b, false, false⟩ } })
    ∧ (s.link.busy = [] → s.link.queue.length ≤ 1 → exec (.replySent dt) s
      = .next { elapse dt s with link := { s.link with queue := [], inHand := false, sending := none } })
    ∧ (∀ p q, s.link.busy = [] → s.link.queue = [p, q] → exec (.replySent dt) s = .next (takeRequest q
      { elapse dt s with link := { s.link with queue := [q], inHand := false, sending := none } })) := by
  rw [exec_replySent live sending plain, finishReply_ofHand ofHand]
  refine ⟨fun b rest busy => ?_, fun busy short => ?_, fun p q busy queue => ?_⟩
  · exact congrArg _ (nextReply_busy busy)
  · have empty : s.link.queue.drop 1 = [] := List.drop_eq_nil_of_le short
    rw [empty]
    refine congrArg _ ((nextReply_pump ?_).trans (pump_still ?_))
    · exact busy
    · exact .inl rfl
  · have left : s.link.queue.drop 1 = [q] := by rw [queue]; rfl
    rw [left]
    refine congrArg _ ((nextReply_pump ?_).trans (pump_taken (rest := []) ?_ ?_ ?_ ?_))
    · exact busy
    · rfl
    · rfl
    · exact busy
    · rfl

/-- The end of a BUSY reply (R168). -/
theorem exec_replySent_ofBusy (ofBusy : x.ofHand = false) :
    let sent := { elapse dt s with link := { s.link with sending := none } }
    (∀ b rest, s.link.busy = b :: rest → exec (.replySent dt) s
      = .next { elapse dt s with link := { s.link with busy := rest, sending := some ⟨replyFrame b, false, false⟩ } })
    ∧ (∀ q rest, s.link.busy = [] → s.link.queue = q :: rest → s.link.inHand = false →
        exec (.replySent dt) s = .next (takeRequest q sent))
    ∧ (s.link.busy = [] → (s.link.queue = [] ∨ s.link.inHand = true) → exec (.replySent dt) s = .next sent) := by
  rw [exec_replySent live sending plain, finishReply_ofBusy ofBusy]
  refine ⟨fun b rest busy => ?_, fun q rest busy queue hand => ?_, fun busy still => ?_⟩
  · exact congrArg _ (nextReply_busy busy)
  · refine congrArg _ ((nextReply_pump ?_).trans (pump_taken (rest := rest) ?_ ?_ ?_ ?_))
    · exact busy
    · exact queue
    · rfl
    · exact busy
    · exact hand
  · refine congrArg _ ((nextReply_pump ?_).trans (pump_still ?_))
    · exact busy
    · exact still

end

/-- The reply to RESET brings the console reset when it has been sent (R172). -/
theorem exec_reset_replySent (dt' : Nat) {dt : Nat} {tag : Byte} (idle : LinkIdle s) :
    ∃ t, exec (.reset dt tag) s = .next t ∧ t = replied .reset tag .OK [] (elapse dt s)
      ∧ exec (.replySent dt') t = exec (.consoleReset dt') t :=
  ⟨_, onService_request_replied (t := elapse dt s) idle rfl, rfl,
    (onService_live dt' _ (replied .reset tag .OK [] (elapse dt s)) idle.1).trans
      (onService_live dt' _ (replied .reset tag .OK [] (elapse dt s)) idle.1).symm⟩

/-- Settles O8: by what stands in hand, in the queue and in the BUSY list as the frame or the end of a reply comes. -/
theorem requestsQueueAndAreAnswered : Obligations.RequestsQueueAndAreAnswered := by
  refine ⟨fun dt kind tag body s live full => ⟨fun room => ?_, fun none => ?_⟩,
    fun dt kind tag body q s live one hand => ?_, fun dt x s live sending plain => ⟨fun b rest busy ofHand => ?_,
      fun busy ofHand short => ?_, fun ofBusy => exec_replySent_ofBusy live sending plain dt ofBusy⟩,
    takeRequest_queuedRow, fun dt x p q s live sending plain ofHand busy queue => ?_,
    fun dt dt' tag s idle => exec_reset_replySent dt' idle, fun s live => ⟨fun x sending => ?_, fun sending => ?_⟩⟩
  · refine (onService_live dt _ s live).trans (congrArg _ ?_)
    rw [submit_full (s := elapse dt s) full]
    exact if_pos room
  · refine (onService_live dt _ s live).trans (congrArg _ ?_)
    rw [submit_full (s := elapse dt s) full]
    exact if_neg (Nat.not_lt.mpr none)
  · exact (onService_live dt _ s live).trans (congrArg _ (submit_behind (s := elapse dt s) one hand))
  · exact (exec_replySent_ofHand live sending plain dt ofHand).1 b rest busy
  · exact (exec_replySent_ofHand live sending plain dt ofHand).2.1 busy short
  · exact (exec_replySent_ofHand live sending plain dt ofHand).2.2 p q busy queue
  · rw [transmitLine, sending]
    exact lineOutput_some _ live
  · rw [transmitLine, sending]
    exact lineOutput_none s

end Sys2Proof.Proofs
end

section
/-! PROOFS. Service times and their differences (R1). -/

namespace Sys2Proof.Proofs

open Sys2Proof.Machine Sys2Proof.Laws Sys2Proof.Claims

theorem timePlus_natCast (t : Time) (n : Nat) : timePlus t n = t + BitVec.ofNat 32 n := by
  simp [timePlus]

@[simp] theorem timePlus_zero (t : Time) : timePlus t 0 = t := by
  simp [timePlus]

theorem timePlus_timePlus (t : Time) (a b : Int) : timePlus (timePlus t a) b = timePlus t (a + b) := by
  simp [timePlus, BitVec.ofInt_add, BitVec.add_assoc]

/-- The difference of two times that lie less than half the range apart is that of their distances. -/
theorem timeDiff_timePlus {a b : Int} (t : Time) (low : -2147483648 ≤ a - b) (high : a - b < 2147483648) :
    timeDiff (timePlus t a) (timePlus t b) = a - b := by
  have distance : timePlus t a - timePlus t b = BitVec.ofInt 32 (a - b) := by
    simp only [timePlus, Int.sub_eq_add_neg, BitVec.ofInt_add, BitVec.ofInt_neg]
    bv_omega
  rw [timeDiff, distance, BitVec.toInt_ofInt]
  exact Int.bmod_eq_of_le (by simpa using low) (by simpa using high)

theorem timeDiff_timePlus_self {a : Int} (t : Time) (low : -2147483648 ≤ a) (high : a < 2147483648) :
    timeDiff (timePlus t a) t = a := by
  simpa using timeDiff_timePlus (a := a) (b := 0) t (by omega) (by omega)

theorem later_timePlus {a b : Int} (t : Time) (low : -2147483648 ≤ a - b) (high : a - b < 2147483648) :
    later (timePlus t a) (timePlus t b) = decide (b < a) := by
  rw [later, timeDiff_timePlus t low high]
  exact decide_eq_decide.mpr (by omega)

theorem timeDiff_self (t : Time) : timeDiff t t = 0 := by simp [timeDiff]

@[simp] theorem later_self (t : Time) : later t t = false := by simp [later, timeDiff_self]

@[simp] theorem arrived_self (t : Time) : arrived t t = true := by simp [arrived, timeDiff_self]

theorem due_iff (s : State) (t : Time) : due s t = true ↔ later t s.now = false := by
  rw [later_eq_not_arrived]
  simp [due]

theorem elapse_elapse (a b : Nat) (s : State) : elapse a (elapse b s) = elapse (b + a) s := by
  simp [elapse, BitVec.ofNat_add, BitVec.add_assoc]

end Sys2Proof.Proofs
end

section
/-! PROOFS. The receive line: hunting, assembling, the discards, and a frame sent byte by byte (R165 to R167). -/

namespace Sys2Proof.Proofs

open Sys2Proof.Machine Sys2Proof.Laws Sys2Proof.Claims

variable {s : State}

theorem lineEvent_serial (b : Byte) : lineEvent (serial b true) = some (.byte b) :=
  (congrArg lineEvent (byteLevels_eq_serial b)).symm.trans (lineEvent_byteLevels b)

theorem exec_byteReceived (live : InService s) (dt : Nat) (b : Byte) :
    exec (.byteReceived dt (serial b true)) s = .next (receiveLine (.byte b) (elapse dt s)) := by
  refine (onService_live dt _ s live).trans (congrArg _ ?_)
  rw [receiveLevels, lineEvent_serial]

theorem exec_byteReceived_stop_low (live : InService s) (dt : Nat) (b : Byte) :
    exec (.byteReceived dt (serial b false)) s = .next (receiveLine .framingError (elapse dt s)) :=
  onService_live dt _ s live

/-- A byte or an error within the gap of the last byte is not behind it (R167). -/
theorem not_later_of_gap {now last : Time} {gap : Nat} (short : gap ≤ 200) (at_ : now = last + BitVec.ofNat 32 gap) :
    later now (timePlus last Config.frameGapUnits) = false := by
  rw [at_, ← timePlus_natCast, later_timePlus last (by simp [Config.frameGapUnits]; omega)
    (by simp [Config.frameGapUnits]; omega)]
  simp [Config.frameGapUnits, short]

section
variable {bs : List Byte} {last : Time} (assembling : s.link.assembly = .ASSEMBLING bs last)
  (within : later s.now (timePlus last Config.frameGapUnits) = false)
include assembling within

theorem receiveLine_byte (b : Byte) : receiveLine (.byte b) s = assemble bs b s := by
  simp [receiveLine, assembling, within]

theorem receiveLine_framingError : receiveLine .framingError s
    = { s with link := discard .FRAMING (hunt s.link) } := by
  simp [receiveLine, assembling, within]

end

theorem receiveLine_hunting_framingError (hunting : s.link.assembly = .HUNTING) :
    receiveLine .framingError s = s := by
  simp [receiveLine, hunting]

theorem receiveLine_hunting_byte (hunting : s.link.assembly = .HUNTING) (b : Byte) :
    receiveLine (.byte b) s = huntByte b s := by
  simp [receiveLine, hunting]

/-! ### Runs of commands -/

theorem runAll_cons {c : Instr} {cs : List Instr} {t : State} (first : exec c s = .next t) :
    runAll (c :: cs) s = runAll cs t := by
  simp [runAll, first]

theorem runAll_append {a b : List Instr} {s t : State} (first : runAll a s = .next t) :
    runAll (a ++ b) s = runAll b t := by
  induction a generalizing s with
  | nil =>
    cases first
    rfl
  | cons c cs ih =>
    obtain ⟨u, next⟩ := exec_answers c s
    rw [List.cons_append, runAll_cons next]
    exact ih ((runAll_cons next).symm.trans first)

/-- A line held low while HUNTING lets time pass (R165). -/
theorem runAll_low (dt n : Nat) : ∀ {s : State}, InService s → s.link.assembly = .HUNTING →
    runAll (List.replicate n (.byteReceived dt (serial 0#8 false))) s = .next (elapse (dt * n) s) := by
  induction n with
  | zero =>
    intro s _ _
    simp [runAll, elapse]
  | succ m ih =>
    intro s live hunting
    have first := exec_byteReceived_stop_low live dt 0#8
    rw [receiveLine_hunting_framingError (s := elapse dt s) hunting] at first
    rw [List.replicate_succ, runAll_cons first, ih (s := elapse dt s) live hunting, elapse_elapse]
    congr 2
    ring

/-- A frame whose check does not agree is discarded (R167). -/
theorem assemble_check {bs : List Byte} {b : Byte} {n : Nat} (length : bs.length = n + 3)
    (declared : frameLength (bs ++ [b]) = n) (bad : checkBytes (bs.take (n + 2)) ≠ bs.drop (n + 2) ++ [b]) :
    assemble bs b s = { s with link := discard .CHECK (hunt s.link) } := by
  have all : (bs ++ [b]).length = n + 4 := by simp [length]
  have front : (bs ++ [b]).take (n + 2) = bs.take (n + 2) := List.take_append_of_le_length (by omega)
  have back : (bs ++ [b]).drop (n + 2) = bs.drop (n + 2) ++ [b] := List.drop_append_of_le_length (by omega)
  have notTwo : ¬ ((bs ++ [b]).length = 2
      ∧ (frameLength (bs ++ [b]) < 2 ∨ Config.maxFrameLength < frameLength (bs ++ [b]))) := by omega
  have complete : 2 < (bs ++ [b]).length ∧ (bs ++ [b]).length = frameLength (bs ++ [b]) + 4 := by omega
  refine (if_neg notTwo).trans ((if_pos complete).trans ?_)
  rw [closeFrame, declared, front, back]
  exact if_neg bad

/-- Settles O9: by the state of the assembly and the gap since its last byte. -/
theorem receiveLineFollowsTheAssembly : Obligations.ReceiveLineFollowsTheAssembly := by
  refine ⟨fun dt b s live hunting => ⟨fun start => ?_, fun other => ?_, ?_⟩,
    fun dt gap bs last b s live assembling short at_ => ?_, fun dt bs last s live assembling at_ => ?_⟩
  · rw [exec_byteReceived live, receiveLine_hunting_byte (s := elapse dt s) hunting]
    exact congrArg _ (if_pos start)
  · rw [exec_byteReceived live, receiveLine_hunting_byte (s := elapse dt s) hunting]
    exact congrArg _ (if_neg other)
  · rw [exec_byteReceived_stop_low live, receiveLine_hunting_framingError (s := elapse dt s) hunting]
  · have within : later (elapse dt s).now (timePlus last Config.frameGapUnits) = false := not_later_of_gap short at_
    have broken (c : Byte) := (exec_byteReceived_stop_low live dt c).trans
      (congrArg _ (receiveLine_framingError (s := elapse dt s) assembling within))
    have read := (exec_byteReceived live dt b).trans
      (congrArg _ (receiveLine_byte (s := elapse dt s) assembling within b))
    refine ⟨broken b, fun n => ?_, fun lo one outside => ?_, fun lo hi kind tag rest whole length bad => ?_⟩
    · rw [List.replicate_succ, runAll_cons (broken 0#8)]
      refine (runAll_low dt n ?_ ?_).trans ?_
      · exact live
      · rfl
      · simp only [Nat.mul_succ, Nat.add_comm (dt * n), elapse, BitVec.ofNat_add, BitVec.add_assoc]
        rfl
    · rw [read, one]
      refine congrArg _ (if_pos ⟨rfl, ?_⟩)
      exact outside
    · rw [read]
      refine congrArg _ (assemble_check (n := lo.toNat + 256 * hi.toNat) ?_ ?_ bad)
      · rw [whole, ← length]
        simp
      · rw [whole]
        rfl
  · refine (onService_live dt (fun u => if frameTimeoutDue u then expireFrame u else u) s live).trans (congrArg _ ?_)
    refine (if_pos ?_).trans rfl
    have ends : timePlus last Config.frameGapUnits = (elapse dt s).now :=
      (timePlus_natCast last 200).trans at_.symm
    simp [frameTimeoutDue, assembling, due, ends]

/-! ### A frame byte by byte (R165 to R167) -/

/-- The part with these bytes of a frame assembled, the last of them now. -/
def assembled (bs : List Byte) (s : State) : State :=
  { s with link := { s.link with assembly := .ASSEMBLING bs s.now } }

/-- These bytes are the beginning of a frame, its length in bounds and its last check byte still to come. -/
def Incomplete (bs : List Byte) : Prop :=
  ¬ (bs.length = 2 ∧ (frameLength bs < 2 ∨ Config.maxFrameLength < frameLength bs))
    ∧ ¬ (2 < bs.length ∧ bs.length = frameLength bs + 4)

theorem assemble_incomplete {bs : List Byte} {b : Byte} (more : Incomplete (bs ++ [b])) :
    assemble bs b s = assembled (bs ++ [b]) s :=
  (if_neg more.1).trans (if_neg more.2)

/-- A byte within 20 ms of the last one joins the frame (R167). -/
theorem exec_byteReceived_assembled {dt : Nat} (short : dt ≤ 200) (live : InService s) (bs : List Byte) (b : Byte) :
    exec (.byteReceived dt (serial b true)) (assembled bs s)
      = .next (assemble bs b (elapse dt (assembled bs s))) := by
  refine (exec_byteReceived (s := assembled bs s) live dt b).trans (congrArg _ ?_)
  exact receiveLine_byte (s := elapse dt (assembled bs s)) rfl (not_later_of_gap short rfl) b

theorem runAll_assembled {dt : Nat} (short : dt ≤ 200) : ∀ (l bs : List Byte) {s : State}, InService s →
    (∀ k, 0 < k → k ≤ l.length → Incomplete (bs ++ l.take k)) →
    runAll (byteRun dt l) (assembled bs s) = .next (assembled (bs ++ l) (elapse (dt * l.length) s))
  | [], bs, s, _, _ => by simp [byteRun, runAll, assembled, elapse]
  | b :: rest, bs, s, live, more => by
    have one : Incomplete (bs ++ [b]) := more 1 (by omega) (by simp)
    have first := exec_byteReceived_assembled short live bs b
    rw [assemble_incomplete one] at first
    have others := runAll_assembled short rest (bs ++ [b]) (s := elapse dt s) live fun k _ atMost => by
      have next := more (k + 1) (by omega) (by simpa using atMost)
      simpa using next
    refine (runAll_cons first).trans (others.trans ?_)
    rw [elapse_elapse, List.append_assoc, List.singleton_append, List.length_cons]
    congr 3
    ring

/-- The length that a frame of this body declares is read back from its two bytes (R166). -/
theorem frameLength_u16 {n : Nat} (small : n < 65536) (rest : List Byte) : frameLength (u16 n ++ rest) = n := by
  show (BitVec.ofNat 8 n).toNat + 256 * (BitVec.ofNat 8 (n / 256)).toNat = n
  simp only [BitVec.toNat_ofNat]
  omega

/-- What a frame carries between its start marker and its check (R166). -/
def checkedPart (kind tag : Byte) (body : List Byte) : List Byte := u16 (body.length + 2) ++ kind :: tag :: body

theorem length_checkedPart (kind tag : Byte) (body : List Byte) :
    (checkedPart kind tag body).length = body.length + 4 := by
  simp [checkedPart, u16]

theorem linkFrame_eq (kind tag : Byte) (body : List Byte) : linkFrame kind tag body
    = 0xC3#8 :: (checkedPart kind tag body ++ checkBytes (checkedPart kind tag body)) := rfl

section
variable {kind tag : Byte} {body : List Byte} (fits : body.length ≤ 1022)
include fits

/-- Every proper beginning of a frame behind its start marker is one. -/
theorem incomplete_of_prefix {bs rest : List Byte} (proper : bs.length < body.length + 6)
    (whole : bs ++ rest = checkedPart kind tag body ++ checkBytes (checkedPart kind tag body)) : Incomplete bs := by
  match bs with
  | [] => exact ⟨fun two => absurd two.1 (by simp), fun complete => absurd complete.1 (by simp)⟩
  | [b] => exact ⟨fun two => absurd two.1 (by simp), fun complete => absurd complete.1 (by simp)⟩
  | lo :: hi :: others =>
    have declared : frameLength (lo :: hi :: others) = body.length + 2 := by
      have front : lo :: hi :: (others ++ rest) = u16 (body.length + 2)
          ++ (kind :: tag :: body ++ checkBytes (checkedPart kind tag body)) := whole
      have read := congrArg frameLength front
      rw [frameLength_u16 (by omega)] at read
      exact read
    unfold Incomplete
    rw [declared]
    simp only [Config.maxFrameLength]
    omega

/-- The last byte of a frame with a good check hands its request over (R167, R168). -/
theorem assemble_last {t : State} {bs : List Byte} {b : Byte}
    (whole : bs ++ [b] = checkedPart kind tag body ++ checkBytes (checkedPart kind tag body)) :
    assemble bs b t = submit ⟨kind, tag, parseRequest kind body⟩ { t with link := hunt t.link } := by
  have length := length_checkedPart kind tag body
  have declared : frameLength (bs ++ [b]) = body.length + 2 := by
    rw [whole]
    exact frameLength_u16 (by omega) _
  have all : (bs ++ [b]).length = body.length + 6 := by
    rw [whole, List.length_append, length]
    rfl
  have notTwo : ¬ ((bs ++ [b]).length = 2
      ∧ (frameLength (bs ++ [b]) < 2 ∨ Config.maxFrameLength < frameLength (bs ++ [b]))) := by omega
  have complete : 2 < (bs ++ [b]).length ∧ (bs ++ [b]).length = frameLength (bs ++ [b]) + 4 := by omega
  refine (if_neg notTwo).trans ((if_pos complete).trans ?_)
  have front : (bs ++ [b]).take (body.length + 2 + 2) = checkedPart kind tag body := by
    rw [whole, ← length]
    exact List.take_left
  have back : (bs ++ [b]).drop (body.length + 2 + 2) = checkBytes (checkedPart kind tag body) := by
    rw [whole, ← length]
    exact List.drop_left
  rw [closeFrame, declared, front, back, if_pos rfl]
  rfl

end

theorem byteRun_cons (dt : Nat) (b : Byte) (bs : List Byte) :
    byteRun dt (b :: bs) = .byteReceived dt (serial b true) :: byteRun dt bs := rfl

/-- Settles O10, by the bytes of the frame: the start marker, those that leave it incomplete, and the last. -/
theorem frameBytesMakeTheRequest : Obligations.FrameBytesMakeTheRequest := by
  intro dt kind tag body s live hunting short fits
  obtain ⟨l, b, split⟩ : ∃ l b, checkedPart kind tag body ++ checkBytes (checkedPart kind tag body) = l ++ [b] :=
    ⟨checkedPart kind tag body ++ [(check (checkedPart kind tag body)).setWidth 8],
      ((check (checkedPart kind tag body)) >>> 8).setWidth 8, by simp [checkBytes]⟩
  have length : l.length = body.length + 5 := by
    have both := congrArg List.length split
    rw [List.length_append, length_checkedPart, List.length_append] at both
    exact Nat.succ.inj both.symm
  have start : exec (.byteReceived dt (serial 0xC3#8 true)) s = .next (assembled [] (elapse dt s)) := by
    rw [exec_byteReceived live, receiveLine_hunting_byte (s := elapse dt s) hunting]
    exact congrArg _ (if_pos rfl)
  have middle := runAll_assembled short l [] (s := elapse dt s) live fun k _ atMost => by
    refine incomplete_of_prefix (kind := kind) (tag := tag) fits (rest := l.drop k ++ [b]) ?_ ?_
    · exact (List.length_take_le' k l).trans_lt (by omega)
    · rw [split, List.nil_append, ← List.append_assoc, List.take_append_drop]
  have last := exec_byteReceived_assembled short (s := elapse (dt * l.length) (elapse dt s)) live l b
  rw [assemble_last fits split.symm] at last
  rw [linkFrame_eq, split, byteRun_cons, runAll_cons start]
  refine (congrArg (runAll · _) (List.map_append (l₁ := l) (l₂ := [b]))).trans ((runAll_append middle).trans ?_)
  refine (runAll_cons last).trans ((onService_live _ _ s live).trans (congrArg _ ?_)).symm
  have total : dt + dt * l.length + dt = dt * (body.length + 7) := by
    rw [length]
    ring
  have time : elapse dt (elapse (dt * l.length) (elapse dt s)) = elapse (dt * (body.length + 7)) s := by
    rw [elapse_elapse, elapse_elapse, ← total]
    congr 1
    ring
  rw [← time]
  have same : s.link = hunt s.link := by
    rw [hunt, ← hunting]
  refine congrArg (submit _) ?_
  exact congrArg (fun x : Link => ({ elapse dt (elapse (dt * l.length) (elapse dt s)) with link := x } : State)) same

end Sys2Proof.Proofs
end

section
/-! PROOFS. What the console lays out is what the part reads: the readers of the fields against their layouts
(R169, R170), and the frames that are answered by the interface. -/

namespace Sys2Proof.Proofs

open Sys2Proof.Machine Sys2Proof.Laws Sys2Proof.Claims

/-! ### A reader takes its own layout, and no byte behind it -/

/-- The reader takes exactly these bytes from the front, and finds `a` in them. -/
def Reads {α : Type} (p : FieldReader α) (bytes : List Byte) (a : α) : Prop :=
  ∀ rest, p (bytes ++ rest) = some (a, rest)

/-- What a reader finds in the front of some bytes it finds with more bytes behind them, too. -/
def LooksNoFurther {α : Type} (p : FieldReader α) : Prop :=
  ∀ bs a rest more, p bs = some (a, rest) → p (bs ++ more) = some (a, rest ++ more)

section
variable {α β : Type} {p : FieldReader α} {f : α → FieldReader β} {x y : List Byte} {a : α} {b : β}

theorem reads_readDone (a : α) : Reads (readDone a) [] a := fun _ => rfl

theorem Reads.seq (first : Reads p x a) (second : Reads (f a) y b) : Reads (readThen p f) (x ++ y) b := by
  intro rest
  rw [List.append_assoc]
  unfold readThen
  rw [first]
  exact second rest

theorem Reads.last {g : α → β} (first : Reads p x a) : Reads (readThen p fun a => readDone (g a)) x (g a) := by
  intro rest
  unfold readThen
  rw [first]
  rfl

theorem looks_readDone (a : α) : LooksNoFurther (readDone a) := by
  rintro bs a rest more ⟨⟩
  rfl

theorem LooksNoFurther.seq (first : LooksNoFurther p) (second : ∀ a, LooksNoFurther (f a)) :
    LooksNoFurther (readThen p f) := by
  intro bs b rest more found
  unfold readThen at found ⊢
  split at found
  next a middle ha => rw [first bs a middle more ha]; exact second a middle b rest more found
  next => exact absurd found (by simp)

end

/-! ### Numbers -/

section
variable {n : Nat}

theorem reads_u8 (fits : WellFormed.byteField n = true) : Reads read8 (u8 n) n := by
  have small : n < 256 := of_decide_eq_true fits
  intro rest
  simp [u8, read8, Nat.mod_eq_of_lt small]

/-- The low byte of a number is read as its remainder. -/
theorem reads_low (n : Nat) : Reads read8 [BitVec.ofNat 8 n] (n % 256) := fun rest => by simp [read8]

/-- The two low bytes of a number are read as its remainder. -/
theorem reads_low16 (n : Nat) : Reads read16 (u16 n) (n % 65536) := by
  have parts : n % 65536 = n % 256 + 256 * (n / 256 % 256) := by omega
  rw [parts]
  exact (reads_low n).seq (reads_low (n / 256)).last

theorem reads_u16 (fits : WellFormed.wordField n = true) : Reads read16 (u16 n) n := by
  have small : n < 65536 := of_decide_eq_true fits
  simpa [Nat.mod_eq_of_lt small] using reads_low16 n

theorem reads_u24 (fits : WellFormed.setField n = true) : Reads read24 (u24 n) n := by
  have small : n < 16777216 := of_decide_eq_true fits
  have parts : n = n % 65536 + 65536 * (n / 65536 % 256) := by omega
  have whole : Reads read24 (u24 n) (n % 65536 + 65536 * (n / 65536 % 256)) :=
    (reads_low16 n).seq (reads_low (n / 65536)).last
  rwa [← parts] at whole

theorem reads_u32 (fits : n < 4294967296) : Reads read32 (u32 n) n := by
  have parts : n = n % 65536 + 65536 * (n / 65536 % 65536) := by omega
  have whole : Reads read32 (u16 n ++ u16 (n / 65536)) (n % 65536 + 65536 * (n / 65536 % 65536)) :=
    (reads_low16 n).seq (reads_low16 (n / 65536)).last
  rw [← parts] at whole
  simpa [u32, u16, Nat.div_div_eq_div_mul] using whole

theorem reads_long (fits : WellFormed.longField n = true) : Reads read32 (u32 n) n :=
  reads_u32 (of_decide_eq_true fits)

theorem reads_i8 {v : Int} (fits : WellFormed.signedByte v = true) : Reads readI8 (i8 v) v := by
  obtain ⟨low, high⟩ : -128 ≤ v ∧ v ≤ 127 := by simpa [WellFormed.signedByte] using fits
  have byte : Reads read8 (i8 v) (BitVec.ofInt 8 v).toNat := reads_u8 (decide_eq_true (BitVec.ofInt 8 v).isLt)
  have whole := byte.last (g := fun a => (BitVec.ofNat 8 a).toInt)
  have value : (BitVec.ofNat 8 (BitVec.ofInt 8 v).toNat).toInt = v := by
    rw [BitVec.ofNat_toNat, BitVec.setWidth_eq, BitVec.toInt_ofInt]
    exact Int.bmod_eq_of_le (by omega) (by omega)
  rw [value] at whole
  exact whole

theorem reads_i32 {v : Int} (fits : WellFormed.signedLong v = true) : Reads readI32 (i32 v) v := by
  obtain ⟨low, high⟩ : -2147483648 ≤ v ∧ v ≤ 2147483647 := by simpa [WellFormed.signedLong] using fits
  have long : Reads read32 (i32 v) (BitVec.ofInt 32 v).toNat := reads_u32 (BitVec.ofInt 32 v).isLt
  have whole := long.last (g := fun a => (BitVec.ofNat 32 a).toInt)
  have value : (BitVec.ofNat 32 (BitVec.ofInt 32 v).toNat).toInt = v := by
    rw [BitVec.ofNat_toNat, BitVec.setWidth_eq, BitVec.toInt_ofInt]
    exact Int.bmod_eq_of_le (by omega) (by omega)
  rw [value] at whole
  exact whole

end

theorem looks_read8 : LooksNoFurther read8 := by
  rintro (_ | ⟨b, bs⟩) a rest more found
  · exact absurd found (by simp [read8])
  · cases found
    rfl

theorem looks_read16 : LooksNoFurther read16 := .seq looks_read8 fun _ => .seq looks_read8 fun _ => looks_readDone _
theorem looks_read24 : LooksNoFurther read24 := .seq looks_read16 fun _ => .seq looks_read8 fun _ => looks_readDone _
theorem looks_read32 : LooksNoFurther read32 := .seq looks_read16 fun _ => .seq looks_read16 fun _ => looks_readDone _
theorem looks_readI8 : LooksNoFurther readI8 := .seq looks_read8 fun _ => looks_readDone _
theorem looks_readI32 : LooksNoFurther readI32 := .seq looks_read32 fun _ => looks_readDone _

/-! ### Optional fields, lists, and the entries of voices and divisions -/

section
variable {α : Type} {p : FieldReader α} {f : α → List Byte} {good : α → Bool}

theorem reads_wire (field : ∀ a, good a = true → Reads p (f a) a) {w : Wire α} (fits : WellFormed.wireField good w = true) :
    Reads (readWire p) (wireBytes f w) w := by
  cases w with
  | absent => exact (reads_u8 (n := 0) rfl).seq (f := fun n => _) (y := []) (reads_readDone Wire.absent)
  | present a => exact (reads_u8 (n := 1) rfl).seq ((field a fits).last (g := Wire.present))
  | invalid n =>
    obtain ⟨outside, byte⟩ : 2 ≤ n ∧ WellFormed.byteField n = true := by simpa [WellFormed.wireField] using fits
    intro rest
    unfold readWire readThen
    rw [show wireBytes f (.invalid n) = u8 n from rfl, reads_u8 byte rest]
    match n, outside with
    | _ + 2, _ => rfl

theorem reads_many (l : List α) (entries : ∀ a ∈ l, Reads p (f a) a) : Reads (readMany p l.length) (l.flatMap f) l := by
  induction l with
  | nil => exact reads_readDone []
  | cons a l ih =>
    have rest := ih fun b hb => entries b (List.mem_cons_of_mem a hb)
    exact (entries a List.mem_cons_self).seq (rest.last (g := (a :: ·)))

theorem reads_list (field : ∀ a, good a = true → Reads p (f a) a) {l : List α} (short : WellFormed.countField l = true)
    (all : l.all good = true) : Reads (readList p) (listBytes f l) l :=
  (reads_u8 short).seq (reads_many l fun a ha => field a (List.all_eq_true.mp all a ha))

theorem reads_voices {q : PerVoice Nat} (fits : WellFormed.voices WellFormed.byteField q = true) :
    Reads (readVoices read8) (voicesBytes q) q := by
  simp only [WellFormed.voices, Bool.and_eq_true] at fits
  obtain ⟨⟨⟨⟨⟨s, a⟩, t⟩, b⟩, ped⟩, desc⟩ := fits
  exact .seq (reads_u8 s) (.seq (reads_u8 a) (.seq (reads_u8 t) (.seq (reads_u8 b) (.seq (reads_u8 ped)
    (.last (reads_u8 desc))))))

theorem reads_divisions (field : ∀ a, good a = true → Reads p (f a) a) {q : PerDivision α}
    (fits : WellFormed.divisions good q = true) : Reads (readDivisions p) (divisionsBytes f q) q := by
  simp only [WellFormed.divisions, Bool.and_eq_true] at fits
  obtain ⟨⟨⟨⟨h1, h2⟩, h3⟩, h4⟩, h5⟩ := fits
  exact .seq (field _ h1) (.seq (field _ h2) (.seq (field _ h3) (.seq (field _ h4) (.last (field _ h5)))))

theorem looks_wire (field : LooksNoFurther p) : LooksNoFurther (readWire p) := by
  refine .seq looks_read8 fun n => ?_
  split
  · exact looks_readDone _
  · exact field.seq fun _ => looks_readDone _
  · exact looks_readDone _

theorem looks_many (field : LooksNoFurther p) (n : Nat) : LooksNoFurther (readMany p n) := by
  induction n with
  | zero => exact looks_readDone []
  | succ n ih => exact field.seq fun _ => ih.seq fun _ => looks_readDone _

theorem looks_list (field : LooksNoFurther p) : LooksNoFurther (readList p) :=
  .seq looks_read8 fun n => looks_many field n

theorem looks_voices (field : LooksNoFurther p) : LooksNoFurther (readVoices p) :=
  .seq field fun _ => .seq field fun _ => .seq field fun _ => .seq field fun _ => .seq field fun _ =>
    .seq field fun _ => looks_readDone _

theorem looks_divisions (field : LooksNoFurther p) : LooksNoFurther (readDivisions p) :=
  .seq field fun _ => .seq field fun _ => .seq field fun _ => .seq field fun _ => .seq field fun _ =>
    looks_readDone _

end

/-! ### The records -/

theorem reads_stopStates {l : List Nat} (fits : WellFormed.stopStates l = true) :
    Reads (readMany read8 32) (l.flatMap u8) l := by
  obtain ⟨count, bytes⟩ : l.length = 32 ∧ l.all WellFormed.byteField = true := by
    simpa only [WellFormed.stopStates, Bool.and_eq_true, decide_eq_true_eq] using fits
  rw [← count]
  exact reads_many l fun a ha => reads_u8 (List.all_eq_true.mp bytes a ha)

theorem reads_division {f : DivisionFields} (fits : WellFormed.divisionFields f = true) :
    Reads readDivision (divisionFieldBytes f) f := by
  simp only [WellFormed.divisionFields, Bool.and_eq_true] at fits
  obtain ⟨⟨⟨⟨⟨⟨⟨⟨⟨present, lowest⟩, keyCount⟩, speech⟩, release⟩, acoustic⟩, leakTracking⟩, leakTail⟩, stopCount⟩,
    enclosed⟩ := fits
  exact .seq (reads_u8 present) (.seq (reads_u8 lowest) (.seq (reads_u8 keyCount) (.seq (reads_u16 speech)
    (.seq (reads_u16 release) (.seq (reads_u16 acoustic) (.seq (reads_u8 leakTracking) (.seq (reads_u16 leakTail)
      (.seq (reads_u8 stopCount) (.last (reads_u8 enclosed))))))))))

theorem reads_registration {f : RegistrationFields} (fits : WellFormed.registrationFields f = true) :
    Reads readRegistration (registrationFieldBytes f) f := by
  simp only [WellFormed.registrationFields, Bool.and_eq_true] at fits
  obtain ⟨⟨⟨⟨⟨⟨⟨first, last⟩, repeats⟩, base⟩, routing⟩, stops⟩, expression⟩, lift⟩ := fits
  exact .seq (reads_u8 first) (.seq (reads_u8 last) (.seq (reads_u8 repeats) (.seq (reads_u8 base)
    (.seq (reads_voices routing) (.seq (reads_divisions (fun _ => reads_stopStates) stops)
      (.seq (reads_divisions (fun _ => reads_u8) expression) (.last (reads_u8 lift))))))))

theorem reads_range {r : RangeFields} (fits : WellFormed.rangeFields r = true) :
    Reads readRange (u16 r.first ++ u16 r.last) r := by
  simp only [WellFormed.rangeFields, Bool.and_eq_true] at fits
  exact .seq (reads_u16 fits.1) (.last (reads_u16 fits.2))

theorem reads_header {h : HeaderFields} (fits : WellFormed.headerFields h = true) :
    Reads readHeader (headerFieldBytes h) h := by
  simp only [WellFormed.headerFields, Bool.and_eq_true] at fits
  obtain ⟨⟨⟨⟨⟨⟨⟨⟨number, beats⟩, nominal⟩, pmin⟩, pmax⟩, verseSteps⟩, amenSteps⟩, intro⟩, entries⟩ := fits
  exact .seq (reads_u16 number) (.seq (reads_u8 beats) (.seq (reads_long nominal) (.seq (reads_long pmin)
    (.seq (reads_long pmax) (.seq (reads_u16 verseSteps) (.seq (reads_u8 amenSteps)
      (.seq (reads_wire (fun _ => reads_range) intro) (.last (reads_u16 entries)))))))))

theorem reads_note {n : NoteFields} (fits : WellFormed.noteFields n = true) : Reads readNote (noteFieldBytes n) n := by
  simp only [WellFormed.noteFields, Bool.and_eq_true] at fits
  obtain ⟨⟨voice, pitch⟩, tieOn⟩ := fits
  rw [noteFieldBytes, List.append_assoc]
  exact .seq (reads_u8 voice) (.seq (reads_u8 pitch) (.last (reads_u8 tieOn)))

theorem reads_fermata {x : FermataFields} (fits : WellFormed.fermataFields x = true) :
    Reads readFermata (u8 x.kind ++ u8 x.factor) x := by
  simp only [WellFormed.fermataFields, Bool.and_eq_true] at fits
  exact .seq (reads_u8 fits.1) (.last (reads_u8 fits.2))

theorem reads_step {f : StepFields} (fits : WellFormed.stepFields f = true) :
    Reads readStepFields (stepFieldBytes f) f := by
  simp only [WellFormed.stepFields, Bool.and_eq_true] at fits
  obtain ⟨⟨⟨⟨⟨position, duration⟩, follow⟩, fermata⟩, count⟩, notes⟩ := fits
  exact .seq (reads_u16 position) (.seq (reads_u16 duration) (.seq (reads_u8 follow)
    (.seq (reads_wire (fun _ => reads_fermata) fermata) (.last (reads_list (fun _ => reads_note) count notes)))))

theorem reads_override {e : EntryFields} (fits : WellFormed.entryFields e = true) :
    Reads readOverride (overrideBytes e) e := by
  simp only [WellFormed.entryFields, Bool.and_eq_true] at fits
  obtain ⟨⟨⟨⟨⟨verse, mode⟩, registration⟩, transposition⟩, gapLength⟩, gapKind⟩ := fits
  exact .seq (reads_u8 verse) (.seq (reads_u8 mode) (.seq (reads_i8 transposition) (.seq (reads_u16 gapLength)
    (.seq (reads_u8 gapKind) (.last (reads_u8 registration))))))

theorem reads_entry {e : EntryFields} (fits : WellFormed.entryFields e = true) :
    Reads readEntryFields (entryFieldBytes e) e := by
  simp only [WellFormed.entryFields, Bool.and_eq_true] at fits
  obtain ⟨⟨⟨⟨⟨verse, mode⟩, registration⟩, transposition⟩, gapLength⟩, gapKind⟩ := fits
  exact .seq (reads_u8 verse) (.seq (reads_u8 mode) (.seq (reads_u8 registration) (.seq (reads_i8 transposition)
    (.seq (reads_u16 gapLength) (.last (reads_u8 gapKind))))))

theorem reads_start {f : StartFields} (fits : WellFormed.startFields f = true) :
    Reads readStart (startFieldBytes f) f := by
  simp only [WellFormed.startFields, Bool.and_eq_true] at fits
  obtain ⟨⟨⟨⟨⟨⟨⟨⟨⟨⟨slot, verseCount⟩, intro⟩, amen⟩, startKind⟩, gapLength⟩, gapKind⟩, join⟩, transposition⟩, count⟩,
    overrides⟩ := fits
  exact .seq (reads_u8 slot) (.seq (reads_u8 verseCount) (.seq (reads_u8 intro) (.seq (reads_u8 amen)
    (.seq (reads_u8 startKind) (.seq (reads_u16 gapLength) (.seq (reads_u8 gapKind) (.seq (reads_u8 join)
      (.seq (reads_i8 transposition) (.last (reads_list (fun _ => reads_override) count overrides))))))))))

theorem reads_amend {f : AmendFields} (fits : WellFormed.amendFields f = true) :
    Reads readAmend (amendFieldBytes f) f := by
  simp only [WellFormed.amendFields, Bool.and_eq_true] at fits
  obtain ⟨⟨⟨count, entries⟩, verseCount⟩, amen⟩ := fits
  exact .seq (reads_list (fun _ => reads_entry) count entries) (.seq (reads_wire (fun _ => reads_u8) verseCount)
    (.last (reads_wire (fun _ => reads_u8) amen)))

theorem looks_division : LooksNoFurther readDivision :=
  .seq looks_read8 fun _ => .seq looks_read8 fun _ => .seq looks_read8 fun _ => .seq looks_read16 fun _ =>
  .seq looks_read16 fun _ => .seq looks_read16 fun _ => .seq looks_read8 fun _ => .seq looks_read16 fun _ =>
  .seq looks_read8 fun _ => .seq looks_read8 fun _ => looks_readDone _

theorem looks_registration : LooksNoFurther readRegistration :=
  .seq looks_read8 fun _ => .seq looks_read8 fun _ => .seq looks_read8 fun _ => .seq looks_read8 fun _ =>
  .seq (looks_voices looks_read8) fun _ => .seq (looks_divisions (looks_many looks_read8 32)) fun _ =>
  .seq (looks_divisions looks_read8) fun _ => .seq looks_read8 fun _ => looks_readDone _

theorem looks_range : LooksNoFurther readRange :=
  .seq looks_read16 fun _ => .seq looks_read16 fun _ => looks_readDone _

theorem looks_header : LooksNoFurther readHeader :=
  .seq looks_read16 fun _ => .seq looks_read8 fun _ => .seq looks_read32 fun _ => .seq looks_read32 fun _ =>
  .seq looks_read32 fun _ => .seq looks_read16 fun _ => .seq looks_read8 fun _ => .seq (looks_wire looks_range) fun _ =>
  .seq looks_read16 fun _ => looks_readDone _

theorem looks_note : LooksNoFurther readNote :=
  .seq looks_read8 fun _ => .seq looks_read8 fun _ => .seq looks_read8 fun _ => looks_readDone _

theorem looks_fermata : LooksNoFurther readFermata :=
  .seq looks_read8 fun _ => .seq looks_read8 fun _ => looks_readDone _

theorem looks_stepFields : LooksNoFurther readStepFields :=
  .seq looks_read16 fun _ => .seq looks_read16 fun _ => .seq looks_read8 fun _ =>
  .seq (looks_wire looks_fermata) fun _ => .seq (looks_list looks_note) fun _ => looks_readDone _

theorem looks_override : LooksNoFurther readOverride :=
  .seq looks_read8 fun _ => .seq looks_read8 fun _ => .seq looks_readI8 fun _ => .seq looks_read16 fun _ =>
  .seq looks_read8 fun _ => .seq looks_read8 fun _ => looks_readDone _

theorem looks_entryFields : LooksNoFurther readEntryFields :=
  .seq looks_read8 fun _ => .seq looks_read8 fun _ => .seq looks_read8 fun _ => .seq looks_readI8 fun _ =>
  .seq looks_read16 fun _ => .seq looks_read8 fun _ => looks_readDone _

theorem looks_start : LooksNoFurther readStart :=
  .seq looks_read8 fun _ => .seq looks_read8 fun _ => .seq looks_read8 fun _ => .seq looks_read8 fun _ =>
  .seq looks_read8 fun _ => .seq looks_read16 fun _ => .seq looks_read8 fun _ => .seq looks_read8 fun _ =>
  .seq looks_readI8 fun _ => .seq (looks_list looks_override) fun _ => looks_readDone _

theorem looks_amend : LooksNoFurther readAmend :=
  .seq (looks_list looks_entryFields) fun _ => .seq (looks_wire looks_read8) fun _ =>
  .seq (looks_wire looks_read8) fun _ => looks_readDone _

/-! ### The requests -/

/-- The kind number of a request has a reader, which finds the request in its own bytes and looks no further. -/
theorem requestReader_kindOf (r : Request) (fits : WellFormed.request r = true) :
    ∃ p, requestReader (kindOf r) = some p ∧ Reads p (requestBytes r) r ∧ LooksNoFurther p := by
  cases r with
  | identify | getStatus | getFollow | clearStore | go | allOff | reservePlan | getPlan | fetchNotices | reset =>
    exact ⟨_, rfl, reads_readDone _, looks_readDone _⟩
  | getParam n | getDivision n | getRegistration n | tuneEnd n | tuneErase n | getDirectory n =>
    exact ⟨_, rfl, .last (reads_u8 fits), .seq looks_read8 fun _ => looks_readDone _⟩
  | setParam n v =>
    simp only [WellFormed.request, Bool.and_eq_true] at fits
    exact ⟨_, rfl, .seq (reads_u8 fits.1) (.last (reads_i32 fits.2)),
      .seq looks_read8 fun _ => .seq looks_readI32 fun _ => looks_readDone _⟩
  | setDivision d f =>
    simp only [WellFormed.request, Bool.and_eq_true] at fits
    exact ⟨_, rfl, .seq (reads_u8 fits.1) (.last (reads_division fits.2)),
      .seq looks_read8 fun _ => .seq looks_division fun _ => looks_readDone _⟩
  | setRegistration i r =>
    simp only [WellFormed.request, Bool.and_eq_true] at fits
    exact ⟨_, rfl, .seq (reads_u8 fits.1) (.last (reads_wire (fun _ => reads_registration) fits.2)),
      .seq looks_read8 fun _ => .seq (looks_wire looks_registration) fun _ => looks_readDone _⟩
  | tuneBegin n h =>
    simp only [WellFormed.request, Bool.and_eq_true] at fits
    exact ⟨_, rfl, .seq (reads_u8 fits.1) (.last (reads_header fits.2)),
      .seq looks_read8 fun _ => .seq looks_header fun _ => looks_readDone _⟩
  | tuneSteps n i l =>
    simp only [WellFormed.request, Bool.and_eq_true] at fits
    obtain ⟨⟨⟨slot, index⟩, count⟩, steps⟩ := fits
    exact ⟨_, rfl, .seq (reads_u8 slot) (.seq (reads_u16 index)
        (.last (reads_list (fun _ => reads_step) count steps))),
      .seq looks_read8 fun _ => .seq looks_read16 fun _ => .seq (looks_list looks_stepFields) fun _ => looks_readDone _⟩
  | tuneRead n i c =>
    simp only [WellFormed.request, Bool.and_eq_true] at fits
    obtain ⟨⟨slot, index⟩, count⟩ := fits
    exact ⟨_, rfl, .seq (reads_u8 slot) (.seq (reads_u16 index) (.last (reads_u8 count))),
      .seq looks_read8 fun _ => .seq looks_read16 fun _ => .seq looks_read8 fun _ => looks_readDone _⟩
  | startHymn f =>
    exact ⟨_, rfl, .last (reads_start fits), .seq looks_start fun _ => looks_readDone _⟩
  | stopHymn m a =>
    simp only [WellFormed.request, Bool.and_eq_true] at fits
    exact ⟨_, rfl, .seq (reads_u8 fits.1) (.last (reads_u8 fits.2)),
      .seq looks_read8 fun _ => .seq looks_read8 fun _ => looks_readDone _⟩
  | amendPlan f =>
    exact ⟨_, rfl, .last (reads_amend fits), .seq looks_amend fun _ => looks_readDone _⟩
  | setNotices g e =>
    simp only [WellFormed.request, Bool.and_eq_true] at fits
    exact ⟨_, rfl, .seq (reads_u8 fits.1) (.last (reads_u24 fits.2)),
      .seq looks_read8 fun _ => .seq looks_read24 fun _ => looks_readDone _⟩
  | ackFlags f =>
    exact ⟨_, rfl, .last (reads_u24 fits), .seq looks_read24 fun _ => looks_readDone _⟩

theorem kindByte_toNat (r : Request) : (BitVec.ofNat 8 (kindOf r)).toNat = kindOf r := by cases r <;> rfl

/-- A body that its kind's reader takes whole is that request; any other is of the wrong length (R169). -/
theorem parseRequest_of_reader {kind : Byte} {p : FieldReader Request} (known : requestReader kind.toNat = some p)
    (body : List Byte) :
    (∀ r, p body = some (r, []) → parseRequest kind body = .request r)
      ∧ ((∀ r, p body ≠ some (r, [])) → parseRequest kind body = .badLength) := by
  unfold parseRequest
  rw [known]
  refine ⟨fun r whole => ?_, fun other => ?_⟩
  · dsimp only
    rw [whole]
  · dsimp only
    split
    next r whole => exact absurd whole (other r)
    next => rfl

/-- Settles O11: the reader of a request's kind takes the whole of its layout. -/
theorem requestBytesReadBack : Obligations.RequestBytesReadBack := by
  intro r fits
  obtain ⟨p, known, reads, -⟩ := requestReader_kindOf r fits
  have whole := reads []
  rw [List.append_nil] at whole
  exact (parseRequest_of_reader (by rw [kindByte_toNat]; exact known) _).1 r whole

/-- A body that is a proper beginning of a layout, or that has bytes behind it, is of the wrong length. -/
theorem parseRequest_badLength {r : Request} {body more : List Byte} (fits : WellFormed.request r = true)
    (proper : more ≠ []) (wrong : requestBytes r = body ++ more ∨ body = requestBytes r ++ more) :
    parseRequest (BitVec.ofNat 8 (kindOf r)) body = .badLength := by
  obtain ⟨p, known, reads, looks⟩ := requestReader_kindOf r fits
  refine (parseRequest_of_reader (by rw [kindByte_toNat]; exact known) body).2 fun q found => ?_
  obtain short | rfl := wrong
  · have whole := reads []
    rw [List.append_nil, short, looks body q [] more found] at whole
    simp [proper] at whole
  · rw [reads more] at found
    simp [proper] at found

/-- The kinds of requests are 1 to 0x1B (9.5). -/
theorem requestReader_eq_none_iff (k : Nat) : requestReader k = none ↔ k = 0 ∨ 0x1B < k := by
  constructor
  · intro unknown
    by_contra inside
    have above : 0 < k := by omega
    have below : k < 28 := by omega
    interval_cases k <;> exact absurd unknown (by simp [requestReader])
  · rintro (rfl | above)
    · rfl
    · obtain ⟨m, rfl⟩ : ∃ m, k = m + 28 := ⟨k - 28, by omega⟩
      rfl

theorem parseRequest_badKind_iff (kind : Byte) (body : List Byte) :
    parseRequest kind body = .badKind ↔ kind.toNat = 0 ∨ 0x1B < kind.toNat := by
  rw [← requestReader_eq_none_iff]
  cases known : requestReader kind.toNat with
  | none => simp [parseRequest, known]
  | some p =>
    obtain ⟨whole, other⟩ := parseRequest_of_reader known body
    by_cases read : ∃ r, p body = some (r, [])
    · obtain ⟨r, read⟩ := read
      simp [whole r read]
    · simp [other (not_exists.mp read)]

/-! ### The frames that the interface answers itself (R169) -/

section
variable {s : State} {kind tag : Byte} {body : List Byte}

/-- A frame on an idle link is taken at once. -/
theorem receiveFrame_idle (dt : Nat) (idle : LinkIdle s) :
    exec (.receiveFrame dt kind tag body) s
      = .next (takeRequest ⟨kind, tag, parseRequest kind body⟩ { elapse dt s with link := { s.link with
          queue := [⟨kind, tag, parseRequest kind body⟩] } }) := by
  obtain ⟨live, queue, inHand, sending, busy⟩ := idle
  refine (onService_live dt _ s live).trans (congrArg _ ?_)
  show submit _ (elapse dt s) = _
  have joined : submit ⟨kind, tag, parseRequest kind body⟩ (elapse dt s)
      = pump { elapse dt s with link := { s.link with queue := [⟨kind, tag, parseRequest kind body⟩] } } := by
    simp [submit, queue, Config.requestPlaces, elapse]
  rw [joined]
  exact pump_taken rfl sending busy inHand

/-- A frame that the interface refuses is answered with the result code alone. -/
theorem receiveFrame_refused (dt : Nat) (idle : LinkIdle s) {x : Result} {content : Parsed}
    (parsed : parseRequest kind body = content)
    (refused : content = .badKind ∧ x = .BAD_KIND ∨ content = .badLength ∧ x = .BAD_LENGTH) :
    exec (.receiveFrame dt kind tag body) s
      = .next { elapse dt s with link := { s.link with
          queue := [⟨kind, tag, content⟩], inHand := true,
          sending := some ⟨replyFrame ⟨kind ||| 0x80#8, tag, u8 (resultCode x)⟩, true, false⟩ } } := by
  rw [receiveFrame_idle dt idle, parsed]
  obtain ⟨rfl, rfl⟩ | ⟨rfl, rfl⟩ := refused <;> rfl

end

/-- Settles O12: the row's frame is read back as the row's request, and what is not a request is refused. -/
theorem framesAreReadAsRequests : Obligations.FramesAreReadAsRequests := by
  refine ⟨fun r dt tag s fits mode => ?_, fun dt kind tag body s idle => ⟨?_, parseRequest_badKind_iff kind body⟩,
    fun r dt tag body more s idle fits proper wrong => ?_⟩
  · rw [exec_rowOf mode]
    show onService dt (submit ⟨BitVec.ofNat 8 (kindOf r), tag, .request r⟩) s
      = onService dt (submit ⟨BitVec.ofNat 8 (kindOf r), tag, parseRequest _ (requestBytes r)⟩) s
    rw [requestBytesReadBack r fits]
  · rintro code (⟨parsed, rfl⟩ | ⟨parsed, rfl⟩)
    · rw [receiveFrame_refused dt idle parsed (.inl ⟨rfl, rfl⟩), parsed]
      rfl
    · rw [receiveFrame_refused dt idle parsed (.inr ⟨rfl, rfl⟩), parsed]
      rfl
  · exact receiveFrame_refused dt idle (parseRequest_badLength fits proper wrong) (.inr ⟨rfl, rfl⟩)

end Sys2Proof.Proofs
end

section
/-! PROOFS. The reporting requests, the keyline enable, and the requests of the Flag and Notice Unit. -/

namespace Sys2Proof.Proofs

open Sys2Proof.Machine Sys2Proof.Laws Sys2Proof.Claims

variable {s : State}

/-! ### Reports (R21, R29, R37, R92, R171, R179, R184) -/

/-- A reporting request reads, and answers OK. -/
theorem answer_reports {r : Request} (reporting : reports r = true) (s : State) :
    ∃ fields, answer r s = ⟨.OK, fields, s⟩ := by
  cases r with
  | identify | getFollow | getPlan => exact ⟨_, rfl⟩
  | getParam n =>
    have known : 1 ≤ n ∧ n ≤ 28 := by simpa [reports] using reporting
    exact ⟨_, if_neg (not_not.mpr known)⟩
  | getDivision d =>
    obtain ⟨low, high⟩ : 1 ≤ d ∧ d ≤ 5 := by simpa [reports] using reporting
    match d, low, high with
    | 1, _, _ | 2, _, _ | 3, _, _ | 4, _, _ | 5, _, _ => exact ⟨_, rfl⟩
  | getRegistration i =>
    have known : i < Config.registrationCount := of_decide_eq_true reporting
    exact ⟨_, if_neg (not_not.mpr known)⟩
  | getDirectory n =>
    have known : n < Config.slotCount := of_decide_eq_true reporting
    exact ⟨_, if_neg (not_not.mpr known)⟩
  | _ => exact absurd reporting (by simp [reports])

/-- The status report begins with service time and the flags that are up (R179). -/
theorem statusBytes_begins (s : State) :
    ∃ rest, statusBytes s = timeBytes s.now ++ flagSetBytes (upSet s.flags) ++ rest := by
  unfold statusBytes
  simp only [List.append_assoc]
  exact ⟨_, rfl⟩

/-- Settles O13: each report's owner reads the part and answers OK. -/
theorem reportsChangeNothing : Obligations.ReportsChangeNothing := by
  refine ⟨fun r dt tag s idle reporting => ?_, fun dt tag s idle => ?_, fun dt tag s idle => ?_⟩
  · obtain ⟨fields, answered⟩ := answer_reports reporting (withQueued r tag (elapse dt s))
    refine ⟨fields, ?_⟩
    rw [exec_rowOf (fun m a same => absurd reporting (by simp [same, reports]))]
    exact onService_request_replied idle answered
  · have reset : u8 (match s.link.lastReset with | .FULL => 0 | .CONSOLE => 1)
        = [if s.link.lastReset = .CONSOLE then 1#8 else 0#8] := by cases s.link.lastReset <;> rfl
    have rate : u8 s.link.rate.toNat = [s.link.rate.setWidth 8] := by
      rw [u8, BitVec.ofNat_toNat]
    refine onService_request_replied idle ?_
    show answerIdentify _ = _
    rw [← reset]
    refine congrArg (fun x => (⟨.OK, x, _⟩ : Answer)) ?_
    have moved : (withQueued .identify tag (elapse dt s)).link.rate = s.link.rate := rfl
    rw [moved, rate]
    rfl
  · obtain ⟨fields, begins⟩ := statusBytes_begins (withQueued .getStatus tag (elapse dt s))
    refine ⟨fields, onService_request_replied (t := { elapse dt s with link := { s.link with errors := 0 } }) idle ?_⟩
    exact congrArg (fun x => (⟨.OK, x, _⟩ : Answer)) begins

/-! ### SET_PARAM in its two ways (R181), and the keyline enable (R160, R162) -/

section
variable {n x : Nat} {v : Int}

theorem answerSetParam_refused {r : Result} (refused : paramRefused n v s = some r) :
    answerSetParam n v s = refuse s r := by
  unfold answerSetParam
  rw [refused]

theorem answerSetParam_taken (accepted : paramRefused n v s = none) (clamped : clampParam n v s = x) :
    answerSetParam n v s = ⟨if (x : Int) = v then .OK else .CLAMPED,
      u8 n ++ i32 x ++ (if n = 19 then u32 (takeParam n x s).params.fermataCap else []), takeParam n x s⟩ := by
  unfold answerSetParam
  rw [accepted, clamped]

end

theorem takeParam_enable_on : takeParam 21 1 s = enableOn s := rfl
theorem takeParam_enable_off : takeParam 21 0 s = enableOff s := rfl

theorem paramRefused_enable_on : paramRefused 21 1 s = none := by
  simp [paramRefused, isChoice, paramBounds]

theorem paramRefused_enable_off (on : s.keyline.state ≠ .OFF) :
    paramRefused 21 0 s = if mayDisable s = false then some .WRONG_STATE else none := by
  simp [paramRefused, isChoice, paramBounds, on]

theorem mayDisable_eq_false_iff : mayDisable s = false ↔ s.player.state ≠ .IDLE ∨ anyDown s.map = true := by
  simp [mayDisable, imp_iff_not_or]

/-- Settles O15: the enable passes R181's tests exactly where R162 lets it, and does what R160 says. -/
theorem keylineEnableSweepsOrEmpties : Obligations.KeylineEnableSweepsOrEmpties := by
  refine ⟨fun dt tag s idle off => ?_, fun dt tag s idle on => ⟨fun busy => ?_, fun still up => ?_⟩⟩
  · refine onService_request_replied (r := .setParam 21 1) idle ?_
    refine (answerSetParam_taken paramRefused_enable_on rfl).trans ?_
    refine congrArg (Answer.mk .OK _) ((takeParam_enable_on).trans ?_)
    unfold enableOn
    rw [if_pos (show (withQueued _ tag (elapse dt s)).keyline.state = .OFF from off)]
    simp [enterSweep, withQueued, elapse, off]
  · refine onService_request_replied (r := .setParam 21 0) idle (answerSetParam_refused ?_)
    exact (paramRefused_enable_off on).trans (if_pos (mayDisable_eq_false_iff.mpr busy))
  · have free : ¬ mayDisable s = false := by
      rw [mayDisable_eq_false_iff]
      simp [still, up]
    refine onService_request_replied (r := .setParam 21 0) idle ?_
    refine (answerSetParam_taken (s := withQueued _ tag (elapse dt s))
      ((paramRefused_enable_off on).trans (if_neg free)) rfl).trans ?_
    exact congrArg (Answer.mk .OK _) ((takeParam_enable_off).trans (if_neg on))

/-! ### Flags and notices (R174 to R178) -/

theorem getElem?_allFlags_flagNumber (g : Flag) : allFlags[flagNumber g - 1]? = some g := by cases g <;> rfl

theorem flagNumber_inj {g h : Flag} (same : flagNumber g = flagNumber h) : g = h := by
  have place := getElem?_allFlags_flagNumber g
  rw [same, getElem?_allFlags_flagNumber] at place
  exact (Option.some.inj place).symm

theorem flagNumber_le (g : Flag) : flagNumber g - 1 < 18 := by cases g <;> decide

theorem mem_allFlags (g : Flag) : g ∈ allFlags := List.mem_of_getElem? (getElem?_allFlags_flagNumber g)

/-- The notices that are offered one after the other join as far as the queue has room; any beyond are dropped. -/
theorem foldl_offerNotice (l : List Raise) (f : Flags) :
    let t := l.foldl offerNotice f
    t.queue = f.queue ++ l.take (16 - f.queue.length)
      ∧ (f.queue.length ≤ 16 → t.dropped = (f.dropped || decide (16 < f.queue.length + l.length)))
      ∧ t.global = f.global ∧ t.enables = f.enables ∧ t.raised = f.raised := by
  induction l generalizing f with
  | nil =>
    refine ⟨by simp, fun fits => ?_, rfl, rfl, rfl⟩
    simp [Nat.not_lt.mpr fits]
  | cons r l ih =>
    obtain ⟨queue, dropped, global, enables, raised⟩ := ih (offerNotice f r)
    by_cases room : f.queue.length < 16
    · have joined : offerNotice f r = { f with queue := f.queue ++ [r] } := if_pos room
      have places : 16 - f.queue.length = (16 - (f.queue.length + 1)) + 1 := by omega
      rw [joined] at queue dropped global enables raised
      simp only [List.length_append, List.length_singleton] at queue dropped
      refine ⟨?_, fun _ => ?_, ?_, ?_, ?_⟩ <;> rw [List.foldl_cons, joined]
      · rw [queue, places]
        simp
      · rw [dropped (by omega), List.length_cons, Nat.add_assoc, Nat.add_comm 1]
      · exact global
      · exact enables
      · exact raised
    · have full : offerNotice f r = { f with dropped := true } := if_neg room
      have places : 16 - f.queue.length = 0 := by omega
      rw [full] at queue dropped global enables raised
      refine ⟨?_, fun fits => ?_, ?_, ?_, ?_⟩ <;> rw [List.foldl_cons, full]
      · rw [queue, places]
        simp
      · rw [dropped fits]
        simp
        omega
      · exact global
      · exact enables
      · exact raised

/-- The notices that SET_NOTICES offers, in flag order (R175). -/
theorem enableNotices_eq (global : Bool) (enables : BitVec 18) (f : Flags) :
    enableNotices global enables f
      = (allFlags.filterMap fun x => if noticesEnabled f x = false
            ∧ noticesEnabled { f with global := global, enables := enables } x = true then raiseRecord f x else none).foldl
          offerNotice { f with global := global, enables := enables } := by
  rw [List.foldl_filterMap]
  unfold enableNotices
  refine congrArg (fun step => List.foldl step _ _) (funext fun acc => funext fun x => ?_)
  cases raiseRecord f x with
  | none => simp
  | some r => split_ifs <;> simp_all

/-- Settles O16: the notices of the up flags newly enabled are offered in flag order. -/
theorem setNoticesQueuesForUpFlags : Obligations.SetNoticesQueuesForUpFlags := by
  intro dt g e tag s idle yesNo flags
  have enabled (x : Flag) : noticesEnabled { s.flags with global := g == 1, enables := BitVec.ofNat 18 e } x = enabledBy g e x := by
    rw [noticesEnabled, ownEnable, enabledBy, BitVec.getLsbD_ofNat, decide_eq_true (flagNumber_le x), Bool.true_and]
  have same := enableNotices_eq (g == 1) (BitVec.ofNat 18 e) s.flags
  simp only [enabled] at same
  obtain ⟨queue, dropped, global, enables, raised⟩ := foldl_offerNotice
    (allFlags.filterMap fun x => if noticesEnabled s.flags x = false ∧ enabledBy g e x = true
      then raiseRecord s.flags x else none) { s.flags with global := g == 1, enables := BitVec.ofNat 18 e }
  rw [← same] at queue dropped global enables raised
  refine ⟨enableNotices (g == 1) (BitVec.ofNat 18 e) s.flags, ?_, global, enables, raised, queue, dropped⟩
  refine onService_request_replied (r := .setNotices g e) idle ?_
  have good : ¬ (!(isYesNo g && isFlagSet e)) = true := by
    rw [isYesNo, isFlagSet, decide_eq_true yesNo, decide_eq_true flags]
    decide
  refine (if_neg good).trans ?_
  refine congrArg (fun x => (⟨.OK, x, _⟩ : Answer)) ?_
  have byte : (if (g == 1) = true then 1 else 0) = g := by
    match g, yesNo with
    | 0, _ | 1, _ => rfl
  rw [yn, byte]

/-- The named flags are down, the others as they were (R178). -/
theorem raiseRecord_lowerFlags (set : Nat) {f : Flags} (canonical : f.raised.wf none = true) (g : Flag) :
    raiseRecord (lowerFlags set f) g = if set.testBit (flagNumber g - 1) = true then none else raiseRecord f g := by
  have all (l : List Flag) (acc : Flags) (canonical : acc.raised.wf none = true) :
      raiseRecord (l.foldl (fun acc x => if set.testBit (flagNumber x - 1) then lowerFlag x acc else acc) acc) g
        = if g ∈ l ∧ set.testBit (flagNumber g - 1) = true then none else raiseRecord acc g := by
    induction l generalizing acc with
    | nil => simp
    | cons x l ih =>
      rw [List.foldl_cons]
      by_cases named : set.testBit (flagNumber x - 1) = true
      · rw [if_pos named, ih _ (Table.wf_set _ _ canonical)]
        by_cases here : g = x
        · subst here
          simp [named, raiseRecord, lowerFlag, Table.get_set_same _ _ canonical]
        · have other : flagNumber g ≠ flagNumber x := fun same => here (flagNumber_inj same)
          simp [here, raiseRecord, lowerFlag, Table.get_set_other _ other canonical]
      · rw [if_neg named, ih _ canonical]
        by_cases here : g = x
        · subst here
          simp [named]
        · simp [here]
  rw [lowerFlags, all allFlags f canonical]
  simp [mem_allFlags]

theorem lowerFlags_else (set : Nat) (f : Flags) :
    (lowerFlags set f).queue = f.queue ∧ (lowerFlags set f).dropped = f.dropped
      ∧ (lowerFlags set f).global = f.global ∧ (lowerFlags set f).enables = f.enables := by
  unfold lowerFlags
  induction allFlags generalizing f with
  | nil => exact ⟨rfl, rfl, rfl, rfl⟩
  | cons x l ih =>
    rw [List.foldl_cons]
    split
    · exact ih (lowerFlag x f)
    · exact ih f

/-- Settles O17: the oldest notices by the queue, the flags by the raise records put down one by one. -/
theorem noticesAreFetchedAndFlagsPutDown : Obligations.NoticesAreFetchedAndFlagsPutDown := by
  refine ⟨fun dt tag s idle => ?_, fun dt e tag s idle flags canonical => ?_⟩
  · refine onService_request_replied (r := .fetchNotices) idle ?_
    have cleared : (s.flags.dropped && !(s.flags.queue.drop 4).isEmpty)
        = if s.flags.queue.length ≤ 4 then false else s.flags.dropped := by
      split_ifs with few
      · simp [List.drop_eq_nil_of_le few]
      · simp [List.drop_eq_nil_iff, few]
    rw [← cleared, ← List.length_take, ← List.length_drop]
    rfl
  · obtain ⟨queue, dropped, global, enables⟩ := lowerFlags_else e s.flags
    refine ⟨lowerFlags e s.flags, _, ?_, raiseRecord_lowerFlags e canonical, queue, dropped, global, enables, rfl⟩
    refine onService_request_replied (r := .ackFlags e) idle ?_
    have good : ¬ (!isFlagSet e) = true := by
      rw [isFlagSet, decide_eq_true flags]
      decide
    exact if_neg good

/-- Settles O18: by whether the flag is up, and by the room in the Notice Queue. -/
theorem onlyARiseIsNoticed : Obligations.OnlyARiseIsNoticed := by
  refine ⟨fun k s canonical => ⟨fun up => ?_, fun down => ?_⟩, fun s => ?_⟩
  · show { s with flags := raiseFlags s.now k s.flags } = s
    rw [raiseFlags, if_pos up]
  · let risen : Flags := { s.flags with raised := s.flags.raised.set none (flagNumber (flagOf k)) (some ⟨s.now, k⟩) }
    have rise : (raise k s).flags
        = if noticesEnabled s.flags (flagOf k) = true then offerNotice risen ⟨s.now, k⟩ else risen :=
      if_neg (ne_true_of_eq_false down)
    have raised : (raise k s).flags.raised = risen.raised := by
      rw [rise]
      split
      · exact offerNotice_raised _ _
      · rfl
    refine ⟨?_, fun g other => ?_, fun off => ?_, fun on room => ?_, fun on full => ?_⟩
    · rw [raiseRecord, raised]
      exact Table.get_set_same _ _ canonical
    · rw [raiseRecord, raised]
      exact Table.get_set_other _ (fun same => other (flagNumber_inj same)) canonical
    · rw [rise, if_neg (ne_true_of_eq_false off)]
    · rw [rise, if_pos on]
      exact congrArg Flags.queue (if_pos room)
    · have dropped : offerNotice risen ⟨s.now, k⟩ = { risen with dropped := true } := if_neg (Nat.not_lt.mpr full)
      rw [rise, if_pos on, dropped]
      exact ⟨rfl, rfl⟩
  · simp [attention]

end Sys2Proof.Proofs
end

section
/-! PROOFS. Divisions and registrations: what SET_DIVISION and SET_REGISTRATION write (R26 to R28, R33, R34). -/

namespace Sys2Proof.Proofs

open Sys2Proof.Machine Sys2Proof.Laws Sys2Proof.Claims

/-! ### Reading and writing the tables -/

/-- Keeping the cells of some indices alone gives these as they were, and the rest blank. -/
theorem readCells_filter {α : Type} [DecidableEq α] {b : α} (p : Nat → Bool) {l : List (Nat × α)}
    (canonical : wfCells b l = true) (k : Nat) :
    readCells b (l.filter fun c => p c.1) k = if p k then readCells b l k else b := by
  induction l with
  | nil => simp [readCells]
  | cons c rest ih =>
    obtain ⟨-, rising, restCanonical⟩ := wfCells_cons.mp canonical
    have behindIt := ih restCanonical
    obtain below | rfl | behind := lt_trichotomy k c.1
    · have blank : readCells b (rest.filter fun c => p c.1) k = b :=
        readCells_below fun x member => below.trans (rising x (List.mem_of_mem_filter member))
      rw [List.filter_cons]
      split <;> simp [readCells, below, blank]
    · have blank : readCells b (rest.filter fun c => p c.1) c.1 = b :=
        readCells_below fun x member => rising x (List.mem_of_mem_filter member)
      rw [List.filter_cons]
      split <;> simp [readCells, *]
    · rw [List.filter_cons]
      split <;> simp [readCells, behind.not_gt, behind.ne', behindIt]

theorem divGet_divBuild {α : Type} (f : Division → α) (d : Division) : divGet (divBuild f) d = f d := by
  cases d <;> rfl

theorem mem_allDivisions (d : Division) : d ∈ allDivisions := by cases d <;> decide

theorem voiceList_voiceMap {α β : Type} (f : α → β) (p : PerVoice α) : voiceList (voiceMap f p) = (voiceList p).map f := rfl

theorem getLsbD_stopMask (b : BitVec 32) (n : Nat) {k : Nat} (stop : k < 32) :
    (b &&& stopMask n).getLsbD k = (decide (k < n) && b.getLsbD k) := by
  rw [BitVec.getLsbD_and, stopMask, BitVec.getLsbD_ofNat, decide_eq_true stop, Nat.testBit_two_pow_sub_one,
    Bool.true_and, Bool.and_comm]

/-! ### SET_DIVISION (R26 to R28) -/

theorem clampNat_zero (hi v : Nat) : clampNat 0 hi v = min v hi := by
  unfold clampNat
  split_ifs <;> omega

theorem clampNat_eq {lo hi : Nat} (order : lo ≤ hi) (v : Nat) : clampNat lo hi v = min (max v lo) hi := by
  unfold clampNat
  split_ifs <;> omega

theorem clampDivision_eq (f : DivisionFields) : clampDivision f = limitedDivision f := by
  simp only [clampDivision, limitedDivision, clampNat_zero, clampNat_eq (show 1 ≤ 64 by decide)]

theorem divisionLimited_eq (f : DivisionFields) : divisionLimited f = divisionChanged f (limitedDivision f) := by
  unfold divisionLimited divisionChanged
  rw [clampDivision_eq, Bool.eq_iff_iff]
  simp only [Bool.not_eq_true', Bool.and_eq_false_iff, beq_eq_false_iff_ne, decide_eq_true_eq, or_assoc]

/-- R28: what becomes of a registration record. -/
theorem agreed_agreeRegistration (d : Division) (old new : DivisionRec) (r : Registration) :
    Agreed d old new r (agreeRegistration d old new r) := by
  cases absent : new.present with
  | false =>
    have agreed : agreeRegistration d old new r = { r with
        routing := voiceMap (fun x => if x = some d then none else x) r.routing,
        stops := divSet r.stops d none, expression := divSet r.expression d none } := by
      simp [agreeRegistration, absent]
    rw [agreed]
    refine ⟨rfl, fun e other => ?_, fun _ => ?_, fun present => ?_, fun present => ?_, fun present => ?_⟩
    · simp [divGet_divSet, other]
    · simp [divGet_divSet]
    all_goals exact absurd (absent.symm.trans present) Bool.false_ne_true
  | true =>
    cases fresh : old.present with
    | false =>
      have agreed : agreeRegistration d old new r = { r with
          stops := divSet r.stops d (some 0#32),
          expression := divSet r.expression d (if new.enclosed then some .UNCHANGED else none) } := by
        simp [agreeRegistration, absent, fresh]
      rw [agreed]
      refine ⟨rfl, fun e other => ?_, fun gone => ?_, fun _ => rfl, fun _ _ => ?_, fun _ was => ?_⟩
      · simp [divGet_divSet, other]
      · exact absurd (absent.symm.trans gone) (by decide)
      · simp [divGet_divSet]
      · exact absurd (fresh.symm.trans was) Bool.false_ne_true
    | true =>
      have agreed : agreeRegistration d old new r = { r with
          stops := divSet r.stops d ((divGet r.stops d).map (fun b => b &&& stopMask new.stopCount)),
          expression := if new.enclosed = false then divSet r.expression d none
            else if old.enclosed = false then divSet r.expression d (some .UNCHANGED) else r.expression } := by
        simp [agreeRegistration, absent, fresh]
      rw [agreed]
      refine ⟨rfl, fun e other => ?_, fun gone => ?_, fun _ => rfl, fun _ was => ?_, fun _ _ => ⟨?_, ?_, ?_⟩⟩
      · split_ifs <;> simp [divGet_divSet, other]
      · exact absurd (absent.symm.trans gone) (by decide)
      · exact absurd (fresh.symm.trans was) (by decide)
      · simp [divGet_divSet]
      · intro b b' held now k stop
        simp only [divGet_divSet, if_true, held, Option.map_some, Option.some.injEq] at now
        rw [← now, getLsbD_stopMask b _ stop]
      · split_ifs <;> simp [divGet_divSet]

theorem not_routed_agreeRegistration {d : Division} {old new : DivisionRec} (absent : new.present = false)
    (r : Registration) : ∀ x ∈ voiceList (agreeRegistration d old new r).routing, x ≠ some d := by
  obtain ⟨-, -, gone, -⟩ := agreed_agreeRegistration d old new r
  rw [(gone absent).1, voiceList_voiceMap]
  intro x routed
  obtain ⟨y, -, rfl⟩ := List.mem_map.mp routed
  split
  · exact nofun
  · assumption

section
variable {s : State} {n : Nat} {f : DivisionFields}

theorem yesNo_of_valid (valid : yesNoValid f) :
    ¬ (!(isYesNo f.present && isYesNo f.leakTracking && isYesNo f.enclosed)) = true := by
  obtain ⟨present, tracking, enclosed⟩ := valid
  simp [isYesNo, present, tracking, enclosed]

theorem answerSetDivision_accepted {d : Division} (named : divisionOf n = some d) (valid : yesNoValid f)
    (still : s.player.state = .IDLE) (off : s.keyline.state = .OFF) :
    answerSetDivision n f s = ⟨if divisionChanged f (limitedDivision f) then .CLAMPED else .OK,
      divisionBytes (limitedDivision f) ++ (u8 (keyGroups (limitedDivision f)) ++ u8 (stopGroups (limitedDivision f))
        ++ u8 (if (limitedDivision f).present then 0 else routedRecords d s.organ.registrations)),
      writeDivision d (limitedDivision f) s⟩ := by
  unfold answerSetDivision
  rw [named]
  dsimp only
  rw [if_neg (yesNo_of_valid valid), if_neg (not_not.mpr still), if_neg (not_not.mpr off), clampDivision_eq,
    divisionLimited_eq]
  simp only [List.append_assoc]

theorem answerSetDivision_unknown (unknown : n = 0 ∨ 5 < n) : answerSetDivision n f s = refuse s .BAD_FIELD := by
  have none : divisionOf n = none := by
    obtain rfl | above := unknown
    · rfl
    · obtain ⟨m, rfl⟩ : ∃ m, n = m + 6 := ⟨n - 6, by omega⟩
      rfl
  unfold answerSetDivision
  rw [none]

theorem exists_divisionOf (low : 1 ≤ n) (high : n ≤ 5) : ∃ d, divisionOf n = some d := by
  match n, low, high with
  | 1, _, _ | 2, _, _ | 3, _, _ | 4, _, _ | 5, _, _ => exact ⟨_, rfl⟩

theorem answerSetDivision_busy (low : 1 ≤ n) (high : n ≤ 5) (valid : yesNoValid f)
    (busy : s.player.state ≠ .IDLE ∨ s.keyline.state ≠ .OFF) : answerSetDivision n f s = refuse s .WRONG_STATE := by
  obtain ⟨d, named⟩ := exists_divisionOf low high
  unfold answerSetDivision
  rw [named]
  dsimp only
  rw [if_neg (yesNo_of_valid valid)]
  by_cases active : s.player.state ≠ .IDLE
  · rw [if_pos active]
  · rw [if_neg active, if_pos (busy.resolve_left active)]

end

theorem keyId_div (d : Division) {k : Nat} (below : k < 64) : keyId d k / 64 = divisionNumber d := by
  unfold keyId
  omega

/-- The map entries of the division are cleared, the others stay (R28). -/
theorem keyEntry_clearDivisionMap {m : SoundingMap} (canonical : m.keys.wf noKey = true) (d e : Division) {k : Nat}
    (below : k < 64) : keyEntry (clearDivisionMap d m) e k = if e = d then noKey else keyEntry m e k := by
  refine (readCells_filter (fun i => i / 64 != divisionNumber d) canonical (keyId e k)).trans ?_
  rw [keyId_div e below]
  by_cases same : e = d
  · simp [same]
  · have other : divisionNumber e ≠ divisionNumber d := mt divisionNumber_inj.mp same
    simp [same, other, keyEntry, Table.get]

theorem registrationAt_writeDivision (d : Division) (new : DivisionRec) (s : State) (i : Nat) :
    registrationAt (writeDivision d new s).organ i
      = (registrationAt s.organ i).map (agreeRegistration d (divRec s.organ d) new) :=
  readCells_map _ _ i

/-- Settles O19: by the division written, in the organ, in the map and in each registration record. -/
theorem setDivisionReplacesTheRecord : Obligations.SetDivisionReplacesTheRecord := by
  refine ⟨fun dt n d f tag s idle named valid still off canonical => ?_, fun dt n f tag s idle valid =>
    ⟨fun unknown => ?_, fun low high busy => ?_⟩⟩
  · let new := limitedDivision f
    have records := registrationAt_writeDivision d new s
    refine ⟨(writeDivision d new s).organ, clearDivisionMap d s.map, _,
      onService_request_replied (r := .setDivision n f) idle (answerSetDivision_accepted named valid still off),
      ?_, fun e other => ?_, fun k below => ?_, ?_, ?_, fun e k other below => ?_, fun e other => ⟨?_, ?_⟩,
      fun absent i r held => ?_, fun i none => ?_, fun i r held => ?_⟩
    · exact (divGet_divSet _ d d _).trans (if_pos rfl)
    · exact (divGet_divSet _ d e _).trans (if_neg other)
    · exact (keyEntry_clearDivisionMap canonical d d below).trans (if_pos rfl)
    · exact (divGet_divSet _ d d _).trans (if_pos rfl)
    · exact (divGet_divSet _ d d _).trans (if_pos rfl)
    · exact (keyEntry_clearDivisionMap canonical d e below).trans (if_neg other)
    · exact (divGet_divSet _ d e _).trans (if_neg other)
    · exact (divGet_divSet _ d e _).trans (if_neg other)
    · obtain ⟨q, -, rfl⟩ := Option.map_eq_some_iff.mp ((records i).symm.trans held)
      exact not_routed_agreeRegistration (by simp [limitedDivision, absent, new]) q
    · rw [records, none]
      rfl
    · exact ⟨_, by rw [records, held]; rfl, agreed_agreeRegistration d _ new r⟩
  · exact onService_request_replied (r := .setDivision n f) idle (answerSetDivision_unknown unknown)
  · exact onService_request_replied (r := .setDivision n f) idle (answerSetDivision_busy low high valid busy)

/-! ### SET_REGISTRATION (R33, R34) -/

theorem asRouting_join (n : Nat) : (asRouting n).join = divisionOf n := by
  unfold asRouting
  split
  next silent => rw [silent]; rfl
  next => cases divisionOf n <;> rfl

/-- Bit `k` of the stop states is the `k`th byte sent. -/
theorem testBit_stops (l : List Nat) (bytes : ∀ b ∈ l, b ≤ 1) (k : Nat) :
    (l.foldr (fun b acc => b % 2 + 2 * acc) 0).testBit k = (l[k]? == some 1) := by
  induction l generalizing k with
  | nil => simp
  | cons b l ih =>
    rw [List.foldr_cons]
    cases k with
    | zero =>
      have byte := bytes b List.mem_cons_self
      have low : (b % 2 + 2 * l.foldr (fun b acc => b % 2 + 2 * acc) 0) % 2 = b := by omega
      rw [Nat.testBit_zero, low]
      rfl
    | succ k =>
      have half : (b % 2 + 2 * l.foldr (fun b acc => b % 2 + 2 * acc) 0) / 2 = l.foldr (fun b acc => b % 2 + 2 * acc) 0 := by
        omega
      rw [Nat.testBit_succ, half, ih fun c member => bytes c (List.mem_cons_of_mem b member)]
      rfl

section
variable {o : Organ} {f : RegistrationFields} {s : State}

theorem registrationLimited_iff :
    registrationLimited o f = true ↔ 48 < f.lift ∨ ∃ d, (divRec o d).present = true
      ∧ (divRec o d).enclosed = true ∧ 16 < divGet f.expression d := by
  simp [registrationLimited, hasExpression, mem_allDivisions, and_assoc]

theorem firstUnroutable_eq_none (routed : ∀ n ∈ voiceList f.routing, n = 6
    ∨ ∃ d, divisionOf n = some d ∧ (divRec o d).present = true) : firstUnroutable o f.routing = none := by
  refine List.findIdx?_eq_none_iff.mpr fun n voice => ?_
  obtain rfl | ⟨d, named, present⟩ := routed n voice
  · rfl
  · have notSilent : n ≠ 6 := by
      rintro rfl
      exact nomatch named
    simp [routable, asRouting, notSilent, named, present]

theorem answerSetRegistration_stored {i : Nat} (known : i < 16) (valid : registrationValid s.organ f) :
    answerSetRegistration i (.present f) s = ⟨if registrationLimited s.organ f then .CLAMPED else .OK,
      registrationBytes s.organ (storedRegistration s.organ f),
      writeRegistration i (some (storedRegistration s.organ f)) s⟩ := by
  obtain ⟨first, order, last, repeats, few, base, routed, stops⟩ := valid
  have states : stopFieldsValid f = true :=
    List.all_eq_true.mpr fun d _ => List.all_eq_true.mpr fun b member => decide_eq_true (stops d b member)
  unfold answerSetRegistration
  simp [Config.registrationCount, known, states, first, order, last, repeats, few, base,
    firstUnroutable_eq_none routed]

end

/-- Settles O20: by the presence byte, and by the limits of each division that can take the target. -/
theorem setRegistrationStoresOrRemoves : Obligations.SetRegistrationStoresOrRemoves := by
  intro dt i tag s idle known canonical
  have here (r : Option Registration) : registrationAt (writeRegistration i r s).organ i = r :=
    Table.get_set_same i r canonical
  have elsewhere (r : Option Registration) (j : Nat) (other : j ≠ i) :
      registrationAt (writeRegistration i r s).organ j = registrationAt s.organ j := Table.get_set_other r other canonical
  refine ⟨⟨(writeRegistration i none s).organ, ?_, rfl, here none, elsewhere none⟩, fun f valid => ?_⟩
  · refine onService_request_replied (r := .setRegistration i .absent) idle ?_
    exact if_neg (not_not.mpr known)
  · let r := storedRegistration s.organ f
    have ⟨_, _, _, _, _, _, _, bytes⟩ := valid
    have stops (d : Division) : divGet r.stops d = if (divRec s.organ d).present
        then some (stopsOf (divGet f.stops d) &&& stopMask (divRec s.organ d).stopCount) else none := divGet_divBuild _ d
    have expression (d : Division) : divGet r.expression d = if hasExpression (divRec s.organ d)
        then some (asExpression (divGet f.expression d)) else none := divGet_divBuild _ d
    refine ⟨(writeRegistration i (some r) s).organ, if registrationLimited s.organ f then .CLAMPED else .OK,
      registrationBytes s.organ r, r,
      onService_request_replied (r := .setRegistration i (.present f)) idle
        (answerSetRegistration_stored (s := withQueued _ tag (elapse dt s)) known valid),
      ?_, ?_, ?_, rfl, here (some r), elsewhere (some r), rfl, rfl, rfl, rfl, ?_, rfl, fun d => ?_, fun d => ?_,
      fun d b held k stop => ?_, fun d e held => ?_⟩
    · split
      · exact .inr rfl
      · exact .inl rfl
    · rw [← registrationLimited_iff]
      cases registrationLimited s.organ f <;> simp
    · rfl
    · exact congrArg (voiceMap · f.routing) (funext asRouting_join)
    · rw [stops]
      cases (divRec s.organ d).present <;> rfl
    · rw [expression, ← hasExpression]
      cases hasExpression (divRec s.organ d) <;> rfl
    · rw [stops] at held
      split at held
      · cases held
        rw [getLsbD_stopMask _ _ stop, stopsOf, BitVec.getLsbD_ofNat, decide_eq_true stop,
          testBit_stops _ (bytes d), Bool.true_and]
      · exact absurd held (by simp)
    · rw [expression] at held
      split at held
      · exact (Option.some.inj held).symm
      · exact absurd held (by simp)

end Sys2Proof.Proofs
end

section
/-! PROOFS. ALL_OFF, and the requests that reserve and amend the plan (R93, R94, R114, R130, R143, R161). -/

namespace Sys2Proof.Proofs

open Sys2Proof.Machine Sys2Proof.Laws Sys2Proof.Claims

variable {s : State}

/-- A request's row on an idle link, where its owner's answer leaves the link. -/
theorem onService_request_answered {r : Request} {dt : Nat} {tag : Byte} {s t : State} {x : Result}
    {fields : List Byte} (idle : LinkIdle s) (answered : answer r (withQueued r tag (elapse dt s)) = ⟨x, fields, t⟩)
    (link : t.link = (withQueued r tag (elapse dt s)).link) :
    onService dt (request tag r) s = .next (replied r tag x fields { t with link := s.link }) := by
  refine onService_request_replied (t := { t with link := s.link }) idle (answered.trans ?_)
  have same : t = withQueued r tag { t with link := s.link } := by
    show t = { t with link := _ }
    rw [← show t.link = { s.link with queue := [queuedRow r tag] } from link]
  exact congrArg (Answer.mk x fields) same

/-! ### The end of a hymn with no key down -/

/-- A judgement of backlog changes the indication and the flags alone. -/
theorem judgeBacklog_eq (s : State) :
    ∃ b f, judgeBacklog s = { s with listen := { s.listen with backlog := b }, flags := f } := by
  unfold judgeBacklog
  dsimp only
  split_ifs
  · exact ⟨true, _, rfl⟩
  · exact ⟨false, s.flags, rfl⟩
  · exact ⟨s.listen.backlog, s.flags, rfl⟩

theorem emptyOnsets_eq (s : State) :
    ∃ b f, emptyOnsets s = { s with listen := { s.listen with queue := [], backlog := b }, flags := f } :=
  judgeBacklog_eq { s with listen := { s.listen with queue := [] } }

theorem becomeIdle_eq (s : State) :
    ∃ b f, becomeIdle s = { s with
      store := setSlotState (s.player.slot.getD 0) .READY s.store,
      follow := followOff s.follow,
      player := idlePlayer s.player,
      keyline := { s.keyline with watch := none },
      listen := { s.listen with queue := [], backlog := b },
      flags := f } :=
  emptyOnsets_eq _

theorem downKeys_of_silent {m : SoundingMap} (silent : anyDown m = false) : downKeys m = [] := by
  have up : ∀ c ∈ m.keys.cells, ¬ (!c.2.holders.isEmpty) = true := List.any_eq_false.mp silent
  rw [downKeys, List.filter_eq_nil_iff.mpr up]
  rfl

/-- With no key down there is nothing to release. -/
theorem releaseHeld_of_silent (silent : anyDown s.map = false) (sec : Nat) :
    releaseHeld sec s = { s with keys := inOrder s.keys } := by
  rw [releaseHeld, heldPairs, downKeys_of_silent silent]
  rfl

theorem setSlotState_pool (n : Nat) (x : SlotState) (st : Store) : (setSlotState n x st).pool = st.pool := by
  unfold setSlotState
  split <;> rfl

/-- The part that enters STOPPING with no key down (R113). -/
theorem stopNow_of_silent (silent : anyDown s.map = false) :
    stopNow s = emptyOnsets { s with
      keys := cancelAll s.keys,
      player := stoppingPlayer (s.player.sec.getD 0) s.player,
      follow := followOff s.follow,
      keyline := { s.keyline with watch := none } } := by
  rw [stopNow, releaseHeld_of_silent (s := { s with keys := cancelAll s.keys }) silent]
  rfl

theorem idleIfDone_of_done (state : s.player.state = .ENDING ∨ s.player.state = .STOPPING) (events : s.keys.events = [])
    (silent : anyDown s.map = false) : idleIfDone s = becomeIdle s := by
  have due : idleDue s = true := by
    obtain state | state := state <;> simp [idleDue, state, events, silent]
  exact if_pos due

/-! ### ALL_OFF -/

/-- The part silenced, the Keyline swept and the Follower OFF: ALL_OFF up to the Player. -/
def silenced (s : State) : State :=
  let quiet := silenceMap { s with keys := cancelAll s.keys }
  { quiet with keyline := allOffKeyline quiet.organ quiet.keyline, follow := followOff quiet.follow }

theorem watch_allOffKeyline (o : Organ) (k : Keyline) : (allOffKeyline o k).watch = none := by
  unfold allOffKeyline
  split <;> rfl

theorem silenced_watch (s : State) : { (silenced s).keyline with watch := none } = (silenced s).keyline := by
  show { allOffKeyline s.organ s.keyline with watch := none } = allOffKeyline s.organ s.keyline
  rw [← watch_allOffKeyline s.organ s.keyline]

/-- Whatever the Player's state, ALL_OFF leaves the silenced part with no onset and the Player in IDLE. -/
theorem allOff_spec (s : State) :
    ∃ p f l fl st, allOff s = { silenced s with player := p, follow := f, listen := l, flags := fl, store := st }
      ∧ p.state = .IDLE ∧ f.state = .OFF ∧ l.queue = [] ∧ st.pool = s.store.pool := by
  have stages : allOff s = emptyOnsets (if s.player.state = .IDLE then silenced s else idleIfDone
      (if s.player.state = .STOPPING then silenced s else stopNow (silenced s))) := rfl
  have ended {t : State} {p : Player} {l : Listen} {fl : Flags}
      (same : t = { silenced s with player := p, listen := l, flags := fl }) (stopping : p.state = .STOPPING) :
      ∃ p f l fl st, emptyOnsets (idleIfDone t)
          = { silenced s with player := p, follow := f, listen := l, flags := fl, store := st }
        ∧ p.state = .IDLE ∧ f.state = .OFF ∧ l.queue = [] ∧ st.pool = s.store.pool := by
    subst same
    rw [idleIfDone_of_done (.inr stopping) rfl rfl]
    obtain ⟨_, _, idle⟩ := becomeIdle_eq { silenced s with player := p, listen := l, flags := fl }
    obtain ⟨b, fl', emptied⟩ := emptyOnsets_eq (becomeIdle { silenced s with player := p, listen := l, flags := fl })
    rw [emptied, idle]
    refine ⟨idlePlayer p, followOff (silenced s).follow, { l with queue := [], backlog := b }, fl',
      setSlotState (p.slot.getD 0) .READY s.store, ?_, rfl, rfl, rfl, setSlotState_pool _ _ _⟩
    exact congrArg (fun k => ({ silenced s with
      player := idlePlayer p, follow := followOff (silenced s).follow, listen := { l with queue := [], backlog := b },
      flags := fl', store := setSlotState (p.slot.getD 0) .READY s.store, keyline := k } : State)) (silenced_watch s)
  rw [stages]
  split
  next idle =>
    obtain ⟨_, _, emptied⟩ := emptyOnsets_eq (silenced s)
    exact ⟨_, _, _, _, _, emptied, idle, rfl, rfl, rfl⟩
  next =>
    split
    next stopping => exact ended rfl stopping
    next =>
      obtain ⟨b, fl, emptied⟩ := emptyOnsets_eq { silenced s with
        player := stoppingPlayer (s.player.sec.getD 0) s.player }
      have stopped := stopNow_of_silent (s := silenced s) rfl
      rw [silenced_watch] at stopped
      exact ended (stopped.trans emptied) rfl

/-- Settles O33: by the state of the Player, the keys and events being gone before it is judged. -/
theorem allOffSilencesThePart : Obligations.AllOffSilencesThePart := by
  intro dt tag s idle canonical
  obtain ⟨p, f, l, fl, st, off, player, follow, onsets, pool⟩ := allOff_spec (withQueued .allOff tag (elapse dt s))
  let t : State := { silenced (withQueued .allOff tag (elapse dt s)) with
    player := p, follow := f, listen := l, flags := fl, store := st, link := s.link }
  have answered : exec (.allOff dt tag) s = .next (replied .allOff tag .OK [] t) :=
    onService_request_answered (r := .allOff) idle (congrArg (Answer.mk .OK []) off) rfl
  refine ⟨t, answered, rfl, rfl, rfl, rfl, onsets, follow, player, watch_allOffKeyline _ _, fun off => ?_, fun on => ?_,
    fun c class12 => ?_, rfl, rfl, pool⟩
  · have unswept : t.keyline = { s.keyline with watch := none } := if_pos off
    rw [unswept]
    exact off
  · have swept : t.keyline = { enterSweep s.organ s.keyline with watch := none } := if_neg on
    rw [swept]
    exact ⟨rfl, rfl, rfl, rfl, rfl⟩
  · have entry : leakEntry t.leak c
        = ⟨0, timePlus (s.now + BitVec.ofNat 32 dt) (largestTail s.organ), (leakEntry s.leak c).fresh⟩ :=
      (leakEntry_silenceLeak _ canonical c).trans (if_pos class12)
    rw [entry]
    exact ⟨rfl, rfl, rfl⟩

/-! ### RESERVE_PLAN (R93) -/

theorem not_hymnActive_iff : ¬ HymnActive s ↔ s.player.state = .IDLE ∨ s.player.state = .STOPPING := by
  unfold HymnActive
  tauto

theorem firstUnlatched_eq {p : Player} {pl : Plan} (stands : p.plan = some pl) :
    firstUnlatched p = (pl.entries.find? (fun e => !e.latched)).map (·.verse) := by
  unfold firstUnlatched
  rw [stands]

/-- The first entry of a list with a property, behind those without it. -/
theorem find?_append_cons {α : Type} {p : α → Bool} {done rest : List α} {e : α} (before : ∀ x ∈ done, p x = false)
    (here : p e = true) : (done ++ e :: rest).find? p = some e := by
  have none : done.find? p = none := List.find?_eq_none.mpr fun x member => by simp [before x member]
  rw [List.find?_append, none, List.find?_cons_of_pos here]
  rfl

theorem answerReservePlan_allLatched (active : HymnActive s) (unlatched : firstUnlatched s.player = none) :
    answerReservePlan s = refuse s .TOO_LATE := by
  unfold answerReservePlan
  rw [if_neg (mt not_hymnActive_iff.mpr (not_not.mpr active)), unlatched]

theorem answerReservePlan_held (active : HymnActive s) {v : Nat} (unlatched : firstUnlatched s.player = some v) :
    answerReservePlan s = ⟨.OK, u8 v ++ planReport { s.player with reservation := .HELD v },
      { s with player := { s.player with reservation := .HELD v } }⟩ := by
  unfold answerReservePlan
  rw [if_neg (mt not_hymnActive_iff.mpr (not_not.mpr active)), unlatched]

/-- Settles O34: by the hymn and its plan, the lowest unlatched entry found by the order of the plan. -/
theorem reservePlanNamesTheFirstUnlatched : Obligations.ReservePlanNamesTheFirstUnlatched := by
  intro dt tag pl s idle stands
  refine ⟨fun inactive => ?_, fun active all => ?_, fun done e rest active entries before open_ => ?_⟩
  · refine onService_request_replied (r := .reservePlan) idle ?_
    exact if_pos (not_hymnActive_iff.mp inactive)
  · have unlatched : firstUnlatched s.player = none := by
      rw [firstUnlatched_eq stands, List.find?_eq_none.mpr fun e member => by simp [all e member]]
      rfl
    exact onService_request_replied (r := .reservePlan) idle
      (answerReservePlan_allLatched (s := withQueued .reservePlan tag (elapse dt s)) active unlatched)
  · have unlatched : firstUnlatched s.player = some e.verse := by
      rw [firstUnlatched_eq stands, entries, find?_append_cons (fun x member => by simp [before x member]) (by simp [open_])]
      rfl
    exact onService_request_replied (r := .reservePlan) idle
      (answerReservePlan_held (s := withQueued .reservePlan tag (elapse dt s)) active unlatched)

/-! ### AMEND_PLAN (R94) -/

/-- Where no two entries name the same verse, an entry is found under its verse. -/
theorem find?_of_distinctVerses {es : List PlanEntry} (distinct : distinctVerses es = true) {e : PlanEntry}
    (member : e ∈ es) : es.find? (fun x => x.verse == e.verse) = some e := by
  induction es with
  | nil => exact absurd member List.not_mem_nil
  | cons x es ih =>
    obtain ⟨others, rest⟩ : (∀ y ∈ es, y.verse ≠ x.verse) ∧ distinctVerses es = true := by
      simpa [distinctVerses] using distinct
    obtain rfl | behind := List.mem_cons.mp member
    · exact List.find?_cons_of_pos (by simp)
    · rw [List.find?_cons_of_neg (by simpa using (others e behind).symm)]
      exact ih rest behind

theorem verse_pos_of_asEntry {f : EntryFields} {e : PlanEntry} (good : asEntry f = some e) : 1 ≤ e.verse := by
  unfold asEntry at good
  split at good
  · split at good
    next range => cases good; exact range.1
    next => cases good
  · cases good

theorem verse_pos_of_asEntries {fs : List EntryFields} {es : List PlanEntry} (good : asEntries fs = some es)
    {e : PlanEntry} (member : e ∈ es) : 1 ≤ e.verse := by
  induction fs generalizing es with
  | nil =>
    cases good
    exact absurd member List.not_mem_nil
  | cons f fs ih =>
    unfold asEntries at good
    split at good
    next p ps first rest =>
      cases good
      obtain rfl | behind := List.mem_cons.mp member
      · exact verse_pos_of_asEntry first
      · exact ih rest behind
    next => cases good

theorem distinctVerses_of_amendProblem {f : AmendFields} {es : List PlanEntry} (good : amendProblem f = none)
    (entries : asEntries f.entries = some es) : distinctVerses es = true := by
  by_contra alike
  unfold amendProblem at good
  simp only [entries, eq_false_of_ne_true alike, Bool.and_false, Bool.not_false, if_true] at good
  cases good

/-- The entry of verse `v` in an amended plan: the one that the amendment names, else the old one, else the
defaults. -/
def amendedEntry (pl : Plan) (es : List PlanEntry) (v : Nat) : PlanEntry :=
  match es.find? (fun e => e.verse == v) with
  | some e => e
  | none => (pl.entries.find? (fun e => e.verse == v)).getD (defaultEntry pl v)

theorem entries_amendPlan (pl : Plan) (n : Option Nat) (amen : Option Bool) (es : List PlanEntry) :
    (amendPlan pl n amen es).entries = (versesTo (amendedCount pl n)).map (amendedEntry pl es) := rfl

theorem mem_versesTo {v n : Nat} : v ∈ versesTo n ↔ 1 ≤ v ∧ v ≤ n := by
  simp only [versesTo, List.mem_map, List.mem_range]
  constructor
  · rintro ⟨i, below, rfl⟩
    omega
  · rintro ⟨above, atMost⟩
    exact ⟨v - 1, by omega, by omega⟩

section
variable {pl : Plan} {es : List PlanEntry} {v : Nat} {e : PlanEntry}

theorem amendedEntry_named (distinct : distinctVerses es = true) (member : e ∈ es) : amendedEntry pl es e.verse = e := by
  rw [amendedEntry, find?_of_distinctVerses distinct member]

theorem amendedEntry_unnamed (unnamed : ∀ x ∈ es, x.verse ≠ v) :
    amendedEntry pl es v = (pl.entries.find? (fun e => e.verse == v)).getD (defaultEntry pl v) := by
  rw [amendedEntry, List.find?_eq_none.mpr fun x member => by simpa using unnamed x member]

theorem verse_amendedEntry (pl : Plan) (es : List PlanEntry) (v : Nat) : (amendedEntry pl es v).verse = v := by
  unfold amendedEntry
  split
  · exact verse_of_find ‹_›
  · cases found : pl.entries.find? (fun e => e.verse == v) with
    | none => rfl
    | some e => exact verse_of_find found

theorem amendedEntry_cases (pl : Plan) (es : List PlanEntry) (v : Nat) :
    amendedEntry pl es v ∈ es ∨ amendedEntry pl es v ∈ pl.entries
      ∨ ((∀ x ∈ pl.entries, x.verse ≠ v) ∧ amendedEntry pl es v = defaultEntry pl v) := by
  unfold amendedEntry
  split
  · exact .inl (List.mem_of_find?_eq_some ‹_›)
  · cases found : pl.entries.find? (fun e => e.verse == v) with
    | none => exact .inr (.inr ⟨fun x member => by simpa using List.find?_eq_none.mp found x member, rfl⟩)
    | some e => exact .inr (.inl (List.mem_of_find?_eq_some found))

end

theorem answerAmendPlan_none {f : AmendFields} (unreserved : s.player.reservation = .NONE) :
    answerAmendPlan f s = refuse s .NO_RESERVATION := by
  unfold answerAmendPlan
  rw [unreserved]

theorem answerAmendPlan_lost {f : AmendFields} (lost : s.player.reservation = .LOST) :
    answerAmendPlan f s = refuse s .TOO_LATE (opt u8 (firstUnlatched s.player)) := by
  unfold answerAmendPlan
  rw [lost]

theorem answerAmendPlan_held {f : AmendFields} {r : Nat} {pl : Plan} {es : List PlanEntry} {n amen : Option Nat}
    (held : s.player.reservation = .HELD r) (stands : s.player.plan = some pl) (entries : asEntries f.entries = some es)
    (count : asOptional f.verseCount = some n) (option : asOptional f.amen = some amen) (good : amendProblem f = none) :
    answerAmendPlan f s = answerAmendFields r pl n (amen.map (fun x => x == 1)) es s := by
  unfold answerAmendPlan
  simp only [held, good, stands, count, option, entries]

section
variable {r : Nat} {pl : Plan} {es : List PlanEntry} {n : Option Nat} {amen : Option Bool}

theorem answerAmendFields_tooLate (early : ∃ e ∈ es, e.verse < r) :
    answerAmendFields r pl n amen es s = refuse s .TOO_LATE (u8 r) :=
  if_pos (List.any_eq_true.mpr (early.imp fun _ h => ⟨h.1, decide_eq_true h.2⟩))

theorem answerAmendFields_applied (within : ∀ e ∈ es, r ≤ e.verse ∧ e.verse ≤ amendedCount pl n)
    (enough : ∀ c, n = some c → r ≤ c + 1) (sung : amen = some true → tuneHasAmen s = true) :
    answerAmendFields r pl n amen es s = ⟨.OK, planBytes (amendPlan pl n amen es),
      { s with player := { s.player with plan := some (amendPlan pl n amen es), reservation := .NONE } }⟩ := by
  have noneBefore : ¬ es.any (fun e => decide (e.verse < r)) = true := by
    simpa using fun e member => (within e member).1
  have noneBeyond : ¬ es.any (fun e => decide (amendedCount pl n < e.verse)) = true := by
    simpa using fun e member => (within e member).2
  have hasAmen : ¬ (amen = some true ∧ tuneHasAmen s = false) := fun ⟨asked, absent⟩ =>
    Bool.false_ne_true (absent.symm.trans (sung asked))
  unfold answerAmendFields
  rw [if_neg noneBefore, if_neg noneBeyond, if_neg hasAmen]
  refine if_neg ?_
  cases n with
  | none => exact Bool.false_ne_true
  | some c => simpa using enough c rfl

end

/-- Settles O35: by the reservation, and entry by entry of the amended plan. -/
theorem amendPlanAppliesWhole : Obligations.AmendPlanAppliesWhole := by
  intro dt r f tag pl es n amen s idle stands entries count option good
  have applied (held : s.player.reservation = .HELD r) := answerAmendPlan_held
    (s := withQueued (.amendPlan f) tag (elapse dt s)) held stands entries count option good
  have distinct := distinctVerses_of_amendProblem good entries
  refine ⟨fun unreserved => ?_, fun lost => ?_, fun held early => ?_, fun held within enough sung => ?_⟩
  · refine onService_request_replied (r := .amendPlan f) idle ?_
    exact answerAmendPlan_none (s := withQueued (.amendPlan f) tag (elapse dt s)) unreserved
  · refine onService_request_replied (r := .amendPlan f) idle ?_
    exact answerAmendPlan_lost (s := withQueued (.amendPlan f) tag (elapse dt s)) lost
  · refine onService_request_replied (r := .amendPlan f) idle ?_
    exact (applied held).trans (answerAmendFields_tooLate early)
  · let pl' := amendPlan pl n (amen.map (fun x => x == 1)) es
    have sung' : amen.map (fun x => x == 1) = some true → tuneHasAmen (withQueued (.amendPlan f) tag (elapse dt s)) = true := by
      intro asked
      obtain ⟨x, rfl, one⟩ := Option.map_eq_some_iff.mp asked
      exact sung (congrArg some (beq_iff_eq.mp one))
    refine ⟨pl', onService_request_replied (r := .amendPlan f) idle
      ((applied held).trans (answerAmendFields_applied within enough sung')),
      ?_, fun e member => ?_, fun done e rest split before low high unnamed => ?_, fun x member unnamed => ?_, ?_,
      rfl, rfl, rfl, rfl, rfl⟩
    · rw [entries_amendPlan, List.map_map]
      exact (List.map_congr_left fun v _ => verse_amendedEntry pl es v).trans (List.map_id _)
    · refine List.mem_map.mpr ⟨e.verse, mem_versesTo.mpr ⟨verse_pos_of_asEntries entries member, (within e member).2⟩, ?_⟩
      exact amendedEntry_named distinct member
    · refine List.mem_map.mpr ⟨e.verse, mem_versesTo.mpr ⟨low, high⟩, (amendedEntry_unnamed unnamed).trans ?_⟩
      rw [split, find?_append_cons (fun x member => by simpa using before x member) (by simp)]
      rfl
    · obtain ⟨v, entry⟩ : ∃ v, amendedEntry pl es v = x := (List.mem_map.mp member).imp fun v h => h.2
      subst entry
      have verse := verse_amendedEntry pl es v
      obtain named | old | ⟨fresh, default⟩ := amendedEntry_cases pl es v
      · exact absurd named unnamed
      · exact .inl old
      · refine .inr ⟨fun e entry => ?_, ?_⟩
        · exact fun same => fresh e entry (same.trans verse)
        · exact default.trans (by rw [verse]; rfl)
    · cases amen <;> rfl

end Sys2Proof.Proofs
end

section
/-! PROOFS. The Tune Store: the end and the erasure of a tune, the checks of a read, and the clearing
(R8, R10, R15, R16, R19, R20, R22). -/

namespace Sys2Proof.Proofs

open Sys2Proof.Machine Sys2Proof.Laws Sys2Proof.Claims

variable {s : State} {n : Nat} {sl : Slot}

/-! ### TUNE_END (R10, R15) -/

theorem lastEnd_eq (ws : List Written) : lastEnd ws = endOf ws := List.foldl_map.symm

theorem answerTuneEnd_loading (served : SlotServed s n) (held : slotRec s.store n = some sl) (loading : sl.state = .LOADING) :
    answerTuneEnd n s =
      if sl.stepsWritten ≠ sl.header.verseSteps + sl.header.amenSteps ∨ sl.entriesWritten ≠ sl.header.entries then
        refuse s .COUNT_MISMATCH (u16 sl.stepsWritten ++ u16 sl.entriesWritten
          ++ u16 (sl.header.verseSteps + sl.header.amenSteps) ++ u16 sl.header.entries)
      else ⟨.OK, endsBytes (sectionEnds sl), { s with store := { s.store with
        slots := s.store.slots.set none n (some { sl with state := .READY, ends := some (sectionEnds sl) }) } }⟩ := by
  obtain ⟨inRange, notClearing⟩ := served
  simp [answerTuneEnd, Config.slotCount, inRange, notClearing, held, loading]

/-- Settles O25: by the four counts. -/
theorem tuneEndChecksTheCounts : Obligations.TuneEndChecksTheCounts := by
  intro dt n sl tag s idle served held loading
  have answered := answerTuneEnd_loading (s := withQueued (.tuneEnd n) tag (elapse dt s)) served held loading
  refine ⟨fun steps entries => ?_, fun mismatch => ?_⟩
  · refine ⟨sectionEnds sl, onService_request_replied (r := .tuneEnd n) idle (answered.trans (if_neg ?_)), lastEnd_eq _, ?_,
      fun absent => ?_, fun a b w range first => ?_⟩
    · simp [steps, entries]
    · simp only [sectionEnds, lastEnd_eq]
    · simp [sectionEnds, absent]
    · simp [sectionEnds, range, introBase, first, lastEnd_eq]
  · exact onService_request_replied (r := .tuneEnd n) idle (answered.trans (if_pos mismatch))

/-! ### TUNE_ERASE (R8, R16) -/

theorem sum_giveRun (a n : Nat) (runs : List (Nat × Nat)) :
    (runLengths (giveRun a n runs)).sum = (runLengths runs).sum + n := by
  induction runs generalizing a n with
  | nil => simp [giveRun, runLengths]
  | cons r rest ih =>
    obtain ⟨b, m⟩ := r
    have head (b m : Nat) (rest : List (Nat × Nat)) : (runLengths ((b, m) :: rest)).sum = m + (runLengths rest).sum := rfl
    unfold giveRun
    split_ifs <;> simp only [head, ih] <;> omega

theorem freeEntry_iff_owners (st : Store) (e : Nat) : FreeEntry st e ↔ 0 < owners e st.freeRuns := by
  simp [FreeEntry, owners, List.countP_pos_iff]

/-- No free run holds an entry of a slot's extent (R6). -/
theorem owners_extent {st : Store} (canonical : st.slots.wf none = true) (held : slotRec st n = some sl)
    (divided : PoolDivided st) {e : Nat} (low : sl.start ≤ e) (high : e < sl.start + sl.header.entries) :
    owners e st.freeRuns = 0 := by
  obtain ⟨once, within, -⟩ := divided
  have removed := extents_set_none canonical held
  obtain ⟨-, inside⟩ := within _ (removed.mem_iff.mp List.mem_cons_self)
  have total := once e (by have : sl.start + sl.header.entries ≤ Config.poolEntries := inside; omega)
  have holds : holdsEntry e sl.start sl.header.entries = 1 := if_pos ⟨low, high⟩
  rw [owners_append, ← owners_perm removed, extentOf, owners_cons] at total
  omega

/-- Exactly the entries of the extent become free. -/
theorem freeEntry_give {st st' : Store} (canonical : st.slots.wf none = true) (held : slotRec st n = some sl)
    (divided : PoolDivided st) (runs : st'.freeRuns = giveRun sl.start sl.header.entries st.freeRuns) (e : Nat) :
    FreeEntry st' e ↔ FreeEntry st e ∨ (sl.start ≤ e ∧ e < sl.start + sl.header.entries) := by
  obtain ⟨filled, inside⟩ := divided.2.1 _ ((extents_set_none canonical held).mem_iff.mp List.mem_cons_self)
  obtain ⟨shares, -⟩ := giveRun_spec (a := sl.start) (n := sl.header.entries) filled inside divided.2.2
    fun e low high => owners_extent canonical held divided low high
  rw [freeEntry_iff_owners, freeEntry_iff_owners, runs, shares, holdsEntry]
  split_ifs <;> omega

theorem answerTuneErase_empty (served : SlotServed s n) (empty : slotRec s.store n = none) :
    answerTuneErase n s = refuse s .NOT_FOUND := by
  obtain ⟨inRange, notClearing⟩ := served
  simp [answerTuneErase, Config.slotCount, inRange, notClearing, empty]

theorem answerTuneErase_held (served : SlotServed s n) (held : slotRec s.store n = some sl) :
    answerTuneErase n s = if sl.state = .PLAYING then refuse s .WRONG_STATE
      else ⟨.OK, freeBytes (giveRun sl.start sl.header.entries s.store.freeRuns), { s with store := { s.store with
        slots := s.store.slots.set none n none,
        freeRuns := giveRun sl.start sl.header.entries s.store.freeRuns } }⟩ := by
  obtain ⟨inRange, notClearing⟩ := served
  simp [answerTuneErase, Config.slotCount, inRange, notClearing, held]

/-- Settles O26: by the slot's state, the freed extent merged with the runs beside it. -/
theorem tuneEraseFreesTheExtent : Obligations.TuneEraseFreesTheExtent := by
  intro dt n tag s idle served canonical
  refine ⟨fun empty => ?_, fun sl held => ?_⟩
  · exact onService_request_replied (r := .tuneErase n) idle
      (answerTuneErase_empty (s := withQueued (.tuneErase n) tag (elapse dt s)) served empty)
  · have answered := answerTuneErase_held (s := withQueued (.tuneErase n) tag (elapse dt s)) served held
    refine ⟨fun playing => ?_, fun notPlaying => ?_⟩
    · exact onService_request_replied (r := .tuneErase n) idle (answered.trans (if_pos playing))
    · let st : Store := { s.store with slots := s.store.slots.set none n none,
                                       freeRuns := giveRun sl.start sl.header.entries s.store.freeRuns }
      refine ⟨st, ?_, Table.get_set_same n none canonical, fun m other => Table.get_set_other none other canonical,
        rfl, rfl, sum_giveRun _ _ _, fun divided => freeEntry_give canonical held divided rfl⟩
      have bytes : u16 ((runLengths st.freeRuns).foldl max 0) ++ u16 (runLengths st.freeRuns).sum
          = freeBytes st.freeRuns := by
        rw [freeBytes, longestFree_eq, totalFree_eq]
      rw [bytes]
      exact onService_request_replied (t := { elapse dt s with store := st }) (r := .tuneErase n) idle
        (answered.trans (if_neg notPlaying))

/-! ### TUNE_READ and the failed check (R19, R20) -/

/-- A step is read from the pool alone. -/
theorem readStep_of_pool {a b : Store} (pool : a.pool = b.pool) (sl : Slot) (i : Nat) : readStep a sl i = readStep b sl i := by
  unfold readStep
  rw [pool]

/-- The failed checks of steps `js`, counted from step `first`, noted one after the other. -/
def noteFaults (n first : Nat) (js : List Nat) (s : State) : State :=
  js.foldl (fun u j => noteFault n (first + j) .console u) s

/-- The faulty steps among `k` steps from step `first`, counted from it. -/
def faultySteps (st : Store) (sl : Slot) (first k : Nat) : List Nat :=
  (List.range k).filter fun j => (readStep st sl (first + j)).isNone

theorem faultySteps_succ (st : Store) (sl : Slot) (first k : Nat) :
    faultySteps st sl first (k + 1) = (if (readStep st sl first).isNone then [0] else [])
      ++ (faultySteps st sl (first + 1) k).map (· + 1) := by
  rw [faultySteps, List.range_succ_eq_map, List.filter_cons, List.filter_map, faultySteps]
  have shift : ((fun j => (readStep st sl (first + j)).isNone) ∘ Nat.succ)
      = fun j => (readStep st sl (first + 1 + j)).isNone := by
    funext j
    show (readStep st sl (first + (j + 1))).isNone = _
    rw [Nat.add_assoc, Nat.add_comm 1]
  rw [shift, Nat.add_zero]
  split <;> rfl

theorem noteFaults_shift (n first : Nat) (js : List Nat) (s : State) :
    noteFaults n first (js.map (· + 1)) s = noteFaults n (first + 1) js s := by
  unfold noteFaults
  rw [List.foldl_map]
  refine congrArg (fun step => List.foldl step s js) (funext fun u => funext fun j => ?_)
  rw [Nat.add_assoc, Nat.add_comm 1]

/-- A read looks at up to `count` written steps in turn, and notes the faulty ones among those it returns. -/
theorem readSteps_spec (count i room : Nat) (s : State) :
    let r := readSteps n sl count i room s
    r.1 ≤ count ∧ (r.1 = 0 ∨ i + r.1 ≤ sl.stepsWritten)
      ∧ r.2.2 = noteFaults n i (faultySteps s.store sl i r.1) s := by
  induction count generalizing i room s with
  | zero => exact ⟨le_rfl, .inl rfl, rfl⟩
  | succ count ih =>
    unfold readSteps
    dsimp only
    split
    next written =>
      split
      next fits =>
        obtain ⟨atMost, inside, noted⟩ := ih (i + 1) (room - (readEntry i (readStep s.store sl i)).length)
          (if (readStep s.store sl i).isSome then s else noteFault n i .console s)
        refine ⟨Nat.succ_le_succ atMost, .inr (by omega), noted.trans ?_⟩
        have same (k : Nat) : faultySteps (if (readStep s.store sl i).isSome then s else noteFault n i .console s).store sl (i + 1) k
            = faultySteps s.store sl (i + 1) k :=
          List.filter_congr fun j _ => congrArg Option.isNone (readStep_of_pool (by split <;> rfl) sl _)
        rw [same, faultySteps_succ, noteFaults, noteFaults, List.foldl_append]
        rw [show List.foldl _ _ (List.map _ _) = noteFaults n i _ _ from rfl, noteFaults_shift, noteFaults]
        cases readStep s.store sl i <;> rfl
      next => exact ⟨Nat.zero_le _, .inl rfl, rfl⟩
    next => exact ⟨Nat.zero_le _, .inl rfl, rfl⟩

theorem noteFaults_withQueued (r : Request) (tag : Byte) (first : Nat) (js : List Nat) (s : State) :
    noteFaults n first js (withQueued r tag s) = withQueued r tag (noteFaults n first js s) := by
  induction js generalizing s with
  | nil => rfl
  | cons j js ih => exact ih (noteFault n (first + j) .console s)

/-- A noted fault changes the fault records and the flags alone. -/
theorem noteFaults_else (first : Nat) (js : List Nat) (s : State) :
    let t := noteFaults n first js s
    t = { s with store := t.store, flags := t.flags } ∧ t.store.pool = s.store.pool
      ∧ t.store.freeRuns = s.store.freeRuns ∧ t.store.clearEnd = s.store.clearEnd := by
  induction js generalizing s with
  | nil => exact ⟨rfl, rfl, rfl, rfl⟩
  | cons j js ih =>
    obtain ⟨rest, pool, runs, clearing⟩ := ih (noteFault n (first + j) .console s)
    exact ⟨rest, pool, runs, clearing⟩

/-- The slot's record with a failed check of step `i` entered (R20). -/
def faultedSlot (i : Nat) (sl : Slot) : Slot :=
  { sl with faultFirst := some (sl.faultFirst.getD i),
            faultMultiple := sl.faultMultiple || (sl.faultFirst.isSome && sl.faultFirst != some i) }

theorem slotRec_noteFaultIn {st : Store} (canonical : st.slots.wf none = true) (n i m : Nat) :
    slotRec (noteFaultIn n i st) m = if m = n then (slotRec st n).map (faultedSlot i) else slotRec st m := by
  cases held : slotRec st n with
  | none =>
    have slots : (noteFaultIn n i st).slots = st.slots := by
      unfold noteFaultIn
      rw [held]
    rw [slotRec, slots]
    by_cases here : m = n
    · rw [if_pos here, here]
      exact held
    · rw [if_neg here]
      rfl
  | some sl =>
    have slots : (noteFaultIn n i st).slots = st.slots.set none n (some (faultedSlot i sl)) := by
      unfold noteFaultIn
      rw [held]
      rfl
    rw [slotRec, slots]
    by_cases here : m = n
    · rw [if_pos here, here]
      exact Table.get_set_same n _ canonical
    · rw [if_neg here]
      exact Table.get_set_other _ here canonical

theorem noteFaultIn_slots {st : Store} (canonical : st.slots.wf none = true) (n i : Nat) :
    (noteFaultIn n i st).slots.wf none = true
      ∧ ∀ m, (slotRec (noteFaultIn n i st) m).map slotCounts = (slotRec st m).map slotCounts := by
  refine ⟨?_, fun m => ?_⟩
  · unfold noteFaultIn
    dsimp only
    split
    · exact Table.wf_set _ _ canonical
    · exact canonical
  · rw [slotRec_noteFaultIn canonical]
    split
    next here =>
      rw [here, Option.map_map]
      rfl
    next => rfl

theorem noteFaults_slots (first : Nat) (js : List Nat) {s : State} (canonical : s.store.slots.wf none = true) (m : Nat) :
    (slotRec (noteFaults n first js s).store m).map slotCounts = (slotRec s.store m).map slotCounts := by
  induction js generalizing s with
  | nil => rfl
  | cons j js ih =>
    obtain ⟨still, same⟩ := noteFaultIn_slots canonical n (first + j)
    exact (ih (s := noteFault n (first + j) .console s) still).trans (same m)

theorem answerTuneRead_held {first count : Nat} (served : SlotServed s n) (held : slotRec s.store n = some sl)
    (some_ : 1 ≤ count) (few : count ≤ 64) (written : first < sl.stepsWritten) :
    answerTuneRead n first count s = ⟨.OK, u8 (readSteps n sl count first (Config.maxBody - 2) s).1
      ++ (readSteps n sl count first (Config.maxBody - 2) s).2.1, (readSteps n sl count first (Config.maxBody - 2) s).2.2⟩ := by
  obtain ⟨inRange, notClearing⟩ := served
  simp [answerTuneRead, Config.slotCount, inRange, notClearing, held, some_, few, written]

/-- A faulty first step has room in the reply. -/
theorem readSteps_faulty_first {count first : Nat} (some_ : 1 ≤ count) (written : first < sl.stepsWritten)
    (faulty : readStep s.store sl first = none) : 1 ≤ (readSteps n sl count first (Config.maxBody - 2) s).1 := by
  obtain ⟨c, rfl⟩ : ∃ c, count = c + 1 := ⟨count - 1, by omega⟩
  have fits : (readEntry first (readStep s.store sl first)).length ≤ Config.maxBody - 2 := by
    rw [faulty]
    show 3 ≤ _
    decide
  unfold readSteps
  rw [if_pos written]
  dsimp only
  rw [if_pos fits]
  exact Nat.le_add_left 1 _

theorem some_bne_some {α : Type} [DecidableEq α] [BEq α] [LawfulBEq α] (x y : α) : (some x != some y) = !decide (x = y) := by
  by_cases same : x = y <;> simp [same]

/-- Settles O27: by the steps returned, each read good or noted. -/
theorem tuneReadChecksEachStep : Obligations.TuneReadChecksEachStep := by
  refine ⟨fun dt n first count sl tag s idle served held some_ few written => ?_, fun n i r sl s held canonical =>
    ⟨⟨faultedSlot i sl, ?_, fun fresh => ?_, fun j old => ?_⟩, fun fresh => ?_, fun x old => ?_, rfl, rfl⟩⟩
  · let u := withQueued (.tuneRead n first count) tag (elapse dt s)
    obtain ⟨atMost, inside, noted⟩ := readSteps_spec (n := n) (sl := sl) count first (Config.maxBody - 2) u
    have faultyFirst := readSteps_faulty_first (s := u) (n := n) (first := first) some_ written
    have answered := answerTuneRead_held (s := u) (first := first) served held some_ few written
    let r := readSteps n sl count first (Config.maxBody - 2) u
    have atMost : r.1 ≤ count := atMost
    have inside : r.1 = 0 ∨ first + r.1 ≤ sl.stepsWritten := inside
    let t := noteFaults n first (faultySteps s.store sl first r.1) (elapse dt s)
    obtain ⟨rest, pool, runs, clearing⟩ := noteFaults_else (n := n) first (faultySteps s.store sl first r.1) (elapse dt s)
    have after : r.2.2 = withQueued (.tuneRead n first count) tag t := noted.trans (noteFaults_withQueued _ _ _ _ _)
    refine ⟨u8 r.1 ++ r.2.1, t, onService_request_replied (r := .tuneRead n first count) idle
      (answered.trans (congrArg (Answer.mk .OK _) after)), pool, runs, clearing,
      fun canonical m => noteFaults_slots first _ (s := elapse dt s) canonical m, rest, fun good => ?_, r.1, r.2.1, rfl, atMost, ?_,
      faultyFirst, rfl⟩
    · have none : faultySteps s.store sl first r.1 = [] := by
        refine List.filter_eq_nil_iff.mpr fun j below => ?_
        have bound := List.mem_range.mp below
        have read := good (first + j) (by omega) (by omega) (by omega)
        simpa using Option.ne_none_iff_isSome.mpr read
      show noteFaults n first (faultySteps s.store sl first r.1) (elapse dt s) = _
      rw [none]
      rfl
    · show first + r.1 ≤ _
      omega
  · refine (slotRec_noteFaultIn canonical n i n).trans ?_
    rw [if_pos rfl, held]
    rfl
  · simp [faultedSlot, fresh]
  · simp [faultedSlot, old, some_bne_some]
  · simp [noteFault, noteFaultIn, fresh]
  · simp [noteFault, noteFaultIn, old, some_bne_some]

/-! ### CLEAR_STORE and CLEARING_END (R22) -/

theorem answerClearStore_active (active : s.player.state ≠ .IDLE) : answerClearStore s = refuse s .WRONG_STATE :=
  if_pos active

theorem answerClearStore_idle (still : s.player.state = .IDLE) : answerClearStore s =
    if s.store.clearEnd.isSome then refuse s .BUSY else ⟨.OK, [], { s with store := storeClearing s.now }⟩ :=
  if_neg (not_not.mpr still)

/-- Settles O28: by the hymn and the clearing in progress, and by the end of the clearing. -/
theorem clearStoreClearsFor250Units : Obligations.ClearStoreClearsFor250Units := by
  refine ⟨fun dt tag s idle => ⟨fun active => ?_, fun still clearing => ?_, fun still ready => ?_⟩, fun dt s live ends => ?_⟩
  · exact onService_request_replied (r := .clearStore) idle
      (answerClearStore_active (s := withQueued .clearStore tag (elapse dt s)) active)
  · exact onService_request_replied (r := .clearStore) idle
      ((answerClearStore_idle (s := withQueued .clearStore tag (elapse dt s)) still).trans
        (if_pos (Option.isSome_iff_ne_none.mpr clearing)))
  · have open_ : ¬ s.store.clearEnd.isSome = true := by simp [ready]
    exact ⟨storeClearing (s.now + BitVec.ofNat 32 dt), onService_request_replied (r := .clearStore) idle
      ((answerClearStore_idle (s := withQueued .clearStore tag (elapse dt s)) still).trans (if_neg open_)),
      fun _ => rfl, rfl, fun _ => rfl, rfl, rfl, rfl⟩
  · refine (onService_live dt endClearing s live).trans (congrArg _ ?_)
    unfold endClearing
    rw [elapse_store, ends]
    exact if_pos (arrived_self _)

end Sys2Proof.Proofs
end

section
/-! PROOFS. TUNE_STEPS: which steps are valid, what is written, and how a written step is read back
(R9, R13, R14, R17). -/

namespace Sys2Proof.Proofs

open Sys2Proof.Machine Sys2Proof.Laws Sys2Proof.Claims

variable {s : State}

/-! ### A step in its ranges (R9, R14) -/

/-- The record `b` is that of the sent note `a`. -/
def RecordsNote (a : NoteFields) (b : Note) : Prop :=
  voiceNumber b.voice = a.voice ∧ b.pitch = a.pitch ∧ b.tieOn = (a.tieOn == 1)

theorem asNote_eq_some {a : NoteFields} (voice : a.voice ≤ 5) (pitch : a.pitch ≤ 127) (tie : a.tieOn ≤ 1) :
    ∃ b, asNote a = some b ∧ RecordsNote a b := by
  obtain ⟨v, p, t⟩ := a
  have voices : ∃ x, voiceOf v = some x ∧ voiceNumber x = v := by
    match v, voice with
    | 0, _ | 1, _ | 2, _ | 3, _ | 4, _ | 5, _ => exact ⟨_, rfl, rfl⟩
  have ties : asYesNo t = some (t == 1) := by
    match t, tie with
    | 0, _ | 1, _ => rfl
  obtain ⟨x, named, number⟩ := voices
  refine ⟨⟨x, p, t == 1⟩, ?_, number, rfl, rfl⟩
  unfold asNote
  rw [named, ties]
  exact if_pos pitch

theorem le_of_voiceOf {v : Nat} {x : Voice} (named : voiceOf v = some x) : v ≤ 5 := by
  by_contra above
  obtain ⟨m, rfl⟩ : ∃ m, v = m + 6 := ⟨v - 6, by omega⟩
  cases named

theorem le_of_asYesNo {n : Nat} {b : Bool} (yesNo : asYesNo n = some b) : n ≤ 1 := by
  by_contra above
  obtain ⟨m, rfl⟩ : ∃ m, n = m + 2 := ⟨n - 2, by omega⟩
  cases yesNo

theorem asNote_range {a : NoteFields} {b : Note} (good : asNote a = some b) :
    a.voice ≤ 5 ∧ a.pitch ≤ 127 ∧ a.tieOn ≤ 1 := by
  unfold asNote at good
  split at good
  next x tie voice yesNo =>
    split at good
    next pitch => exact ⟨le_of_voiceOf voice, pitch, le_of_asYesNo yesNo⟩
    next => cases good
  next => cases good

theorem asNotes_eq_some {l : List NoteFields} (range : ∀ a ∈ l, a.voice ≤ 5 ∧ a.pitch ≤ 127 ∧ a.tieOn ≤ 1) :
    ∃ bs, asNotes l = some bs ∧ List.Forall₂ RecordsNote l bs := by
  induction l with
  | nil => exact ⟨[], rfl, .nil⟩
  | cons a l ih =>
    obtain ⟨voice, pitch, tie⟩ := range a List.mem_cons_self
    obtain ⟨b, first, same⟩ := asNote_eq_some voice pitch tie
    obtain ⟨bs, rest, all⟩ := ih fun x member => range x (List.mem_cons_of_mem a member)
    refine ⟨b :: bs, ?_, .cons same all⟩
    unfold asNotes
    rw [first, rest]

theorem asNotes_range {l : List NoteFields} {bs : List Note} (good : asNotes l = some bs) :
    ∀ a ∈ l, a.voice ≤ 5 ∧ a.pitch ≤ 127 ∧ a.tieOn ≤ 1 := by
  induction l generalizing bs with
  | nil => exact fun a member => absurd member List.not_mem_nil
  | cons a l ih =>
    unfold asNotes at good
    split at good
    next b rest first behind =>
      intro x member
      obtain rfl | later := List.mem_cons.mp member
      · exact asNote_range first
      · exact ih behind x later
    next => cases good

theorem voiceNumber_inj {v w : Voice} (same : voiceNumber v = voiceNumber w) : v = w := by
  have named (x : Voice) : voiceOf (voiceNumber x) = some x := by cases x <;> rfl
  exact Option.some.inj ((named v).symm.trans ((congrArg voiceOf same).trans (named w)))

/-- The records of notes are alike in voice and pitch exactly where the sent notes are. -/
theorem distinctNotes_iff {l : List NoteFields} {bs : List Note} (same : List.Forall₂ RecordsNote l bs) :
    distinctNotes bs = true ↔ l.Pairwise (fun a b => ¬ (a.voice = b.voice ∧ a.pitch = b.pitch)) := by
  induction same with
  | nil => simp [distinctNotes]
  | @cons a b l bs first rest ih =>
    have others : (bs.all fun x => !(x.voice == b.voice && x.pitch == b.pitch)) = true
        ↔ ∀ c ∈ l, ¬ (a.voice = c.voice ∧ a.pitch = c.pitch) := by
      clear ih
      induction rest with
      | nil => simp
      | @cons c d l bs second rest ih =>
        obtain ⟨voice, pitch, -⟩ := first
        obtain ⟨voice', pitch', -⟩ := second
        have voices : d.voice = b.voice ↔ a.voice = c.voice := by
          rw [← voice, ← voice', eq_comm]
          exact ⟨congrArg voiceNumber, fun same => voiceNumber_inj same⟩
        have pitches : d.pitch = b.pitch ↔ a.pitch = c.pitch := by
          rw [pitch, pitch']
          exact eq_comm
        simp only [List.all_cons, Bool.and_eq_true, ih, List.forall_mem_cons]
        simp [voices, pitches, imp_iff_not_or]
    unfold distinctNotes
    rw [Bool.and_eq_true, others, ih, List.pairwise_cons]

theorem asFermataOpt_sent {w : Wire FermataFields}
    (range : w = .absent ∨ ∃ x, w = .present x ∧ x.kind ≤ 1 ∧ 4 ≤ x.factor ∧ x.factor ≤ 32) :
    asOptional w = some (sentFermata w) ∧ ∃ fe, asFermataOpt (sentFermata w) = some fe ∧ (w = .absent → fe = none)
      ∧ ∀ x, w = .present x → fe = some ⟨if x.kind = 0 then .TIMED else .CUED, x.factor⟩ := by
  obtain rfl | ⟨⟨kind, factor⟩, rfl, kinds, low, high⟩ := range
  · exact ⟨rfl, none, rfl, fun _ => rfl, nofun⟩
  · have fermata : asFermata ⟨kind, factor⟩ = some ⟨if kind = 0 then .TIMED else .CUED, factor⟩ := by
      match kind, kinds with
      | 0, _ | 1, _ => exact if_pos ⟨low, high⟩
    refine ⟨rfl, some ⟨if kind = 0 then .TIMED else .CUED, factor⟩, ?_, nofun, ?_⟩
    · exact congrArg (Option.map some) fermata
    · rintro x ⟨⟩
      rfl

/-- A step in its ranges stands for a record with its fields. -/
theorem asStep_eq_some {f : StepFields} (range : stepInRange f) : ∃ r, recordsStep f r
    ∧ asStepFields f.position f.duration f.follow (sentFermata f.fermata) f.notes = some r ∧ (asStep f).isSome = true := by
  obtain ⟨position, duration, end_, follow, fermata, few, notes, distinct⟩ := range
  obtain ⟨optional, fe, held, absent, present⟩ := asFermataOpt_sent fermata
  obtain ⟨bs, all, same⟩ := asNotes_eq_some notes
  have yesNo : asYesNo f.follow = some (f.follow == 1) := by
    match f.follow, follow with
    | 0, _ | 1, _ => rfl
  have record : asStepFields f.position f.duration f.follow (sentFermata f.fermata) f.notes
      = some ⟨f.position, f.duration, f.follow == 1, fe, bs⟩ := by
    unfold asStepFields
    rw [yesNo, held, all]
    exact if_pos ⟨position, duration, end_, few⟩
  refine ⟨⟨f.position, f.duration, f.follow == 1, fe, bs⟩, ⟨rfl, rfl, rfl, absent, present, same⟩, record, ?_⟩
  unfold asStep
  rw [optional]
  dsimp only
  rw [record]
  simp [Option.filter, (distinctNotes_iff same).mpr distinct]

theorem fermata_range {w : Wire FermataFields} {fields : Option FermataFields} {fe : Option Fermata}
    (optional : asOptional w = some fields) (held : asFermataOpt fields = some fe) :
    w = .absent ∨ ∃ x, w = .present x ∧ x.kind ≤ 1 ∧ 4 ≤ x.factor ∧ x.factor ≤ 32 := by
  cases w with
  | absent => exact .inl rfl
  | invalid n => cases optional
  | present x =>
    cases optional
    obtain ⟨fermata, good, -⟩ := Option.map_eq_some_iff.mp held
    unfold asFermata at good
    split at good
    next kind known =>
      split at good
      next factor =>
        refine .inr ⟨x, rfl, ?_, factor⟩
        by_contra above
        obtain ⟨m, same⟩ : ∃ m, x.kind = m + 2 := ⟨x.kind - 2, by omega⟩
        rw [same] at known
        cases known
      next => cases good
    next => cases good

theorem stepInRange_of_asStep {f : StepFields} (good : (asStep f).isSome = true) : stepInRange f := by
  obtain ⟨r, good⟩ := Option.isSome_iff_exists.mp good
  unfold asStep at good
  split at good
  next fields optional =>
    obtain ⟨record, distinct⟩ := Option.filter_eq_some_iff.mp good
    unfold asStepFields at record
    split at record
    next yesNo held all =>
      split at record
      next range =>
        cases record
        obtain ⟨position, duration, end_, few⟩ := range
        have notes := asNotes_range all
        obtain ⟨bs, again, same⟩ := asNotes_eq_some notes
        cases all.symm.trans again
        exact ⟨position, duration, end_, le_of_asYesNo yesNo, fermata_range optional held, few, notes,
          (distinctNotes_iff same).mp distinct⟩
      next => cases record
    next => cases record
  next => cases good

/-! ### The first invalid step of a list (R14) -/

/-- `stepValid` of a list whose first step would have index `i`, behind a step at position `last`. -/
def ValidFrom (h : Header) (i : Nat) (last : Option Nat) (l : List StepFields) (j : Nat) : Prop :=
  ∃ f, l[j]? = some f ∧ stepInRange f
    ∧ (i + j ≠ 0 → i + j ≠ h.verseSteps →
        (j = 0 → ∀ p, last = some p → p < f.position)
        ∧ ∀ k g, j = k + 1 → l[k]? = some g → g.position < f.position)

section
variable {h : Header} {i : Nat} {last : Option Nat} {f : StepFields} {l : List StepFields}

theorem validFrom_zero : ValidFrom h i last (f :: l) 0 ↔ (asStep f).isSome = true
    ∧ ∀ p, stepBefore h i last = some p → p < f.position := by
  have range : stepInRange f ↔ (asStep f).isSome = true :=
    ⟨fun range => by obtain ⟨_, _, _, good⟩ := asStep_eq_some range; exact good, stepInRange_of_asStep⟩
  unfold ValidFrom stepBefore
  rw [← range]
  constructor
  · rintro ⟨_, ⟨⟩, good, order⟩
    refine ⟨good, fun p before => ?_⟩
    split at before
    next => cases before
    next inside =>
      rw [not_or] at inside
      exact (order inside.1 inside.2).1 rfl p before
  · rintro ⟨good, order⟩
    refine ⟨f, rfl, good, fun notFirst notAmen => ⟨fun _ p before => order p ?_, fun k g absurd_ => by omega⟩⟩
    exact (if_neg (not_or.mpr ⟨notFirst, notAmen⟩)).trans before

theorem validFrom_succ (j : Nat) :
    ValidFrom h i last (f :: l) (j + 1) ↔ ValidFrom h (i + 1) (some f.position) l j := by
  unfold ValidFrom
  have index : i + (j + 1) = i + 1 + j := by omega
  rw [index]
  refine exists_congr fun g => and_congr Iff.rfl (and_congr Iff.rfl (imp_congr_right fun _ => imp_congr_right fun _ => ?_))
  constructor
  · rintro ⟨-, order⟩
    refine ⟨fun zero p before => ?_, fun k x next held => order (k + 1) x (by omega) held⟩
    cases before
    exact order 0 f (by omega) rfl
  · rintro ⟨first, order⟩
    refine ⟨fun absurd_ => by omega, fun k x next held => ?_⟩
    cases k with
    | zero =>
      cases held
      exact first (by omega) _ rfl
    | succ k => exact order k x (by omega) held

theorem firstInvalid_cons : firstInvalid h i last (f :: l) = (open Classical in
    if ValidFrom h i last (f :: l) 0 then firstInvalid h (i + 1) (some f.position) l else some i) := by
  have test : ((asStep f).isSome && (match stepBefore h i last with
      | some p => decide (p < f.position)
      | none => true)) = true ↔ ValidFrom h i last (f :: l) 0 := by
    rw [validFrom_zero, Bool.and_eq_true]
    refine and_congr Iff.rfl ?_
    cases stepBefore h i last <;> simp
  by_cases ok : ValidFrom h i last (f :: l) 0
  · rw [if_pos ok]
    exact if_pos (test.mpr ok)
  · rw [if_neg ok]
    exact if_neg (mt test.mp ok)

end

theorem firstInvalid_eq_none {h : Header} {i : Nat} {last : Option Nat} {l : List StepFields}
    (valid : ∀ j, j < l.length → ValidFrom h i last l j) : firstInvalid h i last l = none := by
  induction l generalizing i last with
  | nil => rfl
  | cons f l ih =>
    rw [firstInvalid_cons, if_pos (valid 0 (Nat.succ_pos _))]
    exact ih fun j below => (validFrom_succ j).mp (valid (j + 1) (Nat.succ_lt_succ below))

theorem firstInvalid_eq_some {h : Header} {i : Nat} {last : Option Nat} {l : List StepFields} {k : Nat}
    (below : k < l.length) (valid : ∀ j, j < k → ValidFrom h i last l j) (invalid : ¬ ValidFrom h i last l k) :
    firstInvalid h i last l = some (i + k) := by
  induction l generalizing i last k with
  | nil => exact absurd below (Nat.not_lt_zero k)
  | cons f l ih =>
    rw [firstInvalid_cons]
    cases k with
    | zero => exact if_neg invalid
    | succ k =>
      rw [if_pos (valid 0 (Nat.succ_pos _)), ih (Nat.lt_of_succ_lt_succ below)
        (fun j before => (validFrom_succ j).mp (valid (j + 1) (Nat.succ_lt_succ before)))
        (fun good => invalid ((validFrom_succ k).mpr good))]
      exact congrArg some (by omega)

/-! ### What is written, and read back (R13, R17) -/

/-- Where the entries that the directory gives to step `i` end. -/
def entriesEnd (sl : Slot) (i : Nat) : Nat :=
  ((sl.written[i + 1]?).map (·.entry)).getD (sl.start + sl.entriesWritten)

theorem entriesGiven_eq (sl : Slot) (i : Nat) (w : Written) : entriesGiven sl i w = entriesEnd sl i - w.entry := by
  unfold entriesGiven entriesEnd
  cases sl.written[i + 1]? <;> rfl

/-- Step `i` of the slot is `f`, in the pool's entries that the directory gives to it. -/
def StepAt (sl : Slot) (pool : Table PoolEntry) (i : Nat) (f : StepFields) : Prop :=
  ∃ e, sl.written[i]? = some ⟨e, f.position, f.duration⟩
    ∧ Table.getRun .blank pool e (1 + f.notes.length) = stepEntries f
    ∧ entriesEnd sl i = e + (1 + f.notes.length)
    ∧ e + (1 + f.notes.length) ≤ sl.start + sl.entriesWritten

theorem getRun_setRun_below {pool : Table PoolEntry} (canonical : Memory.wf pool = true) {e n k : Nat} (l : List PoolEntry)
    (below : e + n ≤ k) : Table.getRun .blank (pool.setRun .blank k l) e n = Table.getRun .blank pool e n := by
  induction n generalizing e with
  | zero => rfl
  | succ n ih =>
    show Table.get .blank (pool.setRun .blank k l) e :: Table.getRun .blank (pool.setRun .blank k l) (e + 1) n = _
    rw [Table.get_setRun_other l pool k e canonical (.inl (by omega)), ih (by omega)]
    rfl

theorem stepAt_writeStep (sl : Slot) {pool : Table PoolEntry} (canonical : Memory.wf pool = true) (f : StepFields) :
    StepAt (writeStep sl pool f).1 (writeStep sl pool f).2 sl.written.length f := by
  have new : (writeStep sl pool f).1.written[sl.written.length]? = some ⟨sl.start + sl.entriesWritten, f.position, f.duration⟩ := by
    simp [writeStep]
  refine ⟨_, new, ?_, ?_, ?_⟩
  · rw [← length_stepEntries]
    exact Table.getRun_setRun (stepEntries f) pool _ canonical
  · simp only [entriesEnd, writeStep, List.getElem?_append_right (Nat.le_succ _)]
    simp [Nat.add_assoc]
  · simp only [writeStep]
    omega

/-- Where the entries of a written step end stays with another step written behind. -/
theorem entriesEnd_writeStep (sl : Slot) (pool : Table PoolEntry) (g : StepFields) {i : Nat} (here : i < sl.written.length) :
    entriesEnd (writeStep sl pool g).1 i = entriesEnd sl i := by
  unfold entriesEnd
  by_cases inner : i + 1 < sl.written.length
  · simp [writeStep, List.getElem?_append_left inner, inner]
  · have last : i + 1 = sl.written.length := by omega
    simp [writeStep, last]

theorem StepAt.writeStep {sl : Slot} {pool : Table PoolEntry} {i : Nat} {f : StepFields} (g : StepFields)
    (canonical : Memory.wf pool = true) (stands : StepAt sl pool i f) :
    StepAt (writeStep sl pool g).1 (writeStep sl pool g).2 i f := by
  obtain ⟨e, held, run, next, inside⟩ := stands
  have here : i < sl.written.length := (List.getElem?_eq_some_iff.mp held).1
  refine ⟨e, (List.getElem?_append_left here).trans held, ?_, (entriesEnd_writeStep sl pool g here).trans next, ?_⟩
  · exact (getRun_setRun_below canonical _ inside).trans run
  · simp only [Machine.writeStep]
    omega

/-- What the writing of a list of steps leaves and sets (R13). -/
theorem writeSteps_spec (l : List StepFields) (sl : Slot) {pool : Table PoolEntry} (canonical : Memory.wf pool = true) :
    let w := writeSteps sl pool l
    w.1.state = sl.state ∧ w.1.header = sl.header ∧ w.1.start = sl.start
      ∧ w.1.stepsWritten = sl.stepsWritten + l.length ∧ w.1.entriesWritten = sl.entriesWritten + entriesOf l
      ∧ (∀ e, (e < sl.start + sl.entriesWritten ∨ sl.start + sl.entriesWritten + entriesOf l ≤ e) →
          w.2.get .blank e = pool.get .blank e)
      ∧ (∀ i f, StepAt sl pool i f → StepAt w.1 w.2 i f)
      ∧ ∀ i f, l[i]? = some f → StepAt w.1 w.2 (sl.written.length + i) f := by
  induction l generalizing sl pool with
  | nil => exact ⟨rfl, rfl, rfl, rfl, rfl, fun _ _ => rfl, fun _ _ stands => stands, fun i f none => by simp at none⟩
  | cons g l ih =>
    obtain ⟨state, header, start, steps, entries, pool', old, new⟩ :=
      ih (writeStep sl pool g).1 (pool := (writeStep sl pool g).2) (Memory.wf_writeStep sl pool g canonical)
    have count : entriesOf (g :: l) = 1 + g.notes.length + entriesOf l := rfl
    refine ⟨state, header, start, ?_, ?_, fun e outside => ?_, fun i f stands => old i f (stands.writeStep g canonical),
      fun i f here => ?_⟩
    · refine steps.trans ?_
      simp only [writeStep, List.length_cons]
      omega
    · refine entries.trans ?_
      simp only [writeStep, count]
      omega
    · rw [count] at outside
      refine (pool' e ?_).trans (Table.get_setRun_other (stepEntries g) pool _ e canonical ?_)
      · simp only [writeStep]
        omega
      · rw [length_stepEntries]
        omega
    · cases i with
      | zero =>
        cases here
        exact old _ _ (stepAt_writeStep sl canonical g)
      | succ i =>
        have shifted := new i f here
        have length : (writeStep sl pool g).1.written.length = sl.written.length + 1 := by simp [writeStep]
        rw [length] at shifted
        rw [show sl.written.length + (i + 1) = sl.written.length + 1 + i by omega]
        exact shifted

theorem notesOf_map (l : List NoteFields) : notesOf (l.map .note) = some l := by
  induction l with
  | nil => rfl
  | cons a l ih =>
    rw [List.map_cons, notesOf, ih]

/-- A step in its ranges that stands in the pool is read back good, with its fields (R17). -/
theorem readStep_of_stepAt {st : Store} {sl : Slot} {i : Nat} {f : StepFields} (range : stepInRange f)
    (stands : StepAt sl st.pool i f) : ∃ r, recordsStep f r ∧ readStep st sl i = some r := by
  obtain ⟨r, records, good, -⟩ := asStep_eq_some range
  obtain ⟨e, held, run, next, -⟩ := stands
  have room : f.notes.length + 1 ≤ entriesGiven sl i ⟨e, f.position, f.duration⟩ := by
    rw [entriesGiven_eq, next]
    show _ ≤ e + (1 + f.notes.length) - e
    omega
  rw [Nat.add_comm] at run
  obtain ⟨head, notes⟩ := List.cons.inj run
  refine ⟨r, records, ?_⟩
  have notes' : Table.getRun .blank st.pool (e + 1) f.notes.length = f.notes.map .note := notes
  have head' : st.pool.get .blank e = .head f.position f.duration f.follow (sentFermata f.fermata) f.notes.length
    (check (stepBytes f.position f.duration f.follow (sentFermata f.fermata) f.notes)) := head
  unfold readStep
  rw [held]
  dsimp only
  rw [head']
  dsimp only
  rw [if_pos room, notes', notesOf_map]
  exact (if_pos rfl).trans good

theorem listEntries_eq (l : List StepFields) : listEntries l = entriesOf l := by
  unfold listEntries entriesOf
  rw [List.sum_eq_foldl, List.foldl_map]
  simp only [Nat.add_assoc]

section
variable {n : Nat} {l : List StepFields} {sl : Slot}

theorem answerTuneSteps_loading (served : SlotServed s n) (held : slotRec s.store n = some sl)
    (loading : sl.state = .LOADING) (first : Nat) :
    answerTuneSteps n first l s =
      if first ≠ sl.stepsWritten then refuse s .BAD_FIELD (u16 sl.stepsWritten)
      else match firstInvalid sl.header first sl.lastPosition l with
        | some i => refuse s .BAD_FIELD (u16 i)
        | none =>
          if sl.stepsWritten + l.length ≤ sl.header.verseSteps + sl.header.amenSteps
              ∧ sl.entriesWritten + entriesOf l ≤ sl.header.entries then
            ⟨.OK, u16 (writeSteps sl s.store.pool l).1.stepsWritten ++ u16 (writeSteps sl s.store.pool l).1.entriesWritten,
              { s with store := { s.store with slots := s.store.slots.set none n (some (writeSteps sl s.store.pool l).1),
                                               pool := (writeSteps sl s.store.pool l).2 } }⟩
          else refuse s .OVERFLOW (u16 (sl.header.verseSteps + sl.header.amenSteps - sl.stepsWritten)
            ++ u16 (sl.header.entries - sl.entriesWritten)) := by
  obtain ⟨inRange, notClearing⟩ := served
  unfold answerTuneSteps
  rw [if_neg (not_not.mpr (show n < Config.slotCount from inRange)), if_neg (by simp [notClearing]), held]
  dsimp only
  rw [if_neg (not_not.mpr loading)]
  simp only [listEntries_eq] <;> rfl

end

/-- Settles O23: the list written step by step, each read back where it was written. -/
theorem tuneStepsWritesAllOrNone : Obligations.TuneStepsWritesAllOrNone := by
  refine ⟨fun dt n l sl tag s idle served held loading valid stepsFit entriesFit canonical slots => ?_,
    fun dt n first l sl tag s idle served held loading => ?_, fun st sl f range canonical =>
      readStep_of_stepAt range (stepAt_writeStep sl canonical f)⟩
  · have answered := answerTuneSteps_loading (s := withQueued (.tuneSteps n sl.stepsWritten l) tag (elapse dt s)) (l := l)
      served held loading sl.stepsWritten
    rw [if_neg (not_not.mpr rfl), firstInvalid_eq_none valid] at answered
    obtain ⟨state, header, start, steps, entries, pool, -, new⟩ := writeSteps_spec l sl canonical
    let w := writeSteps sl s.store.pool l
    let st : Store := { s.store with slots := s.store.slots.set none n (some w.1), pool := w.2 }
    rw [← steps, ← entries]
    refine ⟨st, w.1, onService_request_replied (t := { elapse dt s with store := st }) (r := .tuneSteps n sl.stepsWritten l)
        idle (answered.trans (if_pos ⟨stepsFit, entriesFit⟩)),
      Table.get_set_same n _ slots, state.trans loading, header, start, rfl, rfl,
      fun m other => Table.get_set_other _ other slots, rfl, pool, fun all i f here => ?_⟩
    have inRange : stepInRange f := by
      obtain ⟨g, there, range, -⟩ := valid i (List.getElem?_eq_some_iff.mp here).1
      cases here.symm.trans there
      exact range
    have stands := new i f here
    rw [all] at stands
    exact readStep_of_stepAt (st := st) inRange stands
  · have answered := answerTuneSteps_loading (s := withQueued (.tuneSteps n first l) tag (elapse dt s)) (l := l)
      served held loading first
    refine ⟨fun other => ?_, fun same k below valid invalid => ?_, fun same valid tooMany => ?_⟩
    · exact onService_request_replied (r := .tuneSteps n first l) idle (answered.trans (if_pos other))
    · subst same
      rw [if_neg (not_not.mpr rfl), firstInvalid_eq_some below valid invalid] at answered
      exact onService_request_replied (r := .tuneSteps n sl.stepsWritten l) idle answered
    · subst same
      rw [if_neg (not_not.mpr rfl), firstInvalid_eq_none valid] at answered
      exact onService_request_replied (r := .tuneSteps n sl.stepsWritten l) idle
        (answered.trans (if_neg (by omega)))

end Sys2Proof.Proofs
end

section
/-! PROOFS. The fold of a pitch, the firming pass and the retiming, the cipher guard, and the judgement of an
echo (R116, R119, R125, R127, R144, R150, R151, R160). -/

namespace Sys2Proof.Proofs

open Sys2Proof.Machine Sys2Proof.Laws Sys2Proof.Claims

/-- A pitch brought to the near end of the pitches from `low` to `high`, by whole octaves. -/
def nearestPitch (low high p : Int) : Int :=
  if p < low then p + 12 * ((low - p + 11) / 12)
  else if high < p then p - 12 * ((p - high + 11) / 12)
  else p

theorem foldPitch_eq (lowest count : Nat) (p : Int) :
    let q := nearestPitch lowest (lowest + count - 1) p
    foldPitch lowest count p = if (lowest : Int) ≤ q ∧ q ≤ lowest + count - 1 then some (q - lowest).toNat else none := rfl

theorem nearestPitch_cases (low high p : Int) :
    (p < low ∧ nearestPitch low high p = p + 12 * ((low - p + 11) / 12))
      ∨ (low ≤ p ∧ high < p ∧ nearestPitch low high p = p - 12 * ((p - high + 11) / 12))
      ∨ (low ≤ p ∧ p ≤ high ∧ nearestPitch low high p = p) := by
  unfold nearestPitch
  split_ifs <;> omega

/-- Settles O49: the nearest pitch of the class in the compass, from below or from above. -/
theorem foldTakesTheFewestOctaves : Obligations.FoldTakesTheFewestOctaves := by
  intro lowest count p some_
  have folded := foldPitch_eq lowest count p
  have nearest := nearestPitch_cases lowest (lowest + count - 1) p
  generalize nearestPitch lowest (lowest + count - 1) p = q at folded nearest
  rw [folded]
  constructor
  · intro k held
    split at held
    next inside =>
      cases held
      exact ⟨by omega, by omega, fun j here same => by omega⟩
    next => cases held
  · constructor
    · intro dropped j here same
      split at dropped
      next => cases dropped
      next outside => omega
    · intro unplayed
      refine if_neg fun inside => unplayed (q - lowest).toNat (by omega) (by omega)

/-! ### The firming pass and the retiming (R125, R127) -/

theorem arrived_eq_not_later (a b : Time) : arrived a b = !later a b := by
  rw [later_eq_not_arrived, Bool.not_not]

theorem firmEvent_eq (now boundary : Time) (e : KeyEvent) : firmEvent now boundary e = firmed now boundary e := by
  unfold firmEvent firmed timeMax
  rw [arrived_eq_not_later]
  cases e.firm <;> cases later e.time boundary <;> rfl

theorem retimeEvent_eq (f : Follow) (o : Organ) (e : KeyEvent) : retimeEvent f o e = retimed f o e := by
  unfold retimeEvent retimed
  split
  · rfl
  · obtain ⟨kind, voice, division, key, sec, step, basis, time, firm, number⟩ := e
    cases basis with
    | fixed => rfl
    | position p strike =>
      cases kind with
      | UP => cases strike <;> rfl
      | DOWN => rfl
      | RENEW => rfl

/-- FIRM events first, each class in its order (R116). -/
theorem firmFirst_orderSchedule (l : List KeyEvent) : FirmFirst (orderSchedule l) :=
  ⟨orderEvents (l.filter (·.firm)), orderEvents (l.filter (fun e => !e.firm)), rfl,
    fun e member => (List.mem_filter.mp ((orderEvents_perm _).mem_iff.mp member)).2,
    fun e member => by simpa using (List.mem_filter.mp ((orderEvents_perm _).mem_iff.mp member)).2⟩

theorem firmPass_perm (now : Time) (lead : Nat) (k : Schedule) :
    (firmPass now lead k).events.Perm (k.events.map (firmed now (timePlus now lead))) := by
  have same : k.events.map (firmEvent now (timePlus now lead)) = k.events.map (firmed now (timePlus now lead)) :=
    List.map_congr_left fun e _ => firmEvent_eq now _ e
  rw [← same]
  exact orderSchedule_perm _

/-- How far a service time lies behind `now`, where it lies within half the reach of R1. -/
theorem timeDiff_sub {a b now : Time} (ha : -1073741824 < timeDiff a now ∧ timeDiff a now < 1073741824)
    (hb : -1073741824 < timeDiff b now ∧ timeDiff b now < 1073741824) :
    timeDiff a b = timeDiff a now - timeDiff b now := by
  unfold timeDiff at *
  have parts : a - b = (a - now) - (b - now) := by ring
  rw [parts, BitVec.toInt_sub]
  exact Int.bmod_eq_of_le (by omega) (by omega)

/-- The place of an event in schedule order, seen from `now` and the counter. -/
structure EventPlace where
  time : Int
  kind : Nat
  number : Int

def placeOf (now : Time) (counter : BitVec 32) (e : KeyEvent) : EventPlace :=
  ⟨timeDiff e.time now, kindPlace e.kind, (e.number - counter).toInt⟩

/-- Key time, then kind, then insertion number (R116). -/
def EventPlace.NoLater (p q : EventPlace) : Prop :=
  p.time < q.time ∨ (p.time = q.time ∧ (p.kind < q.kind ∨ (p.kind = q.kind ∧ p.number ≤ q.number)))

theorem EventPlace.NoLater.trans {p q r : EventPlace} (a : p.NoLater q) (b : q.NoLater r) : p.NoLater r := by
  unfold NoLater at *
  omega

/-- Within reach of `now` and of the counter. -/
def InReach (now : Time) (counter : BitVec 32) (e : KeyEvent) : Prop :=
  (-1073741824 < timeDiff e.time now ∧ timeDiff e.time now < 1073741824)
    ∧ -1073741824 < (e.number - counter).toInt ∧ (e.number - counter).toInt ≤ 0

/-- Within reach, one event may follow another exactly where its place is no earlier. -/
theorem mayFollow_iff {now : Time} {counter : BitVec 32} {a b : KeyEvent} (ha : InReach now counter a)
    (hb : InReach now counter b) : MayFollow a b ↔ (placeOf now counter a).NoLater (placeOf now counter b) := by
  obtain ⟨timeA, numberA⟩ := ha
  obtain ⟨timeB, numberB⟩ := hb
  have times := timeDiff_sub timeA timeB
  have numbers : (a.number - b.number).toInt = (a.number - counter).toInt - (b.number - counter).toInt :=
    timeDiff_sub (a := a.number) (b := b.number) (now := counter) ⟨by unfold timeDiff; omega, by unfold timeDiff; omega⟩
      ⟨by unfold timeDiff; omega, by unfold timeDiff; omega⟩
  have same : a.time = b.time ↔ timeDiff a.time now = timeDiff b.time now := by
    refine ⟨fun h => by rw [h], fun h => ?_⟩
    have zero : (a.time - b.time).toInt = 0 := times.trans (by omega)
    have zero' : a.time - b.time = 0#32 := BitVec.eq_of_toInt_eq zero
    exact sub_eq_zero.mp zero'
  have kinds : kindPlace a.kind = kindPlace b.kind ↔ a.kind = b.kind := by
    cases a.kind <;> cases b.kind <;> decide
  unfold MayFollow EventPlace.NoLater placeOf later
  simp only [ne_eq, same, numbers, times, ← kinds, decide_eq_false_iff_not]
  omega

/-- Events in reach that stand in order one by one stand in order as a whole. -/
theorem pairwise_mayFollow {now : Time} {counter : BitVec 32} {l : List KeyEvent} (reach : ∀ e ∈ l, InReach now counter e)
    (chain : l.IsChain MayFollow) : l.Pairwise MayFollow := by
  have places : (l.map (placeOf now counter)).IsChain EventPlace.NoLater := by
    rw [List.isChain_map]
    exact chain.imp_of_mem_imp fun {a b} inA inB follows => (mayFollow_iff (reach a inA) (reach b inB)).mp follows
  have transitive : IsTrans EventPlace EventPlace.NoLater := ⟨fun _ _ _ => .trans⟩
  have whole : (l.map (placeOf now counter)).Pairwise EventPlace.NoLater := places.pairwise
  exact (List.pairwise_map.mp whole).imp_of_mem fun {a b} inA inB => (mayFollow_iff (reach a inA) (reach b inB)).mpr

/-- A firming pass leaves every event in reach, FIRM exactly where it is no later than the boundary. -/
theorem firmed_inReach {now : Time} {lead : Nat} {counter : BitVec 32} {e : KeyEvent} (atMost : lead ≤ 1000)
    (reach : InReach now counter e) (firm : e.firm = true → later e.time (timePlus now lead) = false) :
    InReach now counter (firmed now (timePlus now lead) e)
      ∧ ((firmed now (timePlus now lead) e).firm = true ↔ timeDiff (firmed now (timePlus now lead) e).time now ≤ lead) := by
  obtain ⟨time, number⟩ := reach
  have boundary : timeDiff (timePlus now lead) now = lead := timeDiff_timePlus_self now (by omega) (by omega)
  have distance : timeDiff e.time (timePlus now lead) = timeDiff e.time now - lead :=
    (timeDiff_sub time (by rw [boundary]; omega)).trans (by rw [boundary])
  have early : later e.time (timePlus now lead) = false ↔ timeDiff e.time now ≤ lead := by
    simp only [later, decide_eq_false_iff_not, distance]
    omega
  unfold firmed
  split
  next due =>
    have noLater := early.mp due.2
    have self : timeDiff now now = 0 := timeDiff_self now
    dsimp only
    split
    · exact ⟨⟨by rw [self]; omega, number⟩, by simp [self]⟩
    · exact ⟨⟨time, number⟩, by simpa using noLater⟩
  next standing =>
    refine ⟨⟨time, number⟩, fun isFirm => early.mp (firm isFirm), fun noLater => ?_⟩
    by_contra provisional
    exact standing ⟨eq_false_of_ne_true provisional, early.mpr noLater⟩

/-- Settles O50: a firming or retiming event by event, and then a permutation into schedule order. -/
theorem firmingAndRetiming : Obligations.FirmingAndRetiming := by
  refine ⟨fun now lead k => ⟨rfl, rfl, firmFirst_orderSchedule _, firmPass_perm now lead k⟩, fun s => ⟨?_, rfl, rfl⟩,
    fun now lead k atMost range => ?_⟩
  · refine (firmPass_perm _ _ _).trans (List.Perm.of_eq ?_)
    show (s.keys.events.map (retimeEvent s.follow s.organ)).map _ = _
    rw [List.map_map]
    exact List.map_congr_left fun e _ => congrArg _ (retimeEvent_eq _ _ e)
  · have firmedReach (e : KeyEvent) (member : e ∈ k.events.map (firmed now (timePlus now lead))) :
        InReach now k.counter e ∧ (e.firm = true ↔ timeDiff e.time now ≤ lead) := by
      obtain ⟨x, held, rfl⟩ := List.mem_map.mp member
      obtain ⟨time, numberLow, numberHigh, firm⟩ := range x held
      exact firmed_inReach atMost ⟨time, numberLow, numberHigh⟩ firm
    have reach (e : KeyEvent) (member : e ∈ (firmPass now lead k).events) :
        InReach now k.counter e ∧ (e.firm = true ↔ timeDiff e.time now ≤ lead) :=
      firmedReach e ((firmPass_perm now lead k).mem_iff.mp member)
    refine List.pairwise_append.mpr ⟨?_, ?_, fun a inA b inB => ?_⟩
    · exact pairwise_mayFollow (fun e member => (reach e (List.mem_append_left _ member)).1) (isChain_orderEvents _)
    · exact pairwise_mayFollow (fun e member => (reach e (List.mem_append_right _ member)).1) (isChain_orderEvents _)
    · obtain ⟨reachA, firmA⟩ := reach a (List.mem_append_left _ inA)
      obtain ⟨reachB, firmB⟩ := reach b (List.mem_append_right _ inB)
      have isFirm : a.firm = true := (List.mem_filter.mp ((orderEvents_perm _).mem_iff.mp inA)).2
      have provisional : b.firm = false := by simpa using (List.mem_filter.mp ((orderEvents_perm _).mem_iff.mp inB)).2
      refine (mayFollow_iff reachA reachB).mpr (.inl ?_)
      have before := firmA.mp isFirm
      have behind : ¬ timeDiff b.time now ≤ lead := mt firmB.mpr (by simp [provisional])
      show timeDiff a.time now < timeDiff b.time now
      omega

/-! ### Flags that are up stay up -/

section
variable {s : State}

theorem flagUp_raise_self (k : Kind) (canonical : s.flags.raised.wf none = true) :
    flagUp (raise k s).flags (flagOf k) = true := by
  cases up : flagUp s.flags (flagOf k) with
  | true => rwa [(onlyARiseIsNoticed.1 k s canonical).1 up]
  | false => rw [flagUp, ((onlyARiseIsNoticed.1 k s canonical).2 up).1]; rfl

theorem flagUp_raise (k : Kind) (canonical : s.flags.raised.wf none = true) {g : Flag} (up : flagUp s.flags g = true) :
    flagUp (raise k s).flags g = true := by
  by_cases own : g = flagOf k
  · exact own ▸ flagUp_raise_self k canonical
  · cases rises : flagUp s.flags (flagOf k) with
    | true => rwa [(onlyARiseIsNoticed.1 k s canonical).1 rises]
    | false => rwa [flagUp, ((onlyARiseIsNoticed.1 k s canonical).2 rises).2.1 g own]

end

/-! ### The cipher guard (R144) -/

theorem mem_of_readCells_ne {β : Type} {d : β} {l : List (Nat × β)} {k : Nat} (held : readCells d l k ≠ d) :
    (k, readCells d l k) ∈ l := by
  induction l with
  | nil => exact absurd rfl held
  | cons c rest ih =>
    simp only [readCells] at held ⊢
    split_ifs at held ⊢ with below here
    · exact absurd rfl held
    · rw [here]
      exact List.mem_cons_self
    · exact List.mem_cons_of_mem c (ih held)

/-- A key that is down stands among the down keys. -/
theorem mem_downKeys {m : SoundingMap} {d : Division} {k : Nat} (below : k < 64) (down : keyDown m d k = true) :
    (d, k, keyEntry m d k) ∈ downKeys m := by
  have holders : (keyEntry m d k).holders ≠ [] := by simpa [keyDown] using down
  have held : keyEntry m d k ≠ noKey := fun none => holders (by rw [none]; rfl)
  refine List.mem_map.mpr ⟨(keyId d k, keyEntry m d k), List.mem_filter.mpr ⟨mem_of_readCells_ne held, by simpa using holders⟩, ?_⟩
  rw [keyOfId_keyId d below]

section
variable {s : State}

/-- What the releases of some down keys do to the map and the flags, and what they leave. -/
theorem cipherReleases_map (f : Time) : ∀ (l : List (Division × Nat × KeyEntry)) (c : Comp),
    c.state.map.keys.wf noKey = true → c.state.flags.raised.wf none = true → Down c.state l →
    let t := (l.foldl (cipherRelease f) c).state
    (∀ d k, k < 64 → keyEntry t.map d k = if ∃ x ∈ l, x.1 = d ∧ x.2.1 = k
        then { keyEntry c.state.map d k with holders := [] } else keyEntry c.state.map d k)
      ∧ (l ≠ [] ∨ flagUp c.state.flags .CIPHER = true → flagUp t.flags .CIPHER = true)
      ∧ t.keys = c.state.keys ∧ t.keyline = c.state.keyline ∧ t.map.stops = c.state.map.stops
      ∧ t.map.expression = c.state.map.expression
  | [], c, _, _, _ => ⟨by simp, by simp, rfl, rfl, rfl, rfl⟩
  | x :: rest, c, keys, flags, down => by
    obtain ⟨below, entry, holders⟩ := down.1 x List.mem_cons_self
    have raised : (cipherRelease f c x).state.flags.raised.wf none = true := raisesCanonical_raiseFlags _ _ flags
    have up : flagUp (cipherRelease f c x).state.flags .CIPHER = true :=
      flagUp_raise_self (s := { c.state with map := _, leak := _ }) (.cipher x.1 x.2.1 x.2.2.holders f) flags
    obtain ⟨others, flag, schedule, keyline, stops, expression⟩ := cipherReleases_map f rest (cipherRelease f c x)
      (Table.wf_set _ _ keys) raised (down.tail keys rfl)
    refine ⟨fun d k small => ?_, fun _ => flag (.inr up), schedule, keyline, stops, expression⟩
    have apart := (List.pairwise_cons.mp down.2).1
    rw [List.foldl_cons, others d k small]
    by_cases here : x.1 = d ∧ x.2.1 = k
    · obtain ⟨rfl, rfl⟩ := here
      have released : keyEntry (cipherRelease f c x).state.map x.1 x.2.1 = { x.2.2 with holders := [] } :=
        keyEntry_setKey_same _ keys
      have named : ∃ y ∈ x :: rest, y.1 = x.1 ∧ y.2.1 = x.2.1 := ⟨x, List.mem_cons_self, rfl, rfl⟩
      rw [if_pos named, released, entry, ite_self]
    · have other : d ≠ x.1 ∨ k ≠ x.2.1 := by
        rw [← not_and_or]
        exact fun same => here ⟨same.1.symm, same.2.symm⟩
      have stays : keyEntry (cipherRelease f c x).state.map d k = keyEntry c.state.map d k :=
        otherKeysStay_setKey _ keys below d k small other
      rw [stays]
      simp only [List.mem_cons, exists_eq_or_imp, here, false_or]

/-- Settles O53: the releases one after the other, each on a key of its own. -/
theorem cipherGuardReleasesDueKeys : Obligations.CipherGuardReleasesDueKeys := by
  intro f s keys range flags
  have down : Down s (cipherDue s.map f) :=
    ⟨fun x member => downKeys_spec keys range (List.mem_filter.mp member).1, (downKeys_distinct keys range).filter _⟩
  obtain ⟨entries, flag, schedule, keyline, stops, expression⟩ :=
    cipherReleases_map f (cipherDue s.map f) (emptyComp s) keys flags down
  have due {d : Division} {k : Nat} (below : k < 64) : (∃ x ∈ cipherDue s.map f, x.1 = d ∧ x.2.1 = k)
      ↔ keyDown s.map d k = true ∧ timeDiff (keyEntry s.map d k).deadline f ≤ 0 := by
    constructor
    · rintro ⟨x, member, rfl, rfl⟩
      obtain ⟨-, entry, holders⟩ := down.1 x member
      have late := (List.mem_filter.mp member).2
      exact ⟨by simpa [keyDown, entry] using holders, by simpa [arrived, entry] using late⟩
    · rintro ⟨isDown, late⟩
      exact ⟨_, List.mem_filter.mpr ⟨mem_downKeys below isDown, decide_eq_true late⟩, rfl, rfl⟩
  refine ⟨fun d k below => ?_, fun ⟨d, k, below, isDown, late⟩ => flag (.inl ?_), fun none => ?_, schedule, keyline, stops,
    expression⟩
  · refine (entries d k below).trans ?_
    by_cases late : timeDiff (keyEntry s.map d k).deadline f ≤ 0
    · rw [if_pos late]
      split
      next => rfl
      next up =>
        have silent : (keyEntry s.map d k).holders = [] := by
          simpa [keyDown] using fun isDown => up ((due below).mpr ⟨isDown, late⟩)
        exact (congrArg (fun h => { keyEntry s.map d k with holders := h }) silent.symm).symm
    · rw [if_neg late, if_neg fun member => late ((due below).mp member).2]
      rfl
  · obtain ⟨x, member, -⟩ := (due below).mpr ⟨isDown, late⟩
    exact List.ne_nil_of_mem member
  · have noneDue : cipherDue s.map f = [] := by
      refine List.eq_nil_iff_forall_not_mem.mpr fun x member => ?_
      have below := (down.1 x member).1
      obtain ⟨isDown, late⟩ := (due below).mp ⟨x, member, rfl, rfl⟩
      have := none x.1 x.2.1 below isDown
      omega
    show ((cipherDue s.map f).foldl (cipherRelease f) (emptyComp s)).state = s
    rw [noneDue]
    rfl

end

/-! ### Echoes (R150, R151, R160) -/

section
variable {s : State}

theorem echoOutcome_eq (n : Nat) (held : Option Echo) : echoOutcome n held = outcomeOf n held := by
  cases held with
  | none => rfl
  | some e =>
    unfold echoOutcome outcomeOf
    by_cases same : e.number = n <;> simp [same]

theorem readEcho_record (number result boards : Byte) :
    readEcho (0x5B#8 :: [number, result, boards] ++ checkBytes [number, result, boards])
      = some ⟨number.toNat, result == 0#8, boards.toNat⟩ := if_pos ⟨rfl, rfl⟩

theorem readEcho_bad {bs : List Byte} (bad : bs.length ≠ 6 ∨ bs.head? ≠ some 0x5B#8
    ∨ bs.drop 4 ≠ checkBytes ((bs.drop 1).take 3)) : readEcho bs = none := by
  unfold readEcho
  split
  · refine if_neg ?_
    rintro ⟨rfl, check⟩
    obtain length | start | wrong := bad
    · exact length rfl
    · exact start rfl
    · exact wrong check.symm
  · rfl

theorem holdEcho_deaf (e : Echo) {k : Keyline} (deaf : k.state = .OFF ∨ k.awaited = none) : holdEcho e k = k := by
  unfold holdEcho
  split
  next => rfl
  next on => rw [deaf.resolve_left on]

theorem holdEcho_held {e : Echo} {k : Keyline} {n : Nat} (on : k.state ≠ .OFF) (awaited : k.awaited = some n)
    (first : k.heldEcho = none ∨ ∃ h, k.heldEcho = some h ∧ e.number = n ∧ h.number ≠ n) :
    holdEcho e k = { k with heldEcho := some e } := by
  obtain empty | ⟨h, held, own, other⟩ := first
  · simp [holdEcho, on, awaited, empty]
  · simp [holdEcho, on, awaited, held, own, other]

theorem holdEcho_discarded {e h : Echo} {k : Keyline} {n : Nat} (awaited : k.awaited = some n)
    (held : k.heldEcho = some h) (second : h.number = n ∨ e.number ≠ n) : holdEcho e k = k := by
  unfold holdEcho
  rw [awaited]
  dsimp only
  rw [held]
  dsimp only
  rw [if_neg (show ¬ (e.number = n ∧ h.number ≠ n) by tauto), ite_self]

theorem receiveEcho_same {bs : List Byte} (same : ∀ e, readEcho bs = some e → holdEcho e s.keyline = s.keyline) :
    receiveEcho bs s = s := by
  unfold receiveEcho
  split
  next e read => exact congrArg (fun k => { s with keyline := k }) (same e read)
  next => rfl

/-- The counts after an outcome, and what the judgement holds of the echo (R150). -/
theorem countEcho_eq (x : EchoOutcome) (k : Keyline) : countEcho x k = { k with
    errors := if x = .GOOD then 0 else min 255 (k.errors + 1), goods := if x = .GOOD then min 255 (k.goods + 1) else 0,
    lastOutcome := some x,
    lastBoards := (k.heldEcho.map (·.boards)).or k.lastBoards } := by
  unfold countEcho
  dsimp only
  cases k.heldEcho <;> split <;> rfl

/-- What a judgement settles: the Keyline state, the two counts, the carry list and the flags. -/
structure Judgement where
  state : KeylineState
  errors : Nat
  goods : Nat
  carry : List (Division × Nat)
  flags : Flags

/-- R150, R151, R160: the judgement of frame `n` with outcome `x`, the last board count being `boards`. -/
def judgement (n : Nat) (x : EchoOutcome) (boards : Option Nat) (s : State) : Judgement :=
  let k := s.keyline
  let bad := if x = .GOOD then 0 else min 255 (k.errors + 1)
  let good := if x = .GOOD then min 255 (k.goods + 1) else 0
  let faulted : Judgement := ⟨.FAULT, bad, 0, [], raiseFlags s.now (.keylineFault n x boards) s.flags⟩
  let restored := raiseFlags s.now (.keylineRestored n boards) s.flags
  match k.state with
  | .OFF => ⟨.OFF, bad, good, k.carry, s.flags⟩
  | .RUNNING => if x ≠ .GOOD ∧ s.params.echoLimit ≤ bad then faulted else ⟨.RUNNING, bad, good, k.carry, s.flags⟩
  | .FAULT =>
    if x = .GOOD ∧ s.params.recoverCount ≤ good then ⟨.RUNNING, 0, good, k.carry, restored⟩
    else ⟨.FAULT, bad, good, k.carry, s.flags⟩
  | .SWEEP =>
    if k.sweep = [] then
      if s.params.echoLimit ≤ bad then faulted
      else ⟨.RUNNING, bad, good, k.carry, if k.originFault = true then restored else s.flags⟩
    else ⟨.SWEEP, bad, good, k.carry, s.flags⟩

/-- The part as a judgement leaves it. -/
def withJudgement (j : Judgement) (x : EchoOutcome) (boards : Option Nat) (s : State) : State :=
  { s with keyline := { s.keyline with state := j.state, errors := j.errors, goods := j.goods, carry := j.carry,
                                       lastOutcome := some x, lastBoards := boards },
           flags := j.flags }

theorem judgeEcho_awaited {n : Nat} (awaited : s.keyline.awaited = some n) :
    let x := outcomeOf n s.keyline.heldEcho
    let boards := (s.keyline.heldEcho.map (·.boards)).or s.keyline.lastBoards
    judgeEcho s = withJudgement (judgement n x boards s) x boards s := by
  have judged : judgeEcho s = stateAfterJudgement n (outcomeOf n s.keyline.heldEcho)
      { s with keyline := countEcho (outcomeOf n s.keyline.heldEcho) s.keyline } := by
    unfold judgeEcho
    rw [awaited, ← echoOutcome_eq]
  rw [judged, countEcho_eq]
  unfold stateAfterJudgement judgement
  dsimp only
  cases state : s.keyline.state with
  | OFF => rfl
  | RUNNING => dsimp only; split_ifs <;> rfl
  | FAULT => dsimp only; split_ifs with good recovered <;> rfl
  | SWEEP => simp only [List.isEmpty_iff]; split_ifs <;> rfl

/-- What R151 and R160 say of the Keyline state, the counts and the flags after a judgement. -/
theorem judgement_spec (n : Nat) (x : EchoOutcome) (boards : Option Nat) (s : State) :
    let k := s.keyline
    let j := judgement n x boards s
    let raised (y : Kind) : Flags := raiseFlags s.now y s.flags
    let bad := if x = .GOOD then 0 else min 255 (k.errors + 1)
    let good := if x = .GOOD then min 255 (k.goods + 1) else 0
    (k.state = .OFF → j.state = .OFF)
      ∧ (k.state = .RUNNING → j.state = if x ≠ .GOOD ∧ s.params.echoLimit ≤ bad then .FAULT else .RUNNING)
      ∧ (k.state = .FAULT → j.state = if x = .GOOD ∧ s.params.recoverCount ≤ good then .RUNNING else .FAULT)
      ∧ (k.state = .SWEEP → k.sweep ≠ [] → j.state = .SWEEP)
      ∧ (k.state = .SWEEP → k.sweep = [] → j.state = if s.params.echoLimit ≤ bad then .FAULT else .RUNNING)
      ∧ (k.state ≠ .FAULT → j.state = .FAULT → j.errors = bad ∧ j.goods = 0 ∧ j.carry = []
          ∧ j.flags = raised (.keylineFault n x boards))
      ∧ (k.state = .FAULT → j.state = .RUNNING → j.errors = 0 ∧ j.goods = good ∧ j.carry = k.carry
          ∧ j.flags = raised (.keylineRestored n boards))
      ∧ (k.state = .SWEEP → j.state = .RUNNING → j.errors = bad ∧ j.goods = good ∧ j.carry = k.carry
          ∧ j.flags = if k.originFault = true then raised (.keylineRestored n boards) else s.flags)
      ∧ (k.state = j.state → j.errors = bad ∧ j.goods = good ∧ j.carry = k.carry ∧ j.flags = s.flags) := by
  dsimp only
  generalize same : judgement n x boards s = j
  unfold judgement at same
  dsimp only at same
  generalize (if x = .GOOD then 0 else min 255 (s.keyline.errors + 1)) = bad at same ⊢
  generalize (if x = .GOOD then min 255 (s.keyline.goods + 1) else 0) = good at same ⊢
  generalize raiseFlags s.now (.keylineFault n x boards) s.flags = faultedFlags at same ⊢
  generalize raiseFlags s.now (.keylineRestored n boards) s.flags = restoredFlags at same ⊢
  cases state : s.keyline.state with
  | OFF =>
    simp only [state] at same
    subst same
    simp
  | RUNNING =>
    simp only [state] at same
    split_ifs at same with limit <;> subst same <;> simp [limit]
  | FAULT =>
    simp only [state] at same
    split_ifs at same with recovered <;> subst same <;> simp [recovered]
  | SWEEP =>
    simp only [state] at same
    split_ifs at same with swept limit origin <;> subst same <;> simp_all

/-- Settles O54: by the record received, and by the judgement written as a record of what it settles. -/
theorem echoesAreHeldAndJudged : Obligations.EchoesAreHeldAndJudged := by
  refine ⟨fun dt s live => ⟨fun bs bad => ?_, fun number result boards n on awaited => ⟨fun first => ?_, fun h held second => ?_⟩⟩,
    fun n s awaited => ?_⟩
  · refine (onService_live dt (receiveEcho bs) s live).trans (congrArg _ (receiveEcho_same fun e read => ?_))
    obtain length | start | check | deaf := bad
    · rw [readEcho_bad (.inl length)] at read; cases read
    · rw [readEcho_bad (.inr (.inl start))] at read; cases read
    · rw [readEcho_bad (.inr (.inr check))] at read; cases read
    · exact holdEcho_deaf e deaf
  · refine (onService_live dt (receiveEcho _) s live).trans (congrArg _ ?_)
    unfold receiveEcho
    rw [readEcho_record]
    exact congrArg (fun k => { elapse dt s with keyline := k })
      (holdEcho_held (e := ⟨number.toNat, result == 0#8, boards.toNat⟩) on awaited first)
  · refine (onService_live dt (receiveEcho _) s live).trans (congrArg _ (receiveEcho_same fun e read => ?_))
    rw [readEcho_record] at read
    cases read
    exact holdEcho_discarded awaited held second
  · have judged := judgeEcho_awaited awaited
    dsimp only at judged ⊢
    rw [judged]
    obtain ⟨off, running, fault, sweeping, swept, faulted, restored, ran, stays⟩ :=
      judgement_spec n (outcomeOf n s.keyline.heldEcho) ((s.keyline.heldEcho.map (·.boards)).or s.keyline.lastBoards) s
    exact ⟨rfl, fun e held => by simp [withJudgement, held], fun empty => by simp [withJudgement, empty],
      off, running, fault, sweeping, swept, faulted, restored, ran, stays, rfl, rfl⟩

end

end Sys2Proof.Proofs
end

section
/-! PROOFS. What a decision does to the Beat Follower, and the record it leaves (O40). -/

namespace Sys2Proof.Proofs

open Sys2Proof.Machine Sys2Proof.Laws Sys2Proof.Claims

/-! ### Limits -/

theorem clampInt_eq {lo hi : Int} (v : Int) (order : lo ≤ hi) : clampInt lo hi v = max lo (min hi v) := by
  unfold clampInt
  split_ifs <;> omega

theorem limitInt_eq {l : Int} (v : Int) (positive : 0 ≤ l) : limitInt l v = max (-l) (min l v) :=
  clampInt_eq v (by omega)

/-- The bound that a clamped value is told by: the upper for a value above it, the lower for one below it. -/
theorem clampInt_told {lo hi : Int} (v : Int) (order : lo ≤ hi) {upper : Bool} :
    (if clampInt lo hi v = v then none else some (decide (clampInt lo hi v < v))) = some upper
      ↔ if upper = true then hi < v else v < lo := by
  rcases lt_or_ge v lo with low | low
  · have clamped : clampInt lo hi v = lo := if_pos low
    have told : decide (lo < v) = false := decide_eq_false (by omega)
    have below : ¬ hi < v := by omega
    rw [clamped, if_neg low.ne', told]
    cases upper <;> simp [low, below]
  · rcases lt_or_ge hi v with high | high
    · have clamped : clampInt lo hi v = hi := (if_neg (not_lt.mpr low)).trans (if_pos high)
      have told : decide (hi < v) = true := decide_eq_true high
      rw [clamped, if_neg high.ne, told]
      cases upper <;> simp [high, low]
    · have clamped : clampInt lo hi v = v := (if_neg (not_lt.mpr low)).trans (if_neg (not_lt.mpr high))
      rw [clamped, if_pos rfl]
      cases upper <;> simp [high, low]

/-! ### The correction, and the Follower that a decision leaves (R70 to R77) -/

section
variable (s : State) (m : MatchWindow) (o : Onset)

/-- R69: the matched onset of the decision of `m`. -/
def matchedOnset : Option Onset := strongest (candidates m s.listen.queue)

/-- R70: the decision of `m` is late. -/
def isLate : Bool := posBefore m.point s.follow.anchor

/-- The correction that the decision of `m` makes. -/
def corrected : Correction := correction s m (isLate s m) (matchedOnset s m)

/-- R77: the Follower returns from COAST to TRACK with the decision of `m`. -/
def returns : Prop := s.follow.state = .COAST ∧ (followAfterDecision s m).1.state = .TRACK

theorem countDecision_eq (hit : Option Onset) (f : Follow) : countDecision hit f = { f with
    matched := (countDecision hit f).matched, missed := (countDecision hit f).missed,
    lastMatch := (hit.map (·.time)).getD f.lastMatch } := by
  cases hit <;> rfl

theorem enterFollowState_eq_of_stay {x : FollowState} {f : Follow} (stays : ¬ (f.state = .COAST ∧ x = .TRACK)) :
    enterFollowState x f = { f with state := x } := if_neg stays

@[simp] theorem enterFollowState_anchor (x : FollowState) (f : Follow) : (enterFollowState x f).anchor = f.anchor := by
  unfold enterFollowState
  split <;> rfl

@[simp] theorem enterFollowState_anchorTime (x : FollowState) (f : Follow) :
    (enterFollowState x f).anchorTime = f.anchorTime := by
  unfold enterFollowState
  split <;> rfl

@[simp] theorem enterFollowState_period (x : FollowState) (f : Follow) : (enterFollowState x f).period = f.period := by
  unfold enterFollowState
  split <;> rfl

@[simp] theorem enterFollowState_lastMatch (x : FollowState) (f : Follow) :
    (enterFollowState x f).lastMatch = f.lastMatch := by
  unfold enterFollowState
  split <;> rfl

theorem followAfterDecision_anchor : (followAfterDecision s m).1.anchor = (corrected s m).follow.anchor := by
  show (enterFollowState _ (countDecision _ _)).anchor = _
  rw [enterFollowState_anchor, countDecision_eq]
  rfl

theorem followAfterDecision_anchorTime :
    (followAfterDecision s m).1.anchorTime = (corrected s m).follow.anchorTime := by
  show (enterFollowState _ (countDecision _ _)).anchorTime = _
  rw [enterFollowState_anchorTime, countDecision_eq]
  rfl

theorem followAfterDecision_period : (followAfterDecision s m).1.period = (corrected s m).follow.period := by
  show (enterFollowState _ (countDecision _ _)).period = _
  rw [enterFollowState_period, countDecision_eq]
  rfl

theorem followAfterDecision_rebased (stays : ¬ returns s m) :
    (followAfterDecision s m).1.rebased = (corrected s m).follow.rebased := by
  have away : ¬ ((countedFollow s m).state = .COAST ∧ followStateAfter s.params (isMatch s m) (countedFollow s m) = .TRACK) := by
    rwa [countedFollow_state, ← followAfterDecision_state]
  show (enterFollowState (followStateAfter s.params (isMatch s m) (countedFollow s m)) (countedFollow s m)).rebased = _
  rw [enterFollowState_eq_of_stay away]
  show (countDecision _ _).rebased = _
  rw [countDecision_eq]
  rfl

theorem followAfterDecision_lastMatch : (followAfterDecision s m).1.lastMatch
    = ((matchedOnset s m).map (·.time)).getD (corrected s m).follow.lastMatch := by
  show (enterFollowState _ (countDecision _ _)).lastMatch = _
  rw [enterFollowState_lastMatch, countDecision_eq]
  rfl

theorem followAfterDecision_record : (followAfterDecision s m).1.lastDecision
    = some (decisionRecord s m (isLate s m) (matchedOnset s m) (corrected s m) (followAfterDecision s m).1.state) := by
  rw [followAfterDecision_state]
  rfl

/-! ### What each kind of decision corrects -/

/-- The correction of a decision that takes nothing from an onset. -/
def noCorrection : Correction := ⟨s.follow, none, 0, .applied 0, none⟩

theorem corrected_of_miss (away : matchedOnset s m = none ∨ isLate s m = true) : corrected s m = noCorrection s := by
  unfold corrected
  obtain missed | late := away
  · rw [missed]
    rfl
  · rw [late]
    cases matchedOnset s m <;> rfl

variable {s m o}

theorem corrected_of_track (hit : matchedOnset s m = some o) (timely : isLate s m = false) (track : s.follow.state = .TRACK) :
    corrected s m = correctTrack s m o := by
  simp [corrected, correction, hit, timely, track]

theorem corrected_of_reanchor (hit : matchedOnset s m = some o) (timely : isLate s m = false)
    (other : s.follow.state ≠ .TRACK) : corrected s m = reanchor s m o := by
  simp [corrected, correction, hit, timely, other]

theorem not_returns_of_track (track : s.follow.state = .TRACK) : ¬ returns s m := fun back => by
  rw [returns, track] at back
  cases back.1

theorem periodStep_eq_stepOf : periodStep (gains s.params o.cls).2 s.params.matchLimit s.follow.period
    (timeDiff o.time m.expected) ((m.point.pos : Int) - s.follow.anchor.pos) = stepOf s m o := by
  have beats : (1024 * max ((m.point.pos : Int) - s.follow.anchor.pos) 96).toNat
      = 1024 * (max ((m.point.pos : Int) - s.follow.anchor.pos) 96).toNat := by omega
  unfold periodStep stepOf
  dsimp only
  rw [limitInt_eq _ (Int.natCast_nonneg _), beats]
  rfl

/-- R72 to R74: an on-time match in TRACK with the rebased indication on. -/
theorem correctTrack_rebased (rebased : s.follow.rebased = true) : correctTrack s m o
    = ⟨{ s.follow with
          anchorTime := timePlus (predict s.follow m.point.pos) (shiftOf s.params m o), anchor := m.point, rebased := false },
        some (errorOf m o), shiftOf s.params m o, .SKIPPED, none⟩ := by
  unfold correctTrack
  rw [if_pos rebased]
  rfl

/-- R72 to R74: one with the rebased indication off, before the period is clamped to the tune's bounds. -/
theorem correctTrack_stepped (steady : s.follow.rebased = false) : correctTrack s m o
    = (let raw : Int := s.follow.period + stepOf s m o
       let p := clampInt (periodBounds s).1 (periodBounds s).2 raw
       ⟨{ s.follow with
          anchorTime := timePlus (predict s.follow m.point.pos) (shiftOf s.params m o), anchor := m.point,
          period := p.toNat },
        some (errorOf m o), shiftOf s.params m o, .applied (stepOf s m o),
        if p = raw then none else some (decide (p < raw))⟩) := by
  unfold correctTrack
  rw [if_neg (by simp [steady]), ← periodStep_eq_stepOf]
  rfl

theorem periodBounds_of_playing {h : Header} (playing : playingHeader s = some h) : periodBounds s = (h.pmin, h.pmax) := by
  unfold periodBounds
  rw [playing]

/-- R74: a period is clamped exactly when it lies past a bound of the tune, and the bound told is that one. -/
theorem clamped_iff {h : Header} (playing : playingHeader s = some h) (order : h.pmin ≤ h.pmax) (track : s.follow.state = .TRACK)
    (steady : s.follow.rebased = false) (hit : matchedOnset s m = some o) (timely : isLate s m = false) (upper : Bool) :
    ClampedAt s m upper ↔ (corrected s m).bound = some upper := by
  have takes : TakesStep s m o := ⟨track, steady, hit, timely⟩
  have past : ClampedAt s m upper ↔ (if upper = true then (h.pmax : Int) < s.follow.period + stepOf s m o
      else (s.follow.period : Int) + stepOf s m o < h.pmin) := by
    constructor
    · rintro ⟨o', h', ⟨_, _, hit', _⟩, playing', past⟩
      cases hit.symm.trans hit'
      cases playing.symm.trans playing'
      exact past
    · exact fun past => ⟨o, h, takes, playing, past⟩
  rw [past, corrected_of_track hit timely track, correctTrack_stepped steady, periodBounds_of_playing playing]
  exact (clampInt_told _ (Int.ofNat_le.mpr order)).symm

theorem decisionRecorded : DecisionRecorded s m
    (decisionRecord s m (isLate s m) (matchedOnset s m) (corrected s m) (followAfterDecision s m).1.state) := by
  refine ⟨rfl, rfl, rfl, rfl, rfl, ?_, ?_, rfl, fun away => ?_, fun o hit timely => ⟨?_, fun other => ?_, fun track => ⟨?_, fun on => ?_, fun off => ?_⟩⟩⟩
  · exact congrArg (· - 1) List.countP_eq_length_filter.symm
  · exact List.countP_eq_length_filter.symm
  · rw [corrected_of_miss s m away]
    exact ⟨rfl, rfl, rfl, rfl⟩
  · by_cases track : s.follow.state = .TRACK
    · rw [corrected_of_track hit timely track]
      unfold correctTrack
      dsimp only
      split <;> rfl
    · rw [corrected_of_reanchor hit timely track]
      rfl
  · rw [corrected_of_reanchor hit timely other]
    exact ⟨rfl, rfl, rfl⟩
  · rw [corrected_of_track hit timely track]
    unfold correctTrack
    dsimp only
    split <;> rfl
  · rw [corrected_of_track hit timely track, correctTrack_rebased on]
    exact ⟨rfl, rfl⟩
  · refine ⟨?_, fun h playing order => ?_⟩
    · rw [corrected_of_track hit timely track, correctTrack_stepped off]
      rfl
    · simp only [clamped_iff playing order track off hit timely]
      exact Option.isSome_iff_exists

end

/-- Settles O40: by the correction that each kind of decision makes. -/
theorem decisionsCorrectTheFollower : Obligations.DecisionsCorrectTheFollower := by
  refine ⟨fun s m o track hit timely => ?_, fun s m o other hit timely => ?_, fun s m away => ?_, fun s m => ?_⟩
  · have taken := corrected_of_track hit timely track
    have rebased := followAfterDecision_rebased s m (not_returns_of_track track)
    dsimp only
    rw [rebased, followAfterDecision_anchor, followAfterDecision_anchorTime, followAfterDecision_period, taken]
    by_cases on : s.follow.rebased = true
    · rw [correctTrack_rebased on]
      exact ⟨rfl, rfl, rfl, fun _ => rfl, fun off => absurd (on.symm.trans off) nofun⟩
    · have off : s.follow.rebased = false := by simpa using on
      rw [correctTrack_stepped off]
      refine ⟨rfl, rfl, off, fun on' => absurd on' on, fun _ h playing order => ?_⟩
      dsimp only
      rw [periodBounds_of_playing playing, clampInt_eq _ (by omega)]
      exact Int.toNat_of_nonneg (by omega)
  · have away : s.follow.state ≠ .TRACK := by
      obtain lead | coast := other
      · simp [lead]
      · simp [coast]
    have taken := corrected_of_reanchor hit timely away
    have rebased := followAfterDecision_rebased s m
    dsimp only
    rw [taken] at rebased
    rw [followAfterDecision_anchor, followAfterDecision_anchorTime, followAfterDecision_period, taken]
    exact ⟨rfl, rfl, rfl, rebased⟩
  · have rebased := followAfterDecision_rebased s m
    dsimp only
    rw [corrected_of_miss s m away] at rebased
    rw [followAfterDecision_anchor, followAfterDecision_anchorTime, followAfterDecision_period, corrected_of_miss s m away]
    exact ⟨rfl, rfl, rfl, rebased⟩
  · refine ⟨rfl, rfl, ⟨_, followAfterDecision_record s m, decisionRecorded⟩, fun o hit => ?_, fun missed => ?_⟩
    · rw [followAfterDecision_lastMatch, show matchedOnset s m = some o from hit]
      rfl
    · rw [followAfterDecision_lastMatch, show matchedOnset s m = none from missed, corrected_of_miss s m (.inl missed)]
      rfl

end Sys2Proof.Proofs
end

section
/-! PROOFS. What the Player does at once, and the entry to a CUED fermata (O45). -/

namespace Sys2Proof.Proofs

open Sys2Proof.Machine Sys2Proof.Laws Sys2Proof.Claims

variable {s : State}

/-! ### When nothing follows at once (R100) -/

theorem follows_of_none (none_ : nextAtOnce s = none) : follows s = s := by
  unfold follows Config.atOnceBound chain
  rw [none_]

/-- One transition that acts at once, with none behind it. -/
theorem follows_of_once {t : State} (next : nextAtOnce s = some t) (rests : nextAtOnce t = none) : follows s = t := by
  unfold follows Config.atOnceBound chain
  rw [next]
  dsimp only
  unfold chain
  rw [rests]

/-- What is due neither of the wait nor of the other times of the Player follows not at once. -/
theorem nextAtOnce_eq_none (idle : idleDue s = false)
    (wait : ∀ w, s.player.wait = some w → (w.phase = .MINIMUM → due s w.minimumEnd = false)
      ∧ (w.phase = .BREATH → due s w.breathEnd = false))
    (gap : gapDue s = none) (back : fermataBackDue s = false) (fermata : fermataDue s = none)
    (section_ : sectionEndDue s = false) : nextAtOnce s = none := by
  cases next : nextAtOnce s with
  | none => rfl
  | some t =>
    exfalso
    obtain ⟨due, -⟩ | ⟨w, waits, due, -⟩ | ⟨w, waits, due, -⟩ | ⟨n, due, -⟩ | ⟨due, -⟩ | ⟨w, f, due, -⟩
      | ⟨n, -, due, -⟩ := nextAtOnce_cases next
    · exact absurd (idle.symm.trans due) nofun
    · obtain ⟨stands, phase⟩ := waitIn_eq_some_iff.mp waits
      exact absurd (((wait w stands).1 phase).symm.trans due) nofun
    · obtain ⟨stands, phase⟩ := waitIn_eq_some_iff.mp waits
      exact absurd (((wait w stands).2 phase).symm.trans due) nofun
    · exact absurd (gap.symm.trans due) nofun
    · exact absurd (back.symm.trans due) nofun
    · exact absurd (fermata.symm.trans due) nofun
    · exact absurd (section_.symm.trans due) nofun

theorem idleDue_of_state (ending : s.player.state ≠ .ENDING) (stopping : s.player.state ≠ .STOPPING) :
    idleDue s = false := by
  simp [idleDue, ending, stopping]

theorem gapDue_of_state (gap : s.player.state ≠ .GAP) : gapDue s = none := by
  cases due : gapDue s with
  | none => rfl
  | some n => exact absurd (gapDue_spec due) gap

theorem gapDue_of_cued {k : Nat} (gap : s.player.gap = some ⟨k, none⟩) : gapDue s = none := by
  unfold gapDue
  rw [gap]
  cases s.player.state <;> rfl

theorem fermataBackDue_of_state (fermata : s.player.state ≠ .FERMATA) : fermataBackDue s = false := by
  cases due : fermataBackDue s with
  | false => rfl
  | true => exact absurd (fermataBackDue_spec due).1 fermata

theorem fermataBackDue_of_cued {f : FermataRecord} (fermata : s.player.fermata = some f) (cued : f.kind = .CUED) :
    fermataBackDue s = false := by
  unfold fermataBackDue
  rw [fermata]
  cases s.player.state <;> simp [cued]

theorem fermataDue_of_outside (outside : inSection s.player = false) : fermataDue s = none := by
  simp [fermataDue, outside]

theorem sectionEndDue_of_outside (outside : inSection s.player = false) : sectionEndDue s = false := by
  simp [sectionEndDue, outside]

/-- With no cued wait nothing follows in a section state but a fermata or the section end (R100). -/
theorem nextAtOnce_of_nothingDue (within : inSection s.player = true) (nothing : NothingDue s) : nextAtOnce s = none := by
  obtain ⟨noWait, fermata, section_⟩ := nothing
  have states := (inSection_iff _).mp within
  have elsewhere : s.player.state ≠ .ENDING ∧ s.player.state ≠ .STOPPING ∧ s.player.state ≠ .GAP
      ∧ s.player.state ≠ .FERMATA := by
    obtain state | state | state := states <;> simp [state]
  obtain ⟨ending, stopping, gap, inFermata⟩ := elsewhere
  exact nextAtOnce_eq_none (idleDue_of_state ending stopping) (fun w stands => absurd (noWait.symm.trans stands) nofun)
    (gapDue_of_state gap) (fermataBackDue_of_state inFermata) fermata section_

/-! ### The keys renewed (R145) -/

/-- A read of cells whose contents are changed, the default staying. -/
theorem readCells_mapValue {β : Type} {d : β} {g : β → β} (default : g d = d) (l : List (Nat × β)) (k : Nat) :
    readCells d (l.map (fun c => (c.1, g c.2))) k = g (readCells d l k) := by
  induction l with
  | nil => exact default.symm
  | cons c rest ih =>
    simp only [List.map_cons, readCells, ih]
    split
    · exact default.symm
    · split <;> rfl

/-- A key entry with its cipher deadline renewed, when the key is down. -/
def renewed (deadline : Time) (e : KeyEntry) : KeyEntry :=
  if e.holders.isEmpty then e else { e with deadline := deadline }

theorem keyEntry_renewKeys (deadline : Time) (m : SoundingMap) (d : Division) (k : Nat) :
    keyEntry (renewKeys deadline m) d k = renewed deadline (keyEntry m d k) := by
  have cells : m.keys.cells.map (fun c => if c.2.holders.isEmpty then c else (c.1, { c.2 with deadline := deadline }))
      = m.keys.cells.map (fun c => (c.1, renewed deadline c.2)) := by
    refine List.map_congr_left fun c _ => ?_
    unfold renewed
    split <;> rfl
  unfold keyEntry renewKeys Table.get
  dsimp only
  rw [cells, readCells_mapValue rfl]

theorem renewed_holders (deadline : Time) (e : KeyEntry) : (renewed deadline e).holders = e.holders := by
  unfold renewed
  split <;> rfl

theorem renewed_deadline {deadline : Time} {e : KeyEntry} (down : (!e.holders.isEmpty) = true) :
    (renewed deadline e).deadline = deadline := by
  unfold renewed
  rw [if_neg (by simpa using down)]

/-! ### The entry to a CUED fermata (R104, R107) -/

theorem due_timePlus {n : Int} {u : State} (low : 0 < n) (high : n < 2147483648) : due u (timePlus u.now n) = false := by
  have ahead : later (timePlus u.now n) u.now = true := by
    rw [← timePlus_zero u.now, timePlus_timePlus, later_timePlus _ (by omega) (by omega)]
    exact decide_eq_true (by omega)
  rw [Bool.eq_false_iff, ne_eq, due_iff, ahead]
  nofun

/-- Settles O45: the entry to the fermata, behind which nothing follows at once. -/
theorem cuedFermataBeginsItsWait : Obligations.CuedFermataBeginsItsWait := by
  intro dt w f s live due_ held cued now hold positive cap
  have bound : hold < 2147483648 := by
    have : hold ≤ s.params.fermataCap := min_le_right _ _
    omega
  let t := enterFermata w f (elapse dt s)
  let record : FermataRecord :=
    { step := w, kind := .CUED, sound := now, hold := hold, back := timePlus now (hold + s.params.breath) }
  have entered : t = beginWait .fermata (resumePosition (elapse dt s) w.sec) hold
      { elapse dt s with
        player := { s.player with state := .FERMATA, fermata := some record },
        map := renewKeys (timePlus now s.params.cipherLimit) s.map } := by
    show enterFermata w f (elapse dt s) = _
    unfold enterFermata
    rw [cued]
    rfl
  have rests : nextAtOnce t = none := by
    rw [entered]
    refine nextAtOnce_eq_none (idleDue_of_state nofun nofun) (fun x stands => ?_) (gapDue_of_state nofun)
      (fermataBackDue_of_cued (f := record) rfl rfl) (fermataDue_of_outside rfl) (sectionEndDue_of_outside rfl)
    cases stands
    exact ⟨fun _ => due_timePlus positive bound, nofun⟩
  have acts : fermataNow (elapse dt s) = t := by
    unfold fermataNow
    rw [due_]
    dsimp only
    rw [held]
    exact follows_of_none rests
  refine ⟨t, (onService_live dt fermataNow s live).trans (congrArg _ acts), ?_⟩
  rw [entered]
  refine ⟨rfl, rfl, ⟨record, rfl, rfl, rfl, rfl, rfl⟩, ⟨_, rfl, rfl, rfl, rfl⟩, fun d k => ?_, fun d k down => ?_,
    rfl, rfl, rfl, rfl, rfl, rfl, rfl, rfl, rfl⟩
  · exact (congrArg KeyEntry.holders (keyEntry_renewKeys _ s.map d k)).trans (renewed_holders _ _)
  · exact (congrArg KeyEntry.deadline (keyEntry_renewKeys _ s.map d k)).trans (renewed_deadline down)

end Sys2Proof.Proofs
end

section
/-! PROOFS. The Lookahead Window in one event: the entries, the one look and the departures (O43, O44). -/

namespace Sys2Proof.Proofs

open Sys2Proof.Machine Sys2Proof.Laws Sys2Proof.Claims

variable {s : State}

/-! ### What a held step keeps (R96, R97) -/

/-- The step `x` of the window as it stands later on, as `y`: with the fields it was read with and the release that
is decided for it, and unreleased while none is. -/
structure StillHeld (x y : WindowStep) : Prop where
  fields : stepFields y = stepFields x
  release : y.release = x.release
  unreleased : x.release = none → x.released = false → y.released = false

theorem StillHeld.refl (x : WindowStep) : StillHeld x x := ⟨rfl, rfl, fun _ => id⟩

theorem StillHeld.trans {x y z : WindowStep} (first : StillHeld x y) (second : StillHeld y z) : StillHeld x z :=
  ⟨second.fields.trans first.fields, second.release.trans first.release, fun open_ unreleased =>
    second.unreleased (first.release.trans open_) (first.unreleased open_ unreleased)⟩

/-- The Player but for its window and its ties. -/
def offPlanned (p : Player) : Player := { p with window := [], tied := none }

/-- What the planning of steps leaves of the Player: each step of the window is still held, and but for the ties all
else stays. -/
structure Hands (p q : Player) : Prop where
  held : ∃ f, (∀ w, StillHeld w (f w)) ∧ q.window = p.window.map f
  rest : offPlanned q = offPlanned p

theorem Hands.refl (p : Player) : Hands p p := ⟨⟨id, StillHeld.refl, (List.map_id _).symm⟩, rfl⟩

theorem Hands.trans {p q r : Player} (first : Hands p q) (second : Hands q r) : Hands p r := by
  obtain ⟨⟨f, heldF, windowF⟩, restF⟩ := first
  obtain ⟨⟨g, heldG, windowG⟩, restG⟩ := second
  refine ⟨⟨g ∘ f, fun w => (heldF w).trans (heldG (f w)), ?_⟩, restG.trans restF⟩
  rw [windowG, windowF, List.map_map]

theorem Hands.readAhead {p q : Player} (h : Hands p q) : q.readAhead = p.readAhead := by
  show (offPlanned q).readAhead = (offPlanned p).readAhead
  rw [h.rest]

theorem Hands.fence {p q : Player} (h : Hands p q) : q.fence = p.fence := by
  show (offPlanned q).fence = (offPlanned p).fence
  rw [h.rest]

theorem hands_updateStep {f : WindowStep → WindowStep} (sec i : Nat) (p : Player) (held : ∀ w, StillHeld w (f w)) :
    Hands p (updateStep sec i f p) := by
  refine ⟨⟨fun w => if sameStep sec i w then f w else w, fun w => ?_, rfl⟩, rfl⟩
  dsimp only
  split
  · exact held w
  · exact .refl w

theorem hands_handStep (w : WindowStep) : Hands s.player (handStep w s).1.player := by
  unfold handStep
  dsimp only
  split
  · dsimp only
    rw [placeOrRefuse_player]
    have marked := hands_updateStep w.sec w.index s.player
      (f := fun x => { x with planned := true, released := x.fermata.isSome && x.release.isSome })
      fun x => ⟨rfl, rfl, fun open_ _ => by simp [open_]⟩
    exact ⟨marked.held, marked.rest⟩
  · rw [placeOrRefuse_player]
    exact .refl _

theorem hands_handIfFirst (sec i : Nat) : Hands s.player (handIfFirst sec i s).player := by
  unfold handIfFirst
  split
  · split
    · exact hands_handStep _
    · exact .refl _
  · exact .refl _

theorem extendStep_player (w : WindowStep) (e : Nat) : (extendStep w e s).player = s.player := by
  unfold extendStep
  dsimp only
  split
  · split <;> rfl
  · rfl

theorem hands_attachSuccessor (sec i : Nat) (run : Bool) : Hands s.player (attachSuccessor sec i run s).player := by
  have attached := hands_updateStep sec i s.player
    (f := fun w => { w with next := s.player.readAhead.map (fun r => ⟨r.pos, r.record.notes⟩), run := run })
    fun w => ⟨rfl, rfl, fun _ => id⟩
  unfold attachSuccessor
  dsimp only
  split
  · split
    · rw [extendStep_player]
      exact attached
    · exact attached
  · exact attached

/-! ### Reading ahead (R96, R99) -/

theorem position_le_of_readStep {st : Store} {sl : Slot} {i : Nat} {r : StepRec} (read : readStep st sl i = some r) :
    r.position ≤ 65535 := by
  unfold readStep at read
  split at read
  · cases read
  · split at read
    · split at read
      · split at read
        · split at read
          · unfold asStepFields at read
            split at read
            · split at read
              next range => cases read; exact range.1
              next => cases read
            · cases read
          · cases read
        · cases read
      · cases read
    · cases read

/-- The reading ahead leaves the Player, and what it finds is a good step at its index or behind. -/
theorem readGood_spec (n : Nat) (sl : Slot) : ∀ (left i : Nat) (run : Bool) (s : State),
    (readGood n sl left i run s).1.player = s.player
      ∧ ∀ j r, (readGood n sl left i run s).2.1 = some (j, r) → i ≤ j ∧ j < i + left ∧ r.position ≤ 65535
  | 0, _, _, _ => ⟨rfl, nofun⟩
  | left + 1, i, run, s => by
    unfold readGood
    split
    next r read =>
      refine ⟨rfl, fun j r' found => ?_⟩
      cases found
      exact ⟨le_rfl, by omega, position_le_of_readStep read⟩
    next =>
      obtain ⟨player, found⟩ := readGood_spec n sl left (i + 1) true (noteFault n i .player s)
      refine ⟨player, fun j r read => ?_⟩
      obtain ⟨low, high, position⟩ := found j r read
      exact ⟨by omega, by omega, position⟩

/-- What is read ahead of section `sec` from index `i` on is a step of that section at `i` or behind. -/
def ReadFrom (sec i : Nat) (x : Option ReadAhead) : Prop := ∀ r, x = some r → r.sec = sec ∧ i ≤ r.index ∧ r.pos ≤ 65535

theorem ReadFrom.mono {sec i j : Nat} {x : Option ReadAhead} (le : i ≤ j) (read : ReadFrom sec j x) : ReadFrom sec i x :=
  fun r held => by
    obtain ⟨same, index, pos⟩ := read r held
    exact ⟨same, by omega, pos⟩

theorem readAheadFrom_spec (sec i : Nat) (s : State) : (readAheadFrom sec i s).1.player
      = { s.player with readAhead := (readAheadFrom sec i s).1.player.readAhead }
    ∧ ReadFrom sec i (readAheadFrom sec i s).1.player.readAhead := by
  unfold readAheadFrom
  split
  next => exact ⟨rfl, nofun⟩
  next n sl _ =>
    obtain ⟨player, found⟩ := readGood_spec n sl ((sectionSteps sl.header sec).2 - i) i false s
    dsimp only
    refine ⟨by rw [player], fun r held => ?_⟩
    split at held
    next j record read =>
      cases held
      obtain ⟨low, -, position⟩ := found j record read
      exact ⟨rfl, low, by dsimp only; omega⟩
    next => cases held

/-! ### Entering (R96, R98) -/

/-- R96, R98: what an entry makes of the Player's window, the step read ahead and the fence. -/
theorem enterStep_spec (r : ReadAhead) (s : State) :
    (∃ f, (∀ w, StillHeld w (f w)) ∧ (enterStep r s).player.window = (s.player.window ++ [windowStepOf r]).map f)
      ∧ ReadFrom r.sec (r.index + 1) (enterStep r s).player.readAhead
      ∧ (enterStep r s).player.fence
          = if r.record.fermata ≠ none ∨ (enterStep r s).player.readAhead = none then .upTo ⟨r.sec, r.pos⟩
            else s.player.fence := by
  let pushed : State := { s with player := { s.player with window := s.player.window ++ [windowStepOf r] } }
  let read := readAheadFrom r.sec (r.index + 1) pushed
  let attached := attachSuccessor r.sec r.index read.2 read.1
  let fenced : State := { attached with player := { attached.player with fence := fenceAfterEntry r attached.player } }
  have entered : enterStep r s = handIfFirst r.sec r.index fenced := rfl
  obtain ⟨player, from_⟩ := readAheadFrom_spec r.sec (r.index + 1) pushed
  have attaching : Hands read.1.player attached.player := hands_attachSuccessor _ _ _
  have handing : Hands fenced.player (enterStep r s).player := by
    rw [entered]
    exact hands_handIfFirst _ _
  have ahead : (enterStep r s).player.readAhead = read.1.player.readAhead :=
    handing.readAhead.trans attaching.readAhead
  have fence : attached.player.fence = s.player.fence := by
    rw [attaching.fence, show read.1.player = _ from player]
  refine ⟨?_, ?_, ?_⟩
  · obtain ⟨f, heldF, windowF⟩ := attaching.held
    obtain ⟨g, heldG, windowG⟩ := handing.held
    refine ⟨g ∘ f, fun w => (heldF w).trans (heldG (f w)), ?_⟩
    rw [windowG, show fenced.player.window = attached.player.window from rfl, windowF, List.map_map,
      show read.1.player = _ from player]
  · rw [ahead]
    exact from_
  · rw [handing.fence, ahead]
    show fenceAfterEntry r attached.player = _
    unfold fenceAfterEntry
    rw [attaching.readAhead, fence]
    simp [Option.isSome_iff_ne_none, Option.isNone_iff_eq_none]

theorem enterStep_length (r : ReadAhead) (s : State) :
    (enterStep r s).player.window.length = s.player.window.length + 1 := by
  obtain ⟨⟨f, -, window⟩, -⟩ := enterStep_spec r s
  simp [window]

/-- The steps of the window keep the fields they were read with, and the entering one joins them. -/
theorem enterStep_fields (r : ReadAhead) (s : State) :
    (enterStep r s).player.window.map stepFields = s.player.window.map stepFields ++ [aheadFields r] := by
  obtain ⟨⟨f, held, window⟩, -⟩ := enterStep_spec r s
  rw [window, List.map_map, show stepFields ∘ f = stepFields from funext fun w => (held w).fields]
  simp
  rfl

/-! ### What an event admits (R96) -/

theorem entryDue_spec {r : ReadAhead} (due_ : entryDue s = some r) : s.player.readAhead = some r
    ∧ s.player.window.length < 16 ∧ fenceAdmits s.player.fence ⟨r.sec, r.pos⟩ = true
    ∧ due s (predict s.follow ((r.pos : Int) - s.params.horizon)) = true := by
  unfold entryDue at due_
  split at due_
  next => cases due_
  next x ahead =>
    rw [Option.ite_none_right_eq_some] at due_
    obtain ⟨⟨room, admits, arrived_⟩, same⟩ := due_
    cases same
    exact ⟨ahead, room, admits, arrived_⟩

theorem entryDue_eq_some {r : ReadAhead} (ahead : s.player.readAhead = some r) (room : s.player.window.length < 16)
    (admits : fenceAdmits s.player.fence ⟨r.sec, r.pos⟩ = true)
    (arrived_ : due s (predict s.follow ((r.pos : Int) - s.params.horizon)) = true) : entryDue s = some r := by
  unfold entryDue
  rw [ahead]
  exact if_pos ⟨room, admits, arrived_⟩

/-- A shorter window lets in what a longer one lets in. -/
theorem entryDue_of_shorter {r : ReadAhead} {l : List WindowStep}
    (due_ : entryDue s = some r) (shorter : l.length ≤ s.player.window.length) :
    entryDue { s with player := { s.player with window := l } } = some r := by
  obtain ⟨ahead, room, admits, arrived_⟩ := entryDue_spec due_
  exact entryDue_eq_some (s := { s with player := { s.player with window := l } }) ahead (shorter.trans_lt room) admits arrived_

/-- The entries of an event, up to the first departure that makes room. -/
theorem enterDueSteps_of_admitted {a : State} : ∀ (k n : Nat) (s : State), AdmittedIn n s a →
    16 < s.player.window.length + k →
    ∃ j, j ≤ n ∧ AdmittedIn (n - j) (enterDueSteps k s).1 a ∧ entryDue (enterDueSteps k s).1 = none
      ∧ (enterDueSteps k s).2 = decide (0 < j)
  | 0, n, s, admitted, full => by
    refine ⟨0, Nat.zero_le n, admitted, ?_, rfl⟩
    cases due_ : entryDue s with
    | none => exact due_
    | some r =>
      obtain ⟨-, room, -⟩ := entryDue_spec due_
      omega
  | k + 1, n, s, admitted, full => by
    unfold enterDueSteps
    cases due_ : entryDue s with
    | none => exact ⟨0, Nat.zero_le n, admitted, due_, rfl⟩
    | some r =>
      cases n with
      | zero =>
        obtain ⟨-, none_, -⟩ := admitted
        cases due_.symm.trans none_
      | succ m =>
        have entering : AdmittedIn m (enterStep r s) a := by
          obtain ⟨x, due', further⟩ | ⟨none_, -⟩ := admitted
          · cases due_.symm.trans due'
            exact further
          · cases due_.symm.trans none_
        obtain ⟨j, le, further, rests, entered⟩ := enterDueSteps_of_admitted k m (enterStep r s) entering
          (by rw [enterStep_length]; omega)
        exact ⟨j + 1, by omega, by rwa [Nat.add_sub_add_right], rests, by simp⟩

/-- What an event admits is what the admission of steps makes, and it tells whether a step has entered. -/
theorem admitSteps_of_admitted {a : State} : ∀ (m n : Nat) (s : State), AdmittedIn n s a → n < m →
    admitSteps m s = (a, decide (0 < n))
  | 0, _, _, _, below => absurd below (Nat.not_lt_zero _)
  | m + 1, n, s, admitted, below => by
    obtain ⟨j, le, further, rests, entered⟩ := enterDueSteps_of_admitted (Config.windowPlaces + 1) n s admitted
      (by show 16 < _ + 17; omega)
    unfold admitSteps
    dsimp only
    obtain ⟨q, left⟩ : ∃ q, n - j = q := ⟨_, rfl⟩
    rw [left] at further
    cases q with
    | zero =>
      obtain ⟨same, -, freed⟩ := further
      rw [freed]
      simp only [Option.isSome_none, Bool.false_eq_true, if_false]
      exact Prod.ext same.symm (entered.trans (by congr 1; exact propext (by omega)))
    | succ q =>
      obtain ⟨r, due_, -⟩ | ⟨-, freed, further⟩ := further
      · cases rests.symm.trans due_
      · rw [if_pos freed, admitSteps_of_admitted m q _ further (by omega)]
        exact Prod.ext rfl (by simp; omega)

/-- A settling whose look leaves no window to be decided at once. -/
theorem settle_eq {a : State} {b : Bool} (admits : admitSteps Config.cascadeBound s = (a, b))
    (quiet : atOnce (lookForWindow b a).1 (lookForWindow b a).2 = none) :
    settle s = leaveWindow (lookForWindow b a).1 := by
  unfold settle Config.cascadeBound progress
  rw [admits]
  dsimp only
  rw [quiet]

/-- A settling whose look leaves the part as `t`, where no window is to be decided at once. -/
theorem settle_quiet {b : Bool} {t : State}
    (looks : lookForWindow (admitSteps Config.cascadeBound s).2 (admitSteps Config.cascadeBound s).1 = (t, b))
    (quiet : atOnce t b = none) : settle s = leaveWindow t := by
  have settled := settle_eq (s := s) (Prod.mk.eta (p := admitSteps Config.cascadeBound s)).symm
  rw [looks] at settled
  exact settled quiet

theorem atOnce_eq_none (quiet : ∀ m, s.follow.window = some m → later m.decides s.now = true) (fresh : Bool) :
    atOnce s fresh = none := by
  unfold atOnce
  split
  · split
    next m stands =>
      refine if_neg fun due_ => ?_
      rw [due_iff, quiet m stands] at due_
      cases due_
    · rfl
  · rfl

theorem lookForWindow_of_standing {m : MatchWindow} (stands : s.follow.window = some m) (fresh : Bool)
    (stays : m.phase ≠ .PENDING ∨ fresh = false) : lookForWindow fresh s = (s, false) := by
  unfold lookForWindow
  rw [stands]
  refine if_neg fun again => ?_
  rw [Bool.and_eq_true, beq_iff_eq] at again
  obtain ⟨entered, pending⟩ := again
  obtain other | old := stays
  · exact other pending
  · exact absurd (old.symm.trans entered) nofun

/-! ### The one look (R65, R68) -/

/-- The looking for a window writes the window, the previous used follow point and the cursor alone. -/
structure OnlySeeks (s t : State) : Prop where
  eq : t = { s with follow := { s.follow with
    window := t.follow.window, prevUsed := t.follow.prevUsed, cursor := t.follow.cursor } }

theorem OnlySeeks.refl (s : State) : OnlySeeks s s := ⟨rfl⟩

theorem OnlySeeks.trans {s t u : State} (first : OnlySeeks s t) (second : OnlySeeks t u) : OnlySeeks s u := by
  obtain ⟨w, p, c, rfl⟩ : ∃ w p c, t = { s with follow := { s.follow with window := w, prevUsed := p, cursor := c } } :=
    ⟨_, _, _, first.eq⟩
  exact ⟨second.eq⟩

theorem onlySeeks_seek : ∀ (n : Nat) (s : State), OnlySeeks s (seek n s)
  | 0, s => .refl s
  | n + 1, s => by
    unfold seek
    split
    · exact .refl s
    · split
      · exact .refl s
      · dsimp only
        split
        · exact OnlySeeks.trans ⟨rfl⟩ (onlySeeks_seek n _)
        · exact ⟨rfl⟩

theorem onlySeeks_seekWindow (s : State) : OnlySeeks s (seekWindow s) := onlySeeks_seek _ s

theorem onlySeeks_recompute (s : State) : OnlySeeks s (recompute s) := by
  unfold recompute
  split
  · exact .refl s
  · split
    · exact .refl s
    · split
      · exact ⟨rfl⟩
      · exact OnlySeeks.trans ⟨rfl⟩ (onlySeeks_seekWindow _)

theorem onlySeeks_lookForWindow (again : Bool) (s : State) : OnlySeeks s (lookForWindow again s).1 := by
  unfold lookForWindow
  split
  · exact onlySeeks_seekWindow s
  · split
    · exact onlySeeks_recompute s
    · exact .refl s

theorem OnlySeeks.now {s t : State} (h : OnlySeeks s t) : t.now = s.now := by rw [h.eq]

theorem eventLooksOnce : EventLooksOnce := by
  intro n s a few admitted looked quiet
  have admits := admitSteps_of_admitted Config.cascadeBound n s admitted (by show n < 4096; omega)
  have now_ : a.now = s.now := by
    have frame := (still_admitSteps Config.cascadeBound s).frame.now
    rwa [admits] at frame
  have look : (lookForWindow (decide (0 < n)) a).1 = looked := by
    cases held : a.follow.window with
    | none => simp only [lookForWindow, looked, held]
    | some m =>
      have same : (decide (0 < n) && m.phase == .PENDING) = true ↔ m.phase = .PENDING ∧ 0 < n := by
        rw [Bool.and_eq_true, decide_eq_true_eq, beq_iff_eq, and_comm]
      simp only [lookForWindow, looked, held, same]
      split <;> rfl
  have rests : atOnce (lookForWindow (decide (0 < n)) a).1 (lookForWindow (decide (0 < n)) a).2 = none := by
    obtain ⟨m, stands, stays⟩ | later_ := quiet
    · rw [lookForWindow_of_standing stands _ (stays.imp_right fun zero => by simp [zero])]
      rfl
    · refine atOnce_eq_none (fun m stands => ?_) _
      rw [look] at stands
      rw [(onlySeeks_lookForWindow _ a).now, now_]
      exact later_ m stands
  rw [settle_eq admits rests, look]
  rfl

/-! ### STEP_SOUND_TIME (R97) -/

theorem filter_not_sublist_eraseP {α : Type} (p : α → Bool) : ∀ l : List α, (l.filter (fun x => !p x)).Sublist (l.eraseP p)
  | [] => .slnil
  | x :: rest => by
    cases leaves_ : p x with
    | true =>
      rw [List.filter_cons_of_neg (by simp [leaves_]), List.eraseP_cons_of_pos leaves_]
      exact List.filter_sublist
    | false =>
      rw [List.filter_cons_of_pos (by simp [leaves_]), List.eraseP_cons_of_neg (by simp [leaves_])]
      exact (filter_not_sublist_eraseP p rest).cons_cons x

/-- Settles O44: with no entry due, before the departures or behind them, the event is its departures. -/
theorem soundedStepsLeave : Obligations.SoundedStepsLeave := by
  intro dt m s live stands now stays t some_ noEntry noEntryBehind
  have stays_eq (w : WindowStep) : stays w = !leaves now w := rfl
  have left : t = leaveWindow now := rfl
  have someLeaves_ : someLeaves now = true := by
    obtain ⟨w, member, leaves_⟩ := some_
    refine List.any_eq_true.mpr ⟨w, member, ?_⟩
    rw [stays_eq] at leaves_
    simpa using leaves_
  have freed : entryDue (leaveFirst now) = none := by
    cases due_ : entryDue (leaveFirst now) with
    | none => rfl
    | some r =>
      have shorter := (filter_not_sublist_eraseP (leaves now) s.player.window).length_le
      cases (entryDue_of_shorter due_ shorter).symm.trans noEntryBehind
  have admits := admitSteps_of_admitted (a := now) Config.cascadeBound 0 now ⟨rfl, noEntry, freed⟩ (by decide)
  have looks : lookForWindow (decide (0 < 0)) now = (now, false) :=
    lookForWindow_of_standing (s := now) stands _ (.inr rfl)
  have settled : settle now = t := by
    rw [settle_eq admits (by rw [looks]; rfl), looks]
    rfl
  refine (onService_live dt leaveDue s live).trans (congrArg _ ?_)
  show leaveDue now = t
  unfold leaveDue
  rw [if_pos someLeaves_, settled]

/-! ### What holds through a settling -/

/-- What holds of the Player through the entries and the departures of an event. -/
structure Walked (P : State → Prop) : Prop where
  enter : ∀ u r, P u → entryDue u = some r → P (enterStep r u)
  leave : ∀ u l, P u → l.Sublist u.player.window → (∀ w ∈ u.player.window, leaves u w = false → w ∈ l) →
    P { u with player := { u.player with window := l } }

variable {P : State → Prop}

theorem Walked.leaveFirst (walked : Walked P) (h : P s) : P (leaveFirst s) :=
  walked.leave s _ h List.eraseP_sublist fun w member stays => by
    exact (List.mem_eraseP_of_neg (by simp [stays])).mpr member

theorem Walked.leaveWindow (walked : Walked P) (h : P s) : P (leaveWindow s) :=
  walked.leave s _ h List.filter_sublist fun w member stays => List.mem_filter.mpr ⟨member, by simp [stays]⟩

theorem Walked.enterDueSteps (walked : Walked P) : ∀ (n : Nat) (s : State), P s → P (enterDueSteps n s).1
  | 0, _, h => h
  | n + 1, s, h => by
    unfold Machine.enterDueSteps
    split
    next r due_ => exact walked.enterDueSteps n _ (walked.enter s r h due_)
    next => exact h

theorem Walked.admitSteps (walked : Walked P) : ∀ (n : Nat) (s : State), P s → P (admitSteps n s).1
  | 0, _, h => h
  | n + 1, s, h => by
    have entered := walked.enterDueSteps (Config.windowPlaces + 1) s h
    unfold Machine.admitSteps
    dsimp only
    split
    · exact walked.admitSteps n _ (walked.leaveFirst entered)
    · exact entered

/-- With a step due to enter, what holds behind its entry holds behind the admission. -/
theorem Walked.admitSteps_of_entry (walked : Walked P) {r : ReadAhead} (due_ : entryDue s = some r)
    (h : P (enterStep r s)) (n : Nat) : P (Machine.admitSteps (n + 1) s).1 := by
  have entered : P (Machine.enterDueSteps (Config.windowPlaces + 1) s).1 := by
    unfold Machine.enterDueSteps
    rw [due_]
    exact walked.enterDueSteps _ _ h
  unfold Machine.admitSteps
  dsimp only
  split
  · exact walked.admitSteps n _ (walked.leaveFirst entered)
  · exact entered

theorem decisionFlags_player (m : MatchWindow) (hit : Option Onset) (c : Correction) (found : Bool) :
    (decisionFlags m hit c found s).player = s.player := by
  unfold decisionFlags
  dsimp only
  cases c.bound <;> cases hit <;> cases found <;> rfl

/-- The part once window `m` is decided, before the lost time is judged (R69 to R78). -/
def decidedBeforeLost (m : MatchWindow) (s : State) : State :=
  let r := followAfterDecision s m
  decisionFlags m r.2.2.1 r.2.1 (s.follow.state == .COAST && r.1.state == .TRACK && s.follow.lost)
    (setOnsets (s.listen.queue.filter (fun o => later o.time m.closes)) { s with follow := r.1 })

theorem decideWindow_eq (m : MatchWindow) (s : State) :
    decideWindow m s = (checkLost (decidedBeforeLost m s), changed s.follow (followAfterDecision s m).1) := rfl

theorem decidedBeforeLost_player (m : MatchWindow) (s : State) : (decidedBeforeLost m s).player = s.player := by
  unfold decidedBeforeLost
  dsimp only
  rw [decisionFlags_player, setOnsets_player]

theorem still_decidedBeforeLost (m : MatchWindow) (s : State) : Still s (decidedBeforeLost m s) :=
  ((still_follow s _).trans (still_setOnsets _ _)).trans (still_decisionFlags _ m _ _ _)

/-- The lost time changes of the Player what the end of a verse changes, under FINISH_VERSE alone. -/
theorem checkLost_player (s : State) : (checkLost s).player = s.player
    ∨ (s.params.finishVerse = true ∧ ∃ u, u.player = s.player ∧ (checkLost s).player = (finishVerse u).player) := by
  unfold checkLost loseChoir
  split
  · dsimp only
    split
    next policy => exact .inr ⟨policy, raise (.choirLost s.follow.lastMatch s.follow.anchor)
      { s with follow := { s.follow with lost := true } }, rfl, rfl⟩
    next => exact .inl rfl
  · exact .inl rfl

/-- What holds of the Player through its walking, and through the end of a verse under FINISH_VERSE, holds through a
whole event. -/
theorem progress_keeps {P : Player → Prop} {p : Params} (walked : Walked fun u => P u.player)
    (finish : p.finishVerse = true → ∀ u, P u.player → P (finishVerse u).player) :
    ∀ (n : Nat) (s : State), s.params = p → P (admitSteps Config.cascadeBound s).1.player → (n = 0 → P s.player) →
      P (progress n s).player
  | 0, _, _, _, h => h rfl
  | n + 1, s, same, admitted, _ => by
    unfold progress
    dsimp only
    generalize look : lookForWindow (admitSteps Config.cascadeBound s).2 (admitSteps Config.cascadeBound s).1 = l
    have seeks : OnlySeeks (admitSteps Config.cascadeBound s).1 l.1 := look ▸ onlySeeks_lookForWindow _ _
    have looked : P l.1.player := by
      rw [seeks.eq]
      exact admitted
    split
    next m _ =>
      have params : (decideWindow m l.1).1.params = p := by
        rw [(still_decideWindow l.1 m).frame.params, seeks.eq]
        exact ((still_admitSteps Config.cascadeBound s).frame.params).trans same
      have before : (decidedBeforeLost m l.1).params = p := by
        rw [(still_decidedBeforeLost m l.1).frame.params, seeks.eq]
        exact ((still_admitSteps Config.cascadeBound s).frame.params).trans same
      have decided : P (decideWindow m l.1).1.player := by
        rw [decideWindow_eq]
        obtain unchanged | ⟨policy, u, standing, ended⟩ := checkLost_player (decidedBeforeLost m l.1)
        · dsimp only
          rwa [unchanged, decidedBeforeLost_player]
        · dsimp only
          rw [ended]
          refine finish (before ▸ policy) u ?_
          rwa [standing, decidedBeforeLost_player]
      have known (u : State) (standing : u.player = (decideWindow m l.1).1.player) (params' : u.params = p) :
          P (progress n u).player := by
        have h : P u.player := standing ▸ decided
        exact progress_keeps walked finish n u params' (walked.admitSteps _ u h) fun _ => h
      split
      · exact known _ rfl params
      · exact known _ rfl params
    next => exact walked.leaveWindow looked

theorem settle_keeps {P : Player → Prop} (walked : Walked fun u => P u.player)
    (finish : s.params.finishVerse = true → ∀ u, P u.player → P (finishVerse u).player) (h : P s.player) :
    P (settle s).player :=
  progress_keeps walked finish _ s rfl (walked.admitSteps _ s h) fun _ => h

theorem settle_keeps_of_entry {P : Player → Prop} {r : ReadAhead} (walked : Walked fun u => P u.player)
    (finish : s.params.finishVerse = true → ∀ u, P u.player → P (finishVerse u).player)
    (due_ : entryDue s = some r) (h : P (enterStep r s).player) : P (settle s).player := by
  have admitted : P (admitSteps Config.cascadeBound s).1.player := walked.admitSteps_of_entry due_ h 4095
  exact progress_keeps walked finish _ s rfl admitted nofun

/-! ### The end of a verse (R112, R131) -/

theorem planSteps_readAhead : ∀ (n : Nat) (s : State), (planSteps n s).player.readAhead = s.player.readAhead
  | 0, _ => rfl
  | n + 1, s => by
    unfold planSteps
    split
    · rfl
    · dsimp only
      split
      · exact (planSteps_readAhead n _).trans (hands_handStep _).readAhead
      · exact (hands_handStep _).readAhead

theorem handRelease_readAhead (q : ReleaseRequest) (s : State) :
    (handRelease q s).1.player.readAhead = s.player.readAhead := by
  unfold handRelease
  dsimp only
  split
  · show (placeOrRefuse s q.sec q.index _).1.player.readAhead = _
    rw [placeOrRefuse_player]
  · rw [placeOrRefuse_player]

theorem handReleases_readAhead : ∀ (qs : List ReleaseRequest) (s : State),
    (handReleases qs s).1.player.readAhead = s.player.readAhead
  | [], _ => rfl
  | q :: rest, s => by
    unfold handReleases
    dsimp only
    split
    · exact (handReleases_readAhead rest _).trans (handRelease_readAhead q s)
    · exact handRelease_readAhead q s

theorem placesFreed_readAhead (s : State) : (placesFreed s).player.readAhead = s.player.readAhead := by
  have again (u : State) (same : u.player = s.player) :
      (handReleases u.player.releases u).1.player.readAhead = s.player.readAhead :=
    (handReleases_readAhead _ u).trans (congrArg Player.readAhead same)
  unfold placesFreed
  dsimp only
  split <;> split
  · exact (planSteps_readAhead _ _).trans (again _ rfl)
  · exact again _ rfl
  · exact (planSteps_readAhead _ _).trans (again _ rfl)
  · exact again _ rfl

theorem dropAmen_readAhead (s : State) : (dropAmen s).player.readAhead = none := placesFreed_readAhead _

theorem idleIfDone_readAhead {s : State} (none_ : s.player.readAhead = none) :
    (idleIfDone s).player.readAhead = none := by
  unfold idleIfDone
  split
  · obtain ⟨_, _, idle⟩ := becomeIdle_eq s
    rw [idle]
    rfl
  · exact none_

/-- The end of a verse leaves the step read ahead, or takes it away. -/
theorem finishVerse_readAhead (s : State) : (finishVerse s).player.readAhead = s.player.readAhead
    ∨ (finishVerse s).player.readAhead = none := by
  unfold finishVerse
  split
  · exact .inl rfl
  · unfold endOfVerse
    dsimp only
    split
    · exact .inl rfl
    · split
      · exact .inl rfl
      · split
        · exact .inr (idleIfDone_readAhead (dropAmen_readAhead _))
        · exact .inl rfl

/-! ### STEP_ENTRY (R96, R98) -/

theorem walked_readFrom (sec i : Nat) : Walked fun u => ReadFrom sec i u.player.readAhead where
  enter u r from_ due_ := by
    obtain ⟨same, index, -⟩ := from_ r (entryDue_spec due_).1
    obtain ⟨-, ahead, -⟩ := enterStep_spec r u
    exact same ▸ ahead.mono (by omega)
  leave _ _ from_ _ _ := from_

/-- What the entering step has, it has for good while its sound time is to come: nothing moves the anchor. -/
def Entered (f : Follow) (now : Time) (r : ReadAhead) (u : State) : Prop :=
  u.follow = f ∧ u.now = now ∧ ∃ w ∈ u.player.window, stepFields w = aheadFields r ∧ w.release = none

theorem soundArrived_of_later {u : State} {w : WindowStep} (open_ : w.release = none) (sec : w.sec = u.follow.anchor.sec)
    (ahead : later (predict u.follow w.pos) u.now = true) : soundArrived u w = false := by
  unfold soundArrived
  rw [if_neg (by simp [open_]), if_pos sec, Bool.eq_false_iff, ne_eq, due_iff, ahead]
  nofun

theorem walked_entered {f : Follow} {now : Time} {r : ReadAhead} (sec : r.sec = f.anchor.sec)
    (ahead : later (predict f r.pos) now = true) : Walked (Entered f now r) where
  enter u x entered due_ := by
    obtain ⟨follow, time, w, member, fields, open_⟩ := entered
    obtain ⟨⟨g, held, window⟩, -⟩ := enterStep_spec x u
    refine ⟨(walks_enterStep x).follow.trans follow, (still_enterStep u x).frame.now.trans time, g w, ?_,
      (held w).fields.trans fields, (held w).release.trans open_⟩
    rw [window]
    exact List.mem_map_of_mem (List.mem_append_left _ member)
  leave u l entered _ kept := by
    obtain ⟨follow, time, w, member, fields, open_⟩ := entered
    refine ⟨follow, time, w, kept w member ?_, fields, open_⟩
    have pos : w.sec = r.sec ∧ w.pos = r.pos := by
      simp only [stepFields, aheadFields, Prod.mk.injEq, HymnPos.mk.injEq] at fields
      exact fields.1
    have stays : soundArrived u w = false :=
      soundArrived_of_later open_ (by rw [follow, pos.1, sec]) (by rw [follow, time, pos.2]; exact ahead)
    simp [leaves, stays]

theorem entered_enterStep (r : ReadAhead) (s : State) : Entered s.follow s.now r (enterStep r s) := by
  obtain ⟨⟨g, held, window⟩, -⟩ := enterStep_spec r s
  refine ⟨(walks_enterStep r).follow, (still_enterStep s r).frame.now, g (windowStepOf r), ?_, (held _).fields,
    (held _).release⟩
  rw [window]
  exact List.mem_map_of_mem (List.mem_append_right _ (List.mem_singleton.mpr rfl))

/-- In the introduction no step may be used as a follow point (R64). -/
theorem seekWindow_of_intro {u : State} (intro_ : ∀ w ∈ u.player.window, w.sec = 0) : seekWindow u = u := by
  have unused : u.player.window.find? (usable u) = none := by
    refine List.find?_eq_none.mpr fun w member usable_ => ?_
    simp [usable, followStep, intro_ w member] at usable_
  unfold seekWindow Config.windowPlaces seek
  rw [unused]
  exact ite_self _

theorem walked_intro : Walked fun u => (∀ w ∈ u.player.window, w.sec = 0) ∧ ∀ r, u.player.readAhead = some r → r.sec = 0 where
  enter u r intro_ due_ := by
    obtain ⟨window, ahead⟩ := intro_
    have sec := ahead r (entryDue_spec due_).1
    obtain ⟨⟨g, held, entered⟩, next, -⟩ := enterStep_spec r u
    refine ⟨fun w member => ?_, fun x read => (next x read).1.trans sec⟩
    rw [entered] at member
    obtain ⟨y, old, rfl⟩ := List.mem_map.mp member
    have same : (g y).sec = y.sec := congrArg (fun f => f.1.sec) (held y).fields
    rw [same]
    obtain before | new := List.mem_append.mp old
    · exact window y before
    · rw [List.mem_singleton.mp new]
      exact sec
  leave u l intro_ sub _ := ⟨fun w member => intro_.1 w (sub.subset member), intro_.2⟩

/-- Settles O43: the entry puts the step into the window, and through the rest of the event it stays there. -/
theorem stepEntryEntersTheWindow : Obligations.StepEntryEntersTheWindow := by
  have settles (dt : Nat) (s : State) (live : InService s) (due_ : (entryDue (elapse dt s)).isSome = true) :
      exec (.stepEntry dt) s = .next (settle (elapse dt s)) :=
    (onService_live dt enterDue s live).trans (congrArg _ (if_pos due_))
  refine ⟨fun dt r s live due_ => ?_, fun r s => ⟨enterStep_fields r s, ?_, ?_, ?_⟩, settles, eventLooksOnce⟩
  · have still := still_settle (elapse dt s)
    refine ⟨_, settles dt s live (by rw [due_]; rfl), fun r' ahead => ?_, still.map, still.frame.leak,
      fun stands sec later_ => ?_⟩
    · have from_ : ReadFrom r.sec (r.index + 1) (settle (elapse dt s)).player.readAhead :=
        settle_keeps_of_entry (P := fun p => ReadFrom r.sec (r.index + 1) p.readAhead)
          (walked_readFrom _ _) (fun _ u h => by
            obtain same | gone := finishVerse_readAhead u
            · rwa [same]
            · rw [gone]
              nofun) due_ (enterStep_spec r _).2.1
      obtain ⟨same, index, -⟩ := from_ r' ahead
      exact ⟨same, by omega⟩
    · have entered : Entered s.follow (elapse dt s).now r (admitSteps Config.cascadeBound (elapse dt s)).1 :=
        (walked_entered sec later_).admitSteps_of_entry due_ (entered_enterStep r _) 4095
      have follow := entered.1
      have rests : settle (elapse dt s) = leaveWindow (admitSteps Config.cascadeBound (elapse dt s)).1 := by
        obtain ⟨-, m, window, phase⟩ | ⟨none_, first, intro_⟩ := stands
        · have looks := lookForWindow_of_standing (follow ▸ window) (admitSteps Config.cascadeBound (elapse dt s)).2
            (.inl phase)
          exact settle_quiet looks rfl
        · obtain ⟨introAll, -⟩ := walked_intro.admitSteps Config.cascadeBound (elapse dt s)
            ⟨intro_, fun x ahead => by
              cases ahead.symm.trans (entryDue_spec due_).1
              exact first⟩
          have looks : lookForWindow (admitSteps Config.cascadeBound (elapse dt s)).2
              (admitSteps Config.cascadeBound (elapse dt s)).1 = ((admitSteps Config.cascadeBound (elapse dt s)).1, true) := by
            unfold lookForWindow
            rw [follow, none_]
            exact Prod.ext (seekWindow_of_intro introAll) rfl
          have noWindow : atOnce (admitSteps Config.cascadeBound (elapse dt s)).1 true = none :=
            atOnce_eq_none (fun m window => by rw [follow, none_] at window; cases window) _
          exact settle_quiet looks noWindow
      rw [rests]
      obtain ⟨-, -, w, member, fields, -⟩ := (walked_entered sec later_).leaveWindow entered
      exact ⟨w, member, fields⟩
  · exact (enterStep_spec r s).2.2
  · exact (walks_enterStep r).follow
  · exact (still_enterStep s r).map

end Sys2Proof.Proofs
end

section
/-! PROOFS. The latch of a verse, the passing over, and what a registration presents (O48). -/

namespace Sys2Proof.Proofs

open Sys2Proof.Machine Sys2Proof.Laws Sys2Proof.Claims

variable {s : State}

/-! ### The reservation lost (R91, sixth effect) -/

theorem loseReservation_held {v : Nat} (held : s.player.reservation = .HELD v) : loseReservation v s
    = raise (.reservationLost v) { s with player := { s.player with reservation := .LOST } } := by
  unfold loseReservation
  rw [held]
  exact if_pos rfl

theorem loseReservation_other {v : Nat} (other : s.player.reservation ≠ .HELD v) : loseReservation v s = s := by
  unfold loseReservation
  split
  next r held =>
    refine if_neg fun same => other ?_
    rw [held, same]
  next => rfl

/-! ### Passing over (R92) -/

/-- The plan with the entries of these verses marked latched. -/
def passEntries (vs : List Nat) (pl : Plan) : Plan :=
  { pl with entries := pl.entries.map (fun e => if e.verse ∈ vs then { e with latched := true } else e) }

/-- The part with the entries of these verses marked latched, and this reservation. -/
def withPassed (vs : List Nat) (pl : Plan) (r : Reservation) (s : State) : State :=
  { s with player := { s.player with reservation := r, plan := some (passEntries vs pl) } }

theorem passOver_of_other {v : Nat} {pl : Plan} (plan : s.player.plan = some pl)
    (other : s.player.reservation ≠ .HELD v) : passOver v s = withPassed [v] pl s.player.reservation s := by
  unfold passOver
  rw [loseReservation_other (by exact other)]
  simp [withPassed, passEntries, setEntries, plan]

theorem passOver_of_held {v : Nat} {pl : Plan} (plan : s.player.plan = some pl)
    (held : s.player.reservation = .HELD v) :
    passOver v s = raise (.reservationLost v) (withPassed [v] pl .LOST s) := by
  unfold passOver
  rw [loseReservation_held (by exact held)]
  simp [withPassed, passEntries, setEntries, plan]

theorem withPassed_cons (v : Nat) (vs : List Nat) (pl : Plan) (r r' : Reservation) (s : State) :
    withPassed vs (passEntries [v] pl) r' (withPassed [v] pl r s) = withPassed (v :: vs) pl r' s := by
  have entries : passEntries vs (passEntries [v] pl) = passEntries (v :: vs) pl := by
    unfold passEntries
    rw [List.map_map]
    congr 1
    refine List.map_congr_left fun e _ => ?_
    by_cases here : e.verse = v <;> by_cases there : e.verse ∈ vs <;> simp [here, there]
  unfold withPassed
  rw [entries]

theorem withPassed_nil {pl : Plan} (plan : s.player.plan = some pl) : withPassed [] pl s.player.reservation s = s := by
  have entries : passEntries [] pl = pl := by simp [passEntries]
  unfold withPassed
  rw [entries, ← plan]

/-- R92: these verses passed over, one after the other, the reservation naming none of them. -/
theorem passOvers_of_other : ∀ (vs : List Nat) (pl : Plan) (s : State), s.player.plan = some pl →
    (∀ v ∈ vs, s.player.reservation ≠ .HELD v) →
    vs.foldl (fun acc v => passOver v acc) s = withPassed vs pl s.player.reservation s
  | [], _, _, plan, _ => (withPassed_nil plan).symm
  | v :: vs, pl, s, plan, others => by
    obtain ⟨other, rest⟩ := List.forall_mem_cons.mp others
    rw [List.foldl_cons, passOver_of_other plan other,
      passOvers_of_other vs (passEntries [v] pl) (withPassed [v] pl s.player.reservation s) rfl rest]
    exact withPassed_cons v vs pl s.player.reservation s.player.reservation s

/-- R92: these verses passed over, one after the other, a reservation that names one of them being LOST. -/
theorem passOvers_of_held : ∀ (r : Nat) (vs : List Nat) (pl : Plan) (s : State), s.player.plan = some pl →
    s.player.reservation = .HELD r → r ∈ vs →
    vs.foldl (fun acc v => passOver v acc) s = raise (.reservationLost r) (withPassed vs pl .LOST s)
  | _, [], _, _, _, _, named => absurd named List.not_mem_nil
  | r, v :: vs, pl, s, plan, held, named => by
    rw [List.foldl_cons]
    by_cases here : v = r
    · rw [here, passOver_of_held plan held, passOvers_of_other vs (passEntries [r] pl)
        (raise (.reservationLost r) (withPassed [r] pl .LOST s)) rfl (fun _ _ => nofun),
        ← withPassed_cons r vs pl .LOST .LOST s]
      rfl
    · have other : s.player.reservation ≠ .HELD v := fun same => here (by cases held.symm.trans same; rfl)
      have further : r ∈ vs := (List.mem_cons.mp named).resolve_left (Ne.symm here)
      rw [passOver_of_other plan other, passOvers_of_held r vs (passEntries [v] pl)
        (withPassed [v] pl s.player.reservation s) rfl held further, withPassed_cons]

/-- The verses of a numbered plan are distinct, so that one entry has each. -/
theorem eq_of_verse {pl : Plan} (numbered : PlanNumbered pl) {e x : PlanEntry} (he : e ∈ pl.entries) (hx : x ∈ pl.entries)
    (same : e.verse = x.verse) : e = x := by
  have distinct : (pl.entries.map (·.verse)).Nodup := by
    rw [numbered.1]
    exact List.nodup_range.map (fun a b h => Nat.succ.inj h)
  exact List.inj_on_of_nodup_map distinct he hx same

theorem mem_omitted {pl : Plan} {k v : Nat} : v ∈ omitted pl k
    ↔ ∃ e ∈ pl.entries, e.verse = v ∧ v < k ∧ e.mode = .OMIT ∧ e.latched = false := by
  simp only [omitted, List.mem_map, List.mem_filter, Bool.and_eq_true, decide_eq_true_eq, beq_iff_eq,
    Bool.not_eq_true', and_assoc]
  constructor
  · rintro ⟨e, member, below, mode, latched, rfl⟩
    exact ⟨e, member, rfl, below, mode, latched⟩
  · rintro ⟨e, member, rfl, below, mode, latched⟩
    exact ⟨e, member, below, mode, latched, rfl⟩

theorem omitted_entry {pl : Plan} (numbered : PlanNumbered pl) (k : Nat) {e : PlanEntry} (member : e ∈ pl.entries) :
    (if e.verse ∈ omitted pl k then { e with latched := true } else e)
      = if e.verse < k ∧ e.mode = .OMIT then { e with latched := true } else e := by
  by_cases latched : e.latched = true
  · have same : { e with latched := true } = e := by rw [← latched]
    rw [same, ite_self, ite_self]
  · refine if_congr ?_ rfl rfl
    rw [mem_omitted]
    constructor
    · rintro ⟨x, old, verse, below, mode, -⟩
      cases eq_of_verse numbered old member verse
      exact ⟨below, mode⟩
    · rintro ⟨below, mode⟩
      exact ⟨e, member, rfl, below, mode, by simpa using latched⟩

theorem withPassed_omitted {pl : Plan} (numbered : PlanNumbered pl) (k : Nat) (r : Reservation) (s : State) :
    withPassed (omitted pl k) pl r s = { s with player := { s.player with
      reservation := r,
      plan := some { pl with entries := pl.entries.map (fun e =>
        if e.verse < k ∧ e.mode = .OMIT then { e with latched := true } else e) } } } := by
  unfold withPassed passEntries
  rw [List.map_congr_left fun e member => omitted_entry numbered k member]

theorem passOverBelow_eq {pl : Plan} (k : Nat) (plan : s.player.plan = some pl) (numbered : PlanNumbered pl) :
    passOverBelow k s = overPassed k pl s := by
  have fold : passOverBelow k s = (omitted pl k).foldl (fun acc v => passOver v acc) s := by
    unfold passOverBelow
    rw [plan]
  rw [fold]
  cases held : s.player.reservation with
  | NONE | LOST =>
    rw [passOvers_of_other _ pl s plan (fun v _ => by rw [held]; nofun), withPassed_omitted numbered, held]
    simp only [overPassed, held]
  | HELD r =>
    by_cases named : r ∈ omitted pl k
    · rw [passOvers_of_held r _ pl s plan held named, withPassed_omitted numbered]
      simp only [overPassed, held]
      rw [if_pos (mem_omitted.mp named)]
    · rw [passOvers_of_other _ pl s plan (fun v member same => named (by cases held.symm.trans same; exact member)),
        withPassed_omitted numbered, held]
      simp only [overPassed, held]
      rw [if_neg (mt mem_omitted.mpr named)]

/-! ### The latch (R91) -/

/-- The entry of verse `v` marked as latched with registration index `i`. -/
def latchMark (v : Nat) (i : Option Nat) (x : PlanEntry) : PlanEntry :=
  if x.verse = v then { x with latched := true, recorded := i } else x

/-- The part once verse `v`, its entry being `e` of plan `pl`, is latched, before its reservation is lost. -/
def latchedPart (sec v : Nat) (e : PlanEntry) (pl : Plan) (s : State) : State :=
  let inForce := registrationFor s e
  { s with
    player := { s.player with
      registration := inForce,
      channels := (inForce.map (fun r => channelsOf r.2 e.transposition)).getD s.player.channels,
      plan := some { pl with entries := pl.entries.map (latchMark v (inForce.map (·.1))) } },
    keyline := (inForce.map (fun r => (presentRegistration sec r.2 s).keyline)).getD s.keyline }

theorem latch_eq {sec v : Nat} {e : PlanEntry} {pl : Plan} (plan : s.player.plan = some pl)
    (entry : planEntry s.player v = some e) : latch sec v s = loseReservation v (latchedPart sec v e pl s) := by
  unfold latch
  rw [entry]
  dsimp only
  unfold latchedPart
  cases force : registrationFor s e with
  | some r =>
    dsimp only [presentRegistration, setEntries]
    rw [plan]
    rfl
  | none =>
    have stands : s.player.registration = none := by
      unfold registrationFor at force
      split at force
      · cases force
      · exact force
    dsimp only [setEntries]
    rw [plan, stands]
    rfl

theorem voiceGet_channelsOf (r : Registration) (t : Int) (x : Voice) :
    voiceGet (channelsOf r t) x = ⟨voiceGet r.routing x, t⟩ := by
  cases x <;> rfl

/-! ### What a registration presents (R155) -/

theorem groupStates_lt (b : BitVec 32) (g : Nat) : groupStates b g < 256 := Nat.mod_lt _ (by decide)

theorem testBit_groupStates (b : BitVec 32) (g : Nat) {i : Nat} (small : i < 8) :
    (groupStates b g).testBit i = b.getLsbD (8 * g + i) := by
  have modulus : (256 : Nat) = 2 ^ 8 := rfl
  unfold groupStates
  rw [modulus, Nat.testBit_mod_two_pow, decide_eq_true small, Bool.true_and, ← BitVec.getLsbD,
    BitVec.getLsbD_ushiftRight]

theorem getLsbD_masked (b : BitVec 32) (n k : Nat) :
    (b &&& stopMask n).getLsbD k = (decide (k < n) && b.getLsbD k) := by
  by_cases stop : k < 32
  · exact getLsbD_stopMask b n stop
  · rw [BitVec.getLsbD_of_ge _ _ (by omega), BitVec.getLsbD_of_ge _ _ (by omega), Bool.and_false]

/-- A byte is known by its eight bits. -/
theorem eq_of_eight_bits {v w : Nat} (hv : v < 256) (hw : w < 256)
    (same : ∀ i, i < 8 → (v.testBit i = true ↔ w.testBit i = true)) : v = w := by
  refine Nat.eq_of_testBit_eq fun i => ?_
  by_cases small : i < 8
  · exact Bool.eq_iff_iff.mpr (same i small)
  · have big : 2 ^ 8 ≤ 2 ^ i := Nat.pow_le_pow_right (by decide) (by omega)
    rw [Nat.testBit_lt_two_pow (by omega), Nat.testBit_lt_two_pow (by omega)]

theorem lt_stopGroups (r : DivisionRec) (g : Nat) : g < stopGroups r ↔ r.present = true ∧ 8 * g < r.stopCount := by
  unfold stopGroups ceilDiv
  split
  next present => simp only [present, true_and]; omega
  next absent => simp [absent]

/-- The list of the targets presented is that of R155's words. -/
theorem mem_presentedTargets {o : Organ} {r : Registration} {t : Target} {v : Nat} :
    (t, some v) ∈ presentedTargets o r ↔ Presents o r t v := by
  unfold presentedTargets
  simp only [List.mem_append, List.mem_flatMap, List.mem_map, List.mem_range, List.mem_filter, mem_allDivisions,
    true_and, Prod.mk.injEq, Option.some.injEq]
  cases t with
  | keyGroup d g => simp [Presents]
  | stopGroup d g =>
    simp only [Target.stopGroup.injEq, reduceCtorEq, false_and, and_false, exists_false, or_false]
    have bit (i : Nat) (small : i < 8) :
        (groupStates ((divGet r.stops d).getD 0#32 &&& stopMask (divRec o d).stopCount) g).testBit i = true
          ↔ 8 * g + i < (divRec o d).stopCount ∧ ∃ b, divGet r.stops d = some b ∧ b.getLsbD (8 * g + i) = true := by
      rw [testBit_groupStates _ _ small, getLsbD_masked, Bool.and_eq_true, decide_eq_true_eq]
      refine and_congr_right fun _ => ?_
      cases divGet r.stops d <;> simp
    constructor
    · rintro ⟨d', g', below, ⟨rfl, rfl⟩, rfl⟩
      obtain ⟨present, stops⟩ := (lt_stopGroups _ _).mp below
      exact ⟨present, stops, groupStates_lt _ _, bit⟩
    · rintro ⟨present, stops, byte, bits⟩
      refine ⟨d, g, (lt_stopGroups _ _).mpr ⟨present, stops⟩, ⟨rfl, rfl⟩, ?_⟩
      exact eq_of_eight_bits (groupStates_lt _ _) byte fun i small => (bit i small).trans (bits i small).symm
  | expression d =>
    simp only [Target.expression.injEq, reduceCtorEq, false_and, and_false, exists_false, false_or]
    constructor
    · rintro ⟨d', has, rfl, level⟩
      obtain ⟨present, enclosed⟩ := Bool.and_eq_true_iff.mp has
      refine ⟨present, enclosed, ?_⟩
      split at level
      next n held =>
        cases level
        exact held
      next => cases level
    · rintro ⟨present, enclosed, level⟩
      exact ⟨d, Bool.and_eq_true_iff.mpr ⟨present, enclosed⟩, rfl, by rw [level]⟩

theorem nodup_presentedTargets (o : Organ) (r : Registration) : ((presentedTargets o r).map Prod.fst).Nodup := by
  have divisions : allDivisions.Nodup := by decide
  unfold presentedTargets
  rw [List.map_append, List.map_flatMap, List.map_map, List.nodup_append']
  refine ⟨List.nodup_flatMap.mpr ⟨fun d _ => ?_, ?_⟩, ?_, ?_⟩
  · rw [List.map_map]
    exact List.nodup_range.map fun a b h => by simpa using h
  · refine divisions.imp fun {d d'} other => ?_
    intro t first second
    simp only [List.map_map, List.mem_map, List.mem_range, Function.comp_apply] at first second
    obtain ⟨g, -, rfl⟩ := first
    obtain ⟨g', -, same⟩ := second
    cases same
    exact other rfl
  · exact (divisions.filter _).map fun a b h => by simpa using h
  · intro t first second
    simp only [List.mem_flatMap, List.map_map, List.mem_map, Function.comp_apply] at first second
    obtain ⟨d, -, g, -, rfl⟩ := first
    obtain ⟨d', -, same⟩ := second
    cases same

/-! ### One presented target's effect on the queue (R155) -/

section
variable {o : Organ} {m : SoundingMap} {now : Time}

/-- The entries of one target. -/
def entriesAt (t : Target) (q : List StopEntry) : List StopEntry := q.filter (fun e => e.target == t)

theorem mem_entriesAt {t : Target} {q : List StopEntry} {e : StopEntry} : e ∈ entriesAt t q ↔ e ∈ q ∧ e.target = t := by
  simp [entriesAt]

theorem entriesAt_replace {e : StopEntry} {t : Target} (other : e.target ≠ t) (q : List StopEntry) :
    entriesAt t (q.map (fun x => if x.target == e.target then e else x)) = entriesAt t q := by
  induction q with
  | nil => rfl
  | cons x rest ih =>
    simp only [entriesAt, beq_iff_eq] at ih ⊢
    by_cases here : x.target = e.target
    · simp [here, other, ih]
    · simp [here, ih, List.filter_cons]

theorem entriesAt_putEntry_other {e : StopEntry} {t : Target} (other : e.target ≠ t) (q : List StopEntry) :
    entriesAt t (putEntry e q) = entriesAt t q := by
  unfold putEntry
  split
  · exact entriesAt_replace other q
  · simp [entriesAt, other]

theorem mem_putEntry (e : StopEntry) (q : List StopEntry) : e ∈ putEntry e q := by
  unfold putEntry
  split
  next held =>
    obtain ⟨x, member, same⟩ := List.any_eq_true.mp held
    exact List.mem_map.mpr ⟨x, member, if_pos same⟩
  next => exact List.mem_append_right _ (List.mem_singleton.mpr rfl)

theorem eq_of_mem_putEntry {e x : StopEntry} {q : List StopEntry} (member : x ∈ putEntry e q)
    (same : x.target = e.target) : x = e := by
  unfold putEntry at member
  split at member
  next =>
    obtain ⟨y, -, rfl⟩ := List.mem_map.mp member
    split at same
    next here => rw [if_pos here]
    next other => exact absurd (by simpa using same) other
  next free =>
    obtain old | new := List.mem_append.mp member
    · exact absurd (List.any_eq_true.mpr ⟨x, old, by simpa using same⟩) free
    · exact List.mem_singleton.mp new

theorem presentTarget_other {q : List StopEntry} {x : Target × Option Nat} {t : Target} (other : x.1 ≠ t) :
    entriesAt t (presentTarget o m now q x) = entriesAt t q := by
  unfold presentTarget
  split
  · rfl
  · split
    · unfold entriesAt
      rw [List.filter_filter]
      refine List.filter_congr fun e _ => ?_
      by_cases here : e.target = t
      · simp [here, Ne.symm other]
      · simp [here]
    · exact entriesAt_putEntry_other other q

/-- A target that this list asks nothing of keeps its entries. -/
theorem presentTargets_other {t : Target} : ∀ (ts : List (Target × Option Nat)) (q : List StopEntry),
    (∀ v, (t, some v) ∉ ts) → entriesAt t (ts.foldl (presentTarget o m now) q) = entriesAt t q
  | [], _, _ => rfl
  | x :: ts, q, none_ => by
    rw [List.foldl_cons, presentTargets_other ts _ fun v member => none_ v (List.mem_cons_of_mem _ member)]
    by_cases here : x.1 = t
    · obtain ⟨t', asked⟩ := x
      cases here
      cases asked with
      | none => rfl
      | some v => exact absurd List.mem_cons_self (none_ v)
    · exact presentTarget_other here

theorem presentTarget_agrees {q : List StopEntry} {t : Target} {v : Nat} (agrees : v = targetState o m t) :
    entriesAt t (presentTarget o m now q (t, some v)) = [] := by
  unfold presentTarget entriesAt
  simp [agrees]

theorem presentTarget_differs {q : List StopEntry} {t : Target} {v : Nat} (differs : v ≠ targetState o m t) :
    presentTarget o m now q (t, some v) = putEntry ⟨t, v, now⟩ q := if_neg differs

/-- What the whole list makes of the entries of a target that it asks the state `v` of. -/
theorem presentTargets_asked {ts : List (Target × Option Nat)} {q : List StopEntry} {t : Target} {v : Nat}
    (once : (ts.map Prod.fst).Nodup) (asked : (t, some v) ∈ ts) :
    let q' := ts.foldl (presentTarget o m now) q
    (v = targetState o m t → ∀ e ∈ q', e.target ≠ t)
      ∧ (v ≠ targetState o m t → (⟨t, v, now⟩ : StopEntry) ∈ q' ∧ ∀ e ∈ q', e.target = t → e = ⟨t, v, now⟩) := by
  obtain ⟨before, after, rfl⟩ := List.append_of_mem asked
  have away (w : Nat) : (t, some w) ∉ after := by
    intro again
    rw [List.map_append, List.map_cons] at once
    exact (List.nodup_cons.mp (List.nodup_append.mp once).2.1).1 (List.mem_map.mpr ⟨_, again, rfl⟩)
  have entries : entriesAt t ((before ++ (t, some v) :: after).foldl (presentTarget o m now) q)
      = entriesAt t (presentTarget o m now (before.foldl (presentTarget o m now) q) (t, some v)) := by
    rw [List.foldl_append, List.foldl_cons, presentTargets_other after _ away]
  refine ⟨fun agrees e member same => ?_, fun differs => ⟨?_, fun e member same => ?_⟩⟩
  · have held := mem_entriesAt.mpr ⟨member, same⟩
    rw [entries, presentTarget_agrees agrees] at held
    cases held
  · suffices held : (⟨t, v, now⟩ : StopEntry) ∈ entriesAt t ((before ++ (t, some v) :: after).foldl (presentTarget o m now) q) from
      (mem_entriesAt.mp held).1
    rw [entries, presentTarget_differs differs]
    exact mem_entriesAt.mpr ⟨mem_putEntry _ _, rfl⟩
  · have held := mem_entriesAt.mpr ⟨member, same⟩
    rw [entries, presentTarget_differs differs] at held
    exact eq_of_mem_putEntry (mem_entriesAt.mp held).1 same

/-! ### The places of the queue (R155) -/

/-- The queue `q'` holds targets of `q` in their places, and new ones, of these targets, behind them. -/
def KeepsPlaces (ts : List Target) (q q' : List StopEntry) : Prop :=
  ∃ kept new, q'.map (·.target) = kept ++ new ∧ kept.Sublist (q.map (·.target))
    ∧ ∀ t ∈ new, t ∈ ts ∧ t ∉ q.map (·.target)

theorem keepsPlaces_presentTarget (q : List StopEntry) (x : Target × Option Nat) :
    KeepsPlaces [x.1] q (presentTarget o m now q x) := by
  have same : KeepsPlaces [x.1] q q := ⟨_, [], (List.append_nil _).symm, .refl _, fun _ h => absurd h List.not_mem_nil⟩
  unfold presentTarget
  split
  · exact same
  · split
    · exact ⟨_, [], (List.append_nil _).symm, List.filter_sublist.map _, fun _ h => absurd h List.not_mem_nil⟩
    · unfold putEntry
      split
      · refine ⟨q.map (·.target), [], ?_, .refl _, fun _ h => absurd h List.not_mem_nil⟩
        rw [List.append_nil, List.map_map]
        refine List.map_congr_left fun y _ => ?_
        by_cases here : y.target = x.1
        · simp [here]
        · simp [here]
      next free =>
        refine ⟨q.map (·.target), [x.1], by simp, .refl _, fun t member => ⟨member, ?_⟩⟩
        rw [List.mem_singleton.mp member]
        rintro held
        obtain ⟨y, old, target⟩ := List.mem_map.mp held
        exact free (List.any_eq_true.mpr ⟨y, old, by simpa using target⟩)

theorem keepsPlaces_presentTargets : ∀ (ts : List (Target × Option Nat)) (q : List StopEntry),
    (ts.map Prod.fst).Nodup → KeepsPlaces (ts.map Prod.fst) q (ts.foldl (presentTarget o m now) q)
  | [], q, _ => ⟨_, [], (List.append_nil _).symm, .refl _, fun _ h => absurd h List.not_mem_nil⟩
  | x :: ts, q, once => by
    obtain ⟨apart, rest⟩ := List.nodup_cons.mp once
    obtain ⟨kept, new, split_, sub, fresh⟩ := keepsPlaces_presentTarget (o := o) (m := m) (now := now) q x
    obtain ⟨kept', new', split', sub', fresh'⟩ := keepsPlaces_presentTargets ts (presentTarget o m now q x) rest
    rw [split_] at sub'
    obtain ⟨a, b, rfl, subA, subB⟩ := List.sublist_append_iff.mp sub'
    refine ⟨a, b ++ new', ?_, subA.trans sub, fun t member => ?_⟩
    · rw [List.foldl_cons, split', List.append_assoc]
    obtain early | late := List.mem_append.mp member
    · obtain ⟨this, absent⟩ := fresh t (subB.subset early)
      exact ⟨by rw [List.mem_singleton.mp this]; exact List.mem_cons_self, absent⟩
    · obtain ⟨asked, absent⟩ := fresh' t late
      have other : x.1 ≠ t := fun same => apart (same ▸ asked)
      refine ⟨List.mem_cons_of_mem _ asked, fun held => absent ?_⟩
      obtain ⟨e, old, rfl⟩ := List.mem_map.mp held
      have stays : e ∈ entriesAt e.target (presentTarget o m now q x) := by
        rw [presentTarget_other other]
        exact mem_entriesAt.mpr ⟨old, rfl⟩
      exact List.mem_map_of_mem (mem_entriesAt.mp stays).1

end

theorem handed_iff {o : Organ} {m : SoundingMap} {ts : List (Target × Option Nat)} :
    ts.any (handed o m) = true ↔ ∃ t v, (t, some v) ∈ ts ∧ v ≠ targetState o m t := by
  rw [List.any_eq_true]
  constructor
  · rintro ⟨⟨t, asked⟩, member, handed_⟩
    cases asked with
    | none => cases handed_
    | some v => exact ⟨t, v, member, by simpa [handed] using handed_⟩
  · rintro ⟨t, v, member, differs⟩
    exact ⟨_, member, by simpa [handed] using differs⟩

/-! ### The whole -/

/-- Settles O48: the latch and the passing over as records, and the presented targets one by one, each once. -/
theorem latchFixesTheVerse : Obligations.LatchFixesTheVerse := by
  refine ⟨fun sec v e pl s plan entry canonical => ?_, fun k pl s plan numbered => passOverBelow_eq k plan numbered,
    fun sec r s => ?_⟩
  · intro t inForce
    have same : registrationFor s e = inForce := rfl
    have latched : t = loseReservation v (latchedPart sec v e pl s) := latch_eq plan entry
    have rest : t.player.registration = inForce ∧ t.player.channels = (latchedPart sec v e pl s).player.channels
        ∧ t.player.plan = (latchedPart sec v e pl s).player.plan ∧ t.keyline = (latchedPart sec v e pl s).keyline
        ∧ t.keys = s.keys ∧ t.map = s.map ∧ t.follow = s.follow
        ∧ (s.player.reservation = .HELD v → t.player.reservation = .LOST ∧ flagUp t.flags .RESERVATION_LOST = true)
        ∧ (s.player.reservation ≠ .HELD v → t.player.reservation = s.player.reservation) := by
      by_cases held : s.player.reservation = .HELD v
      · rw [latched, loseReservation_held (by exact held)]
        exact ⟨rfl, rfl, rfl, rfl, rfl, rfl, rfl, fun _ => ⟨rfl, flagUp_raise_self _ canonical⟩,
          fun other => absurd held other⟩
      · rw [latched, loseReservation_other (by exact held)]
        exact ⟨rfl, rfl, rfl, rfl, rfl, rfl, rfl, fun named => absurd named held, fun _ => rfl⟩
    obtain ⟨registration, channels, plan', keyline, keys, map, follow, lost, stays⟩ := rest
    refine ⟨registration, fun i r force => ⟨?_, fun x => ?_⟩, fun none_ => ⟨?_, ?_⟩, ⟨_, plan', ?_⟩, lost, stays, keys,
      map, follow⟩
    · rw [keyline, latchedPart, same, force]
      rfl
    · rw [channels, latchedPart, same, force]
      exact ⟨congrArg VoiceChannel.division (voiceGet_channelsOf r e.transposition x),
        congrArg VoiceChannel.transposition (voiceGet_channelsOf r e.transposition x)⟩
    · rw [keyline, latchedPart, same, none_]
      rfl
    · rw [channels, latchedPart, same, none_]
      rfl
    · rfl
  · have once := nodup_presentedTargets s.organ r
    intro k q
    refine ⟨fun t v asks => ?_, fun agrees => ?_, rfl, fun t none_ => ?_, ?_⟩
    · have asked := mem_presentedTargets.mpr asks
      obtain ⟨agrees, differs⟩ := presentTargets_asked (m := s.map) (now := s.now) (o := s.organ)
        (q := s.keyline.stopQueue) once asked
      refine ⟨agrees, fun other => ⟨if_pos (handed_iff.mpr ⟨t, v, asked, other⟩), differs other⟩⟩
    · refine if_neg fun handed_ => ?_
      obtain ⟨t, v, asked, differs⟩ := handed_iff.mp handed_
      exact differs (agrees t v (mem_presentedTargets.mp asked))
    · exact presentTargets_other _ _ fun v asked => none_ v (mem_presentedTargets.mp asked)
    · obtain ⟨kept, new, split_, sub, fresh⟩ := keepsPlaces_presentTargets (o := s.organ) (m := s.map) (now := s.now)
        (presentedTargets s.organ r) s.keyline.stopQueue once
      refine ⟨kept, new, split_, sub, fun t member e old same => (fresh t member).2 ?_⟩
      exact List.mem_map.mpr ⟨e, old, same⟩

end Sys2Proof.Proofs
end

section
/-! PROOFS. How a hymn is stopped: STOP_HYMN of either mode, and the return to IDLE (O31, O32). -/

namespace Sys2Proof.Proofs

open Sys2Proof.Machine Sys2Proof.Laws Sys2Proof.Claims

variable {s : State}

/-! ### The held pairs released (R129) -/

theorem hasUp_iff {k : Schedule} {p : Voice × Division × Nat} :
    hasUp k p = true ↔ ∃ e ∈ k.events, e.kind = .UP ∧ e.voice = p.1 ∧ e.division = p.2.1 ∧ e.key = p.2.2 := by
  simp [hasUp, and_assoc]

theorem hasUp_of_subset {k k' : Schedule} (sub : k.events ⊆ k'.events) {p : Voice × Division × Nat}
    (up : hasUp k p = true) : hasUp k' p = true := by
  obtain ⟨e, member, same⟩ := hasUp_iff.mp up
  exact hasUp_iff.mpr ⟨e, sub member, same⟩

/-- The key-up that R129 gives a pair. -/
def IsRelease (now : Time) (p : Voice × Division × Nat) (e : KeyEvent) : Prop :=
  e.kind = .UP ∧ e.firm = true ∧ e.basis = .fixed ∧ e.time = now ∧ (e.voice, e.division, e.key) = p

theorem releasePair_spec (now : Time) (sec : Nat) (k : Schedule) (p : Voice × Division × Nat) :
    k.events ⊆ (releasePair now sec k p).events
      ∧ (∀ e ∈ (releasePair now sec k p).events, e ∈ k.events ∨ IsRelease now p e)
      ∧ (releasePair now sec k p).events.length ≤ k.events.length + 1
      ∧ (k.events.length < 256 → hasUp (releasePair now sec k p) p = true) := by
  unfold releasePair
  split
  next held =>
    refine ⟨List.Subset.refl _, fun e member => .inl member, by omega, fun room => ?_⟩
    obtain up | full := Bool.or_eq_true_iff.mp held
    · exact up
    · have none_ : 256 - k.events.length = 0 := of_decide_eq_true full
      omega
  next =>
    refine ⟨List.subset_cons_self _ _, fun e member => ?_, le_rfl, fun _ => ?_⟩
    · obtain rfl | old := List.mem_cons.mp member
      · exact .inr ⟨rfl, rfl, rfl, rfl, rfl⟩
      · exact .inl old
    · exact hasUp_iff.mpr ⟨_, List.mem_cons_self, rfl, rfl, rfl, rfl⟩

theorem releasePairs_spec (now : Time) (sec : Nat) : ∀ (ps : List (Voice × Division × Nat)) (k : Schedule),
    k.events ⊆ (ps.foldl (releasePair now sec) k).events
      ∧ (∀ e ∈ (ps.foldl (releasePair now sec) k).events, e ∈ k.events ∨ ∃ p ∈ ps, IsRelease now p e)
      ∧ (k.events.length + ps.length ≤ 256 → ∀ p ∈ ps, hasUp (ps.foldl (releasePair now sec) k) p = true)
  | [], k => ⟨List.Subset.refl _, fun _ member => .inl member, fun _ _ none_ => absurd none_ List.not_mem_nil⟩
  | p :: ps, k => by
    obtain ⟨keeps, new, length, up⟩ := releasePair_spec now sec k p
    obtain ⟨keeps', new', ups⟩ := releasePairs_spec now sec ps (releasePair now sec k p)
    refine ⟨List.Subset.trans keeps keeps', fun e member => ?_, fun room q listed => ?_⟩
    · obtain old | ⟨q, listed, released⟩ := new' e member
      · obtain older | released := new e old
        · exact .inl older
        · exact .inr ⟨p, List.mem_cons_self, released⟩
      · exact .inr ⟨q, List.mem_cons_of_mem p listed, released⟩
    · rw [List.length_cons] at room
      obtain rfl | further := List.mem_cons.mp listed
      · exact hasUp_of_subset keeps' (up (by omega))
      · exact ups (by omega) q further

/-- What a release of the held pairs makes of the schedule: what stood stays, and each pair without a key-up gets one
at now, as far as places are free. -/
theorem releaseHeld_spec (sec : Nat) (s : State) :
    s.keys.events ⊆ (releaseHeld sec s).keys.events
      ∧ (∀ e ∈ (releaseHeld sec s).keys.events, e ∈ s.keys.events ∨ ∃ p ∈ heldPairs s.map, IsRelease s.now p e)
      ∧ (s.keys.events.length + (heldPairs s.map).length ≤ 256 →
          ∀ p ∈ heldPairs s.map, hasUp (releaseHeld sec s).keys p = true)
      ∧ (releaseHeld sec s).keys.boundary = s.keys.boundary := by
  obtain ⟨keeps, new, ups⟩ := releasePairs_spec s.now sec (heldPairs s.map) s.keys
  have same (e : KeyEvent) : e ∈ (releaseHeld sec s).keys.events
      ↔ e ∈ ((heldPairs s.map).foldl (releasePair s.now sec) s.keys).events := mem_orderSchedule
  refine ⟨fun e member => (same e).mpr (keeps member), fun e member => new e ((same e).mp member),
    fun room p held => hasUp_of_subset (fun e member => (same e).mpr member) (ups room p held), ?_⟩
  exact releasePairs_boundary s.now sec (heldPairs s.map) s.keys

/-! ### The return to IDLE (R103) -/

/-- With a critical level of 2 or more no backlog is left of an empty queue (R56). -/
theorem emptyOnsets_exact (critical : 2 ≤ s.params.critical) :
    emptyOnsets s = { s with listen := { s.listen with queue := [], backlog := false } } := by
  have fill : ¬ s.params.critical ≤ 0 := by omega
  have low : 0 < s.params.critical / 2 := by omega
  unfold emptyOnsets setOnsets judgeBacklog
  cases backlog : s.listen.backlog <;> simp [fill, low, backlog]

/-- The part in IDLE after the hymn of slot `n`, tune `number` (R57, R82, R103, R157). -/
def inIdle (n number : Nat) (s : State) : State :=
  { s with
    store := setSlotState n .READY s.store,
    follow := followOff s.follow,
    player := idlePlayer s.player,
    keyline := { s.keyline with watch := none },
    listen := { s.listen with queue := [], backlog := false },
    flags := raiseFlags s.now (.hymn (if s.player.state = .STOPPING then .stopped else .ended) n number) s.flags }

theorem becomeIdle_exact {n : Nat} {sl : Slot} (slot : s.player.slot = some n) (held : slotRec s.store n = some sl)
    (critical : 2 ≤ s.params.critical) : becomeIdle s = inIdle n sl.header.number s := by
  unfold becomeIdle
  rw [emptyOnsets_exact (by exact critical), slot]
  have number : tuneNumber s.store n = sl.header.number := by
    unfold tuneNumber
    rw [held]
  unfold inIdle
  rw [Option.getD_some, number]
  rfl

theorem setSlotState_spec {st : Store} {n : Nat} {sl : Slot} (x : SlotState) (held : slotRec st n = some sl)
    (canonical : st.slots.wf none = true) :
    slotRec (setSlotState n x st) n = some { sl with state := x }
      ∧ (∀ m, m ≠ n → slotRec (setSlotState n x st) m = slotRec st m)
      ∧ setSlotState n x st = { st with slots := (setSlotState n x st).slots } := by
  have written : setSlotState n x st = { st with slots := st.slots.set none n (some { sl with state := x }) } := by
    unfold setSlotState
    rw [held]
  rw [written]
  exact ⟨Table.get_set_same _ _ canonical, fun m other => Table.get_set_other _ other canonical, rfl⟩

/-! ### STOP_HYMN of mode NOW (R113) -/

theorem answerStopNow_active (active : HymnActive s) : answerStopNow s = ⟨.OK, [], idleIfDone (stopNow s)⟩ :=
  if_neg (mt not_hymnActive_iff.mpr (not_not.mpr active))

theorem idleIfDone_of_down (down : anyDown s.map = true) : idleIfDone s = s := by
  simp [idleIfDone, idleDue, down]

theorem idleIfDone_of_events (events : s.keys.events ≠ []) : idleIfDone s = s := by
  simp [idleIfDone, idleDue, events]

/-- The part once the held pairs are released and the Player has entered STOPPING (R113). -/
theorem stopNow_spec (s : State) : ∃ b f, stopNow s = { s with
    keys := (releaseHeld (s.player.sec.getD 0) { s with keys := cancelAll s.keys }).keys,
    player := stoppingPlayer (s.player.sec.getD 0) s.player,
    follow := followOff s.follow,
    keyline := { s.keyline with watch := none },
    listen := { s.listen with queue := [], backlog := b },
    flags := f } :=
  emptyOnsets_eq _

/-- With no key down the hymn that is stopped has ended (R103). -/
theorem idleIfDone_stopNow {n : Nat} {sl : Slot} (silent : anyDown s.map = false) (slot : s.player.slot = some n)
    (held : slotRec s.store n = some sl) (critical : 2 ≤ s.params.critical) :
    idleIfDone (stopNow s) = { s with
      player := idlePlayer s.player,
      follow := followOff s.follow,
      listen := { s.listen with queue := [], backlog := false },
      keys := { s.keys with events := [] },
      keyline := { s.keyline with watch := none },
      store := setSlotState n .READY s.store,
      flags := raiseFlags s.now (.hymn .stopped n sl.header.number) s.flags } := by
  let stopping : State := { s with
    keys := cancelAll s.keys,
    player := stoppingPlayer (s.player.sec.getD 0) s.player,
    follow := followOff s.follow,
    keyline := { s.keyline with watch := none },
    listen := { s.listen with queue := [], backlog := false } }
  have stopped : stopNow s = stopping := (stopNow_of_silent silent).trans (emptyOnsets_exact (by exact critical))
  rw [stopped, idleIfDone_of_done (s := stopping) (.inr rfl) rfl silent,
    becomeIdle_exact (s := stopping) slot held critical]
  rfl

/-- Settles O32: the held pairs are released, or, with none, the hymn has ended at once. -/
theorem stopNowReleasesHeldKeys : Obligations.StopNowReleasesHeldKeys := by
  refine ⟨fun dt a tag s idle active down => ?_, fun dt a n tag sl s idle active silent slot held canonical critical => ?_,
    fun dt a tag s idle inactive => ?_⟩
  · obtain ⟨-, new, ups, -⟩ := releaseHeld_spec (s.player.sec.getD 0)
      { elapse dt s with keys := cancelAll s.keys }
    obtain ⟨b, f, stopped⟩ := stopNow_spec (withQueued (.stopHymn 1 a) tag (elapse dt s))
    have stays : idleIfDone (stopNow (withQueued (.stopHymn 1 a) tag (elapse dt s)))
        = stopNow (withQueued (.stopHymn 1 a) tag (elapse dt s)) := by
      refine idleIfDone_of_down ?_
      rw [stopped]
      exact down
    have answered : answer (.stopHymn 1 a) (withQueued (.stopHymn 1 a) tag (elapse dt s)) = ⟨.OK, [], _⟩ :=
      answerStopNow_active (s := withQueued (.stopHymn 1 a) tag (elapse dt s)) active
    rw [stays, stopped] at answered
    refine ⟨_, onService_request_answered idle answered rfl, rfl, ⟨rfl, rfl⟩, rfl, rfl, rfl, rfl, rfl, rfl, rfl, rfl, rfl,
      rfl, rfl, rfl, rfl, rfl, rfl, fun x member => ?_, fun room p pair => ?_⟩
    · obtain old | ⟨p, pair, kind, firm, basis, time, same⟩ := new x member
      · cases old
      · exact ⟨kind, firm, basis, time, same ▸ pair⟩
    · exact ups ((Nat.zero_add _).trans_le room) p pair
  · have answered : answer (.stopHymn 1 a) (withQueued (.stopHymn 1 a) tag (elapse dt s)) = ⟨.OK, [], _⟩ :=
      answerStopNow_active (s := withQueued (.stopHymn 1 a) tag (elapse dt s)) active
    rw [idleIfDone_stopNow (s := withQueued (.stopHymn 1 a) tag (elapse dt s)) silent slot held critical] at answered
    obtain ⟨ready, others, slots⟩ := setSlotState_spec .READY held canonical
    exact ⟨setSlotState n .READY s.store, onService_request_answered idle answered rfl, ready, others, slots⟩
  · exact onService_request_replied (r := .stopHymn 1 a) idle (if_pos (not_hymnActive_iff.mp inactive))

end Sys2Proof.Proofs
end

section
/-! PROOFS. The end of the verse in hand: the plan cut, and the walk ended before the Amen (O31). -/

namespace Sys2Proof.Proofs

open Sys2Proof.Machine Sys2Proof.Laws Sys2Proof.Claims

variable {s : State}

/-! ### The verse in hand (R112) -/

/-- The greatest of these verses and `v0` that is latched and not passed over. -/
theorem foldl_verse_le {v : Nat} : ∀ (es : List PlanEntry) (v0 : Nat), v0 ≤ v →
    (∀ e ∈ es, e.latched = true → e.mode ≠ .OMIT → e.verse ≤ v) →
    es.foldl (fun acc e => if e.latched ∧ e.mode ≠ .OMIT then max acc e.verse else acc) v0 ≤ v
  | [], _, le, _ => le
  | e :: es, v0, le, most => by
    rw [List.foldl_cons]
    refine foldl_verse_le es _ ?_ fun x member => most x (List.mem_cons_of_mem e member)
    split
    next good => exact max_le le (most e List.mem_cons_self good.1 good.2)
    next => exact le

theorem le_foldl_verse : ∀ (es : List PlanEntry) (v0 : Nat),
    v0 ≤ es.foldl (fun acc e => if e.latched ∧ e.mode ≠ .OMIT then max acc e.verse else acc) v0
  | [], v0 => le_rfl
  | e :: es, v0 => by
    rw [List.foldl_cons]
    refine le_trans ?_ (le_foldl_verse es _)
    split
    · exact le_max_left _ _
    · exact le_rfl

theorem verse_le_foldl {e : PlanEntry} (latched : e.latched = true) (mode : e.mode ≠ .OMIT) :
    ∀ (es : List PlanEntry) (v0 : Nat), e ∈ es →
      e.verse ≤ es.foldl (fun acc x => if x.latched ∧ x.mode ≠ .OMIT then max acc x.verse else acc) v0
  | [], _, member => absurd member List.not_mem_nil
  | x :: es, v0, member => by
    rw [List.foldl_cons]
    obtain rfl | further := List.mem_cons.mp member
    · rw [if_pos ⟨latched, mode⟩]
      exact (le_max_right v0 e.verse).trans (le_foldl_verse es _)
    · exact verse_le_foldl latched mode es _ further

theorem verseInHand_eq {pl : Plan} {v : Nat} (hand : VerseInHand pl v) : verseInHand pl = v := by
  obtain ⟨⟨e, member, rfl, latched, mode⟩, most⟩ := hand
  exact le_antisymm (foldl_verse_le pl.entries 0 (Nat.zero_le _) most)
    (verse_le_foldl latched mode pl.entries 0 member)

theorem cutPlan_eq {pl : Plan} {v : Nat} (hand : VerseInHand pl v) (drop : Bool) :
    cutPlan drop pl = cutTo v (pl.amen && !drop) pl := by
  unfold cutPlan cutTo
  rw [verseInHand_eq hand]

/-! ### END_OF_VERSE by the state of the Player (R112) -/

theorem inAmen_iff (p : Player) : inAmen p = true ↔ p.state = .AMEN ∨ (p.state = .FERMATA ∧ p.sec = some 13) := by
  simp [inAmen, Config.amenSection]

/-- The part without the Go latch and the reservation (R112). -/
def unreserved (s : State) : State := { s with player := { s.player with goLatch := false, reservation := .NONE } }

/-- The part with the plan cut (R112). -/
def cutAt (cut : Plan) (s : State) : State :=
  { s with player := { s.player with plan := some cut, goLatch := false, reservation := .NONE } }

theorem endOfVerse_inAmen (amen : inAmen s.player = true) (drop : Bool) :
    endOfVerse drop s = if drop then none else some (unreserved s) := by
  unfold endOfVerse
  exact if_pos amen

theorem endOfVerse_ending (ending : s.player.state = .ENDING) (drop : Bool) :
    endOfVerse drop s = some (unreserved s) := by
  have outside : ¬ inAmen s.player = true := by simp [inAmen, ending]
  unfold endOfVerse
  exact (if_neg outside).trans (if_pos ending)

theorem endOfVerse_keep (before : beforeAmen s.player = true) : endOfVerse false s = some (unreserved s) := by
  have gap := ((beforeAmen_iff _).mp before).1
  have outside : ¬ inAmen s.player = true := by simp [inAmen, gap]
  have open_ : ¬ s.player.state = .ENDING := by simp [gap]
  unfold endOfVerse
  exact (if_neg outside).trans ((if_neg open_).trans ((if_pos before).trans (if_neg nofun)))

theorem endOfVerse_cut {pl : Plan} {v : Nat} (cuts : VerseToCut s.player) (plan : s.player.plan = some pl)
    (hand : VerseInHand pl v) (drop : Bool) :
    endOfVerse drop s = some (cutAt (cutTo v (pl.amen && !drop) pl) s) := by
  have away : inAmen s.player = false ∧ s.player.state ≠ .ENDING ∧ beforeAmen s.player = false := by
    obtain state | state | state | ⟨state, sec⟩ | ⟨state, g, gap, next⟩ := cuts
    · simp [inAmen, beforeAmen, state]
    · simp [inAmen, beforeAmen, state]
    · simp [inAmen, beforeAmen, state]
    · simp [inAmen, beforeAmen, state, Config.amenSection, sec]
    · simp [inAmen, beforeAmen, state, gap, Config.amenSection, next]
  obtain ⟨outside, open_, elsewhere⟩ := away
  unfold endOfVerse
  dsimp only
  rw [if_neg (by simp [outside]), if_neg open_, if_neg (by simp [elsewhere]), plan, Option.map_some, cutPlan_eq hand]
  rfl

/-! ### DROP in the GAP before the Amen (R112, R131) -/

theorem beforeAmen_of_gapBeforeAmen {n : Nat} (gap : GapBeforeAmen n s.player) : beforeAmen s.player = true :=
  (beforeAmen_iff _).mpr ⟨gap.1, gap.2.1⟩

/-- The part in ENDING without the Amen, its plan cut, before the held pairs are released. -/
def droppedPlayer (n : Nat) (cut : Plan) (p : Player) : Player :=
  { p with
    plan := some cut, goLatch := false, reservation := .NONE, state := .ENDING, gap := none, wait := none,
    readAhead := none, window := p.window.filter (fun w => w.sec != 13), heldRelease := some n }

theorem planSteps_of_planned (planned : ∀ w ∈ s.player.window, w.planned = true) (n : Nat) : planSteps n s = s := by
  cases n with
  | zero => rfl
  | succ n =>
    have none_ : firstUnplanned s.player = none :=
      List.find?_eq_none.mpr fun w member => by simp [planned w member]
    unfold planSteps
    rw [none_]

/-- With every step planned and no release that waits, freed places serve the held pairs alone. -/
theorem placesFreed_of_planned {n : Nat} (held : s.player.heldRelease = some n) (releases : s.player.releases = [])
    (planned : ∀ w ∈ s.player.window, w.planned = true) : placesFreed s = releaseHeld n s := by
  have served : placesFreed s = planSteps (Config.windowPlaces + 1)
      { releaseHeld n s with player := { (releaseHeld n s).player with releases := [] } } := by
    unfold placesFreed
    rw [held]
    dsimp only
    rw [show (releaseHeld n s).player.releases = [] from releases]
    rfl
  refine served.trans ((planSteps_of_planned (by exact planned) _).trans ?_)
  have same : ({ (releaseHeld n s).player with releases := [] } : Player) = (releaseHeld n s).player := by
    rw [← show (releaseHeld n s).player.releases = [] from releases]
  rw [same]

/-- The part in ENDING without the Amen's steps and events, the held pairs released. -/
def dropped (n : Nat) (cut : Plan) (s : State) : State :=
  { s with
    player := droppedPlayer n cut s.player,
    keys := (releaseHeld n { s with keys := cancelAmen s.keys }).keys }

theorem endOfVerse_drop {pl : Plan} {v n : Nat} (gap : GapBeforeAmen n s.player) (plan : s.player.plan = some pl)
    (hand : VerseInHand pl v) : endOfVerse true s = some (idleIfDone (dropped n (cutTo v false pl) s)) := by
  have before := beforeAmen_of_gapBeforeAmen gap
  obtain ⟨state, -, sec, releases, planned⟩ := gap
  have outside : ¬ inAmen s.player = true := by simp [inAmen, state]
  have open_ : ¬ s.player.state = .ENDING := by simp [state]
  have cut := cutPlan_eq hand true
  rw [Bool.not_true, Bool.and_false] at cut
  let without : State := { s with player := droppedPlayer n (cutTo v false pl) s.player, keys := cancelAmen s.keys }
  have freed : placesFreed without = dropped n (cutTo v false pl) s := by
    refine (placesFreed_of_planned (s := without) rfl releases fun w member => ?_).trans rfl
    obtain ⟨old, other⟩ := List.mem_filter.mp member
    exact planned w old (by simpa using other)
  unfold endOfVerse
  dsimp only
  rw [if_neg outside, if_neg open_, if_pos before, if_pos rfl, plan, Option.map_some, cut, ← freed]
  have named : s.player.sec.getD 0 = n := by
    rw [sec]
    rfl
  unfold dropAmen
  dsimp only
  rw [named]
  rfl

/-- R103, R112, R131: what a DROP in the gap before the Amen makes of the part. -/
theorem walkDropped {v n : Nat} (pl : Plan) (sec : s.player.sec = some n) : WalkDropped v n pl s (idleIfDone (dropped n (cutTo v false pl) s)) := by
  have cancelled (e : KeyEvent) : e ∈ (cancelAmen s.keys).events ↔ e ∈ s.keys.events.filter (fun e => e.sec != 13) :=
    mem_orderSchedule
  obtain ⟨keeps, new, ups, boundary⟩ := releaseHeld_spec n { s with keys := cancelAmen s.keys }
  have length : (cancelAmen s.keys).events.length = (s.keys.events.filter (fun e => e.sec != 13)).length :=
    length_orderSchedule _
  have keys : (idleIfDone (dropped n (cutTo v false pl) s)).keys = (dropped n (cutTo v false pl) s).keys := by
    unfold idleIfDone
    split
    · obtain ⟨_, _, idle⟩ := becomeIdle_eq (dropped n (cutTo v false pl) s)
      rw [idle]
    · rfl
  have player : (idleIfDone (dropped n (cutTo v false pl) s)).player = (dropped n (cutTo v false pl) s).player
      ∨ (idleIfDone (dropped n (cutTo v false pl) s)).player = idlePlayer (dropped n (cutTo v false pl) s).player := by
    unfold idleIfDone
    split
    · obtain ⟨_, _, idle⟩ := becomeIdle_eq (dropped n (cutTo v false pl) s)
      exact .inr (by rw [idle])
    · exact .inl rfl
  have records : (idleIfDone (dropped n (cutTo v false pl) s)).player.plan = some (cutTo v false pl)
      ∧ (idleIfDone (dropped n (cutTo v false pl) s)).player.goLatch = false
      ∧ (idleIfDone (dropped n (cutTo v false pl) s)).player.reservation = .NONE
      ∧ (idleIfDone (dropped n (cutTo v false pl) s)).player.wait = none
      ∧ (idleIfDone (dropped n (cutTo v false pl) s)).player.gap = none
      ∧ (idleIfDone (dropped n (cutTo v false pl) s)).player.readAhead = none := by
    obtain same | idle := player
    · rw [same]
      exact ⟨rfl, rfl, rfl, rfl, rfl, rfl⟩
    · rw [idle]
      exact ⟨rfl, rfl, rfl, rfl, rfl, rfl⟩
  obtain ⟨plan, latch_, reservation, wait, gap, ahead⟩ := records
  refine ⟨plan, latch_, reservation, wait, gap, ahead, (still_idleIfDone _).map, ?_, fun x member => ?_, fun x member => ?_,
    fun room p pair => ?_, fun remains => ?_, fun none_ silent => ?_⟩
  · rw [keys]
    exact boundary
  · rw [keys]
    exact keeps ((cancelled x).mpr member)
  · rw [keys] at member
    obtain old | ⟨p, pair, kind, firm, basis, time, same⟩ := new x member
    · exact .inl ((cancelled x).mp old)
    · exact .inr ⟨kind, firm, basis, time, same ▸ pair⟩
  · rw [keys]
    exact ups (by rw [← length] at room; exact room) p pair
  · have stays : idleIfDone (dropped n (cutTo v false pl) s) = dropped n (cutTo v false pl) s := by
      obtain some_ | down := remains
      · obtain ⟨e, member⟩ := List.exists_mem_of_ne_nil _ some_
        exact idleIfDone_of_events (List.ne_nil_of_mem (keeps ((cancelled e).mpr member)))
      · exact idleIfDone_of_down down
    rw [stays]
    exact ⟨rfl, sec, rfl, rfl, rfl, rfl, rfl, rfl, rfl⟩
  · have empty : (dropped n (cutTo v false pl) s).keys.events = [] := by
      refine List.eq_nil_iff_forall_not_mem.mpr fun e member => ?_
      obtain old | ⟨p, pair, -⟩ := new e member
      · have held := (cancelled e).mp old
        rw [none_] at held
        exact absurd held List.not_mem_nil
      · rw [heldPairs, downKeys_of_silent silent] at pair
        exact absurd pair List.not_mem_nil
    rw [idleIfDone_of_done (.inl rfl) empty silent]
    obtain ⟨_, _, idle⟩ := becomeIdle_eq (dropped n (cutTo v false pl) s)
    rw [idle]
    exact ⟨rfl, rfl, empty, rfl, rfl⟩

/-! ### STOP_HYMN of mode END_OF_VERSE (R112) -/

theorem answerStopEndOfVerse_done {a : Nat} {t : State} (yesNo : a ≤ 1) (active : HymnActive s)
    (ends : endOfVerse (a == 1) s = some t) : answerStopEndOfVerse a s = ⟨.OK, stopFields t, t⟩ := by
  unfold answerStopEndOfVerse
  rw [if_neg (by simp [isYesNo, yesNo]), if_neg (mt not_hymnActive_iff.mpr (not_not.mpr active)), ends]

theorem answerStopEndOfVerse_late {a : Nat} (yesNo : a ≤ 1) (active : HymnActive s)
    (late : endOfVerse (a == 1) s = none) : answerStopEndOfVerse a s = refuse s .TOO_LATE := by
  unfold answerStopEndOfVerse
  rw [if_neg (by simp [isYesNo, yesNo]), if_neg (mt not_hymnActive_iff.mpr (not_not.mpr active)), late]

theorem stopFields_of_plan {t : State} {pl : Plan} (plan : t.player.plan = some pl) :
    stopFields t = u8 pl.entries.length ++ u8 (if pl.amen then 1 else 0) := by
  unfold stopFields
  rw [plan]
  rfl

theorem active_of_verseToCut (cuts : VerseToCut s.player) : HymnActive s := by
  unfold HymnActive
  obtain state | state | state | ⟨state, -⟩ | ⟨state, -⟩ := cuts <;> simp [state]

/-- Settles O31: in each state of the Player an END_OF_VERSE has one effect, and the reply is of the plan it leaves. -/
theorem endOfVerseCutsThePlan : Obligations.EndOfVerseCutsThePlan := by
  refine ⟨fun dt a v tag pl s idle yesNo cuts plan hand => ?_, fun dt tag s idle => ?_,
    fun dt v n tag pl s idle gap plan hand => ?_⟩
  · have active : HymnActive s := active_of_verseToCut cuts
    have keep : (!(a == 1)) = (a == 0) := by
      match a, yesNo with
      | 0, _ | 1, _ => rfl
    have ends := endOfVerse_cut (s := withQueued (.stopHymn 0 a) tag (elapse dt s)) cuts plan hand (a == 1)
    rw [keep] at ends
    have answered := answerStopEndOfVerse_done (s := withQueued (.stopHymn 0 a) tag (elapse dt s)) yesNo active ends
    rw [stopFields_of_plan rfl] at answered
    exact onService_request_answered (r := .stopHymn 0 a) idle answered rfl
  · dsimp only
    refine ⟨fun inactive a yesNo => ?_, fun amen => ?_, fun a kept => ?_⟩
    · refine onService_request_replied (r := .stopHymn 0 a) idle ?_
      exact (if_neg (by simp [isYesNo, yesNo])).trans (if_pos (not_hymnActive_iff.mp inactive))
    · refine onService_request_replied (r := .stopHymn 0 1) idle ?_
      have active : HymnActive s := by
        unfold HymnActive
        obtain state | ⟨state, -⟩ := amen <;> simp [state]
      have ends := endOfVerse_inAmen (s := withQueued (.stopHymn 0 1) tag (elapse dt s)) ((inAmen_iff _).mpr amen) (1 == 1)
      exact answerStopEndOfVerse_late (s := withQueued (.stopHymn 0 1) tag (elapse dt s)) le_rfl active ends
    · have yesNo : a ≤ 1 := by
        obtain ⟨zero, -⟩ | ⟨yesNo, -⟩ := kept <;> omega
      have active : HymnActive s := by
        unfold HymnActive
        obtain ⟨-, (state | ⟨state, -⟩) | ⟨state, -⟩⟩ | ⟨-, state⟩ := kept <;> simp [state]
      have ends : endOfVerse (a == 1) (withQueued (.stopHymn 0 a) tag (elapse dt s))
          = some (unreserved (withQueued (.stopHymn 0 a) tag (elapse dt s))) := by
        obtain ⟨rfl, amen | before⟩ | ⟨-, ending⟩ := kept
        · exact endOfVerse_inAmen (s := withQueued (.stopHymn 0 0) tag (elapse dt s)) ((inAmen_iff _).mpr amen) (0 == 1)
        · exact endOfVerse_keep (s := withQueued (.stopHymn 0 0) tag (elapse dt s)) ((beforeAmen_iff _).mpr before)
        · exact endOfVerse_ending (s := withQueued (.stopHymn 0 a) tag (elapse dt s)) ending _
      have answered := answerStopEndOfVerse_done (s := withQueued (.stopHymn 0 a) tag (elapse dt s)) yesNo active ends
      exact ⟨_, onService_request_answered (r := .stopHymn 0 a) idle answered rfl, fun pl plan => stopFields_of_plan plan⟩
  · have active : HymnActive s := by
      unfold HymnActive
      simp [gap.1]
    have ends := endOfVerse_drop (s := withQueued (.stopHymn 0 1) tag (elapse dt s)) gap plan hand
    have answered := answerStopEndOfVerse_done (s := withQueued (.stopHymn 0 1) tag (elapse dt s)) (a := 1) le_rfl active ends
    have dropped_ := walkDropped (s := withQueued (.stopHymn 0 1) tag (elapse dt s)) (v := v) pl gap.2.2.1
    rw [stopFields_of_plan dropped_.1] at answered
    refine ⟨_, onService_request_answered (r := .stopHymn 0 1) idle answered (still_idleIfDone _).frame.link, ?_⟩
    exact dropped_

end Sys2Proof.Proofs
end

section
/-! PROOFS. The Listening Unit: samples, levels, and the hops with no onset to hear (O36). -/

namespace Sys2Proof.Proofs

open Sys2Proof.Machine Sys2Proof.Laws Sys2Proof.Claims

variable {s : State}

/-! ### Samples (R38) -/

/-- The number that bits spell, each bit with its weight. -/
def weighted (bits : List Bool) : Nat :=
  ((List.range bits.length).map (fun i => if bits[i]? = some true then 2 ^ (bits.length - 1 - i) else 0)).sum

theorem weighted_cons (b : Bool) (bits : List Bool) : weighted (b :: bits) = b.toNat * 2 ^ bits.length + weighted bits := by
  unfold weighted
  rw [List.length_cons, List.range_succ_eq_map, List.map_cons, List.sum_cons, List.map_map]
  congr 1
  · cases b <;> simp
  · congr 1
    refine List.map_congr_left fun i _ => ?_
    simp only [Function.comp_apply, List.getElem?_cons_succ]
    congr 2
    omega

theorem weighted_lt (bits : List Bool) : weighted bits < 2 ^ bits.length := by
  induction bits with
  | nil => decide
  | cons b bits ih =>
    rw [weighted_cons, List.length_cons, Nat.pow_succ]
    have bit : b.toNat ≤ 1 := Bool.toNat_le b
    nlinarith

theorem foldl_bits (bits : List Bool) (n : Nat) :
    bits.foldl (fun n b => 2 * n + b.toNat) n = n * 2 ^ bits.length + weighted bits := by
  induction bits generalizing n with
  | nil => simp [weighted]
  | cons b bits ih =>
    rw [List.foldl_cons, ih, weighted_cons, List.length_cons, Nat.pow_succ]
    ring

theorem bitsValue_eq (bits : List Bool) : bitsValue bits = weighted bits := by
  rw [bitsValue, foldl_bits, Nat.zero_mul, Nat.zero_add]

theorem sampleOf_eq {x : Bool} {rest high : List Bool} (fifteen : rest.length = 15) : sampleOf ⟨x :: rest, high⟩
    = ((List.range 15).map (fun i => if rest[i]? = some true then (2 : Int) ^ (14 - i) else 0)).sum
      - (if x = true then 32768 else 0) := by
  have low : weighted rest < 32768 := by
    have below := weighted_lt rest
    rwa [fifteen] at below
  have sum : ((List.range 15).map (fun i => if rest[i]? = some true then (2 : Int) ^ (14 - i) else 0)).sum
      = (weighted rest : Int) := by
    unfold weighted
    rw [fifteen, Nat.cast_list_sum, List.map_map]
    congr 1
    refine List.map_congr_left fun i _ => ?_
    simp only [Function.comp_apply]
    split <;> simp
  have value : bitsValue (x :: rest) = x.toNat * 32768 + weighted rest := by
    rw [bitsValue_eq, weighted_cons, fifteen]
    norm_num
  have spelt : sampleOf ⟨x :: rest, high⟩ = (BitVec.ofNat 16 (x.toNat * 32768 + weighted rest)).toInt := by
    rw [← value]
    rfl
  rw [spelt, sum, BitVec.toInt_eq_toNat_bmod, BitVec.toNat_ofNat]
  cases x with
  | false =>
    simp only [Bool.toNat_false, Bool.false_eq_true, if_false]
    rw [Nat.mod_eq_of_lt (by omega), Int.bmod_eq_of_le (by omega) (by omega)]
    omega
  | true =>
    simp only [Bool.toNat_true, if_true]
    rw [Nat.mod_eq_of_lt (by omega), Int.bmod_def]
    omega

/-! ### Counting steps (R41, R43) -/

/-- A predicate that holds of every smaller number too, counted below `m`: more than `k` numbers have it exactly when `k`
has it. -/
theorem lt_length_filter_range {p : Nat → Bool} (down : ∀ i j, i ≤ j → p j = true → p i = true) {k m : Nat} (below : k < m) :
    k < ((List.range m).filter p).length ↔ p k = true := by
  constructor
  · intro many
    by_contra fails
    have few : (List.range m).filter p ⊆ List.range k := by
      intro j member
      obtain ⟨-, holds⟩ := List.mem_filter.mp member
      refine List.mem_range.mpr (Nat.lt_of_not_le fun le => fails (down k j le holds))
    have short := (List.nodup_range.filter p).length_le_of_subset few
    rw [List.length_range] at short
    omega
  · intro holds
    have all : List.range (k + 1) ⊆ (List.range m).filter p := by
      intro j member
      have small := List.mem_range.mp member
      exact List.mem_filter.mpr ⟨List.mem_range.mpr (by omega), down j k (by omega) holds⟩
    have long := List.nodup_range.length_le_of_subset all
    rw [List.length_range] at long
    omega

theorem bandLevel_spec (e : Nat) : bandLevel e ≤ 255 ∧ ∀ n, 1 ≤ n → n ≤ 255 →
    (n ≤ bandLevel e ↔ Config.fullScaleEnergy ^ 80 ≤ 10 ^ (768 - 3 * n) * e ^ 80) := by
  refine ⟨(List.length_filter_le _ _).trans_eq List.length_range, fun n low high => ?_⟩
  have down (i j : Nat) (le : i ≤ j)
      (holds : decide (Config.fullScaleEnergy ^ 80 ≤ 10 ^ (765 - 3 * j) * e ^ 80) = true) :
      decide (Config.fullScaleEnergy ^ 80 ≤ 10 ^ (765 - 3 * i) * e ^ 80) = true :=
    decide_eq_true ((of_decide_eq_true holds).trans
      (Nat.mul_le_mul_right _ (Nat.pow_le_pow_right (by decide) (by omega))))
  obtain ⟨k, rfl⟩ : ∃ k, n = k + 1 := ⟨n - 1, by omega⟩
  have counted := lt_length_filter_range down (k := k) (m := 255) (by omega)
  have exponent : 768 - 3 * (k + 1) = 765 - 3 * k := by omega
  rw [exponent, ← decide_eq_true_eq (p := Config.fullScaleEnergy ^ 80 ≤ _), ← counted]
  rfl

theorem classLevel_spec {top e : Nat} (le : e ≤ top) : classLevel top e ≤ 15
    ∧ (classLevel top e = 0 → 10 ^ 45 * e ^ 10 ≤ top ^ 10)
    ∧ (0 < classLevel top e → 10 ^ (3 * (15 - classLevel top e)) * e ^ 10 ≤ top ^ 10
        ∧ top ^ 10 < 10 ^ (3 * (16 - classLevel top e)) * e ^ 10) := by
  have down (i j : Nat) (le : i ≤ j) (holds : decide (10 ^ (3 * (j + 1)) * e ^ 10 ≤ top ^ 10) = true) :
      decide (10 ^ (3 * (i + 1)) * e ^ 10 ≤ top ^ 10) = true :=
    decide_eq_true ((Nat.mul_le_mul_right _ (Nat.pow_le_pow_right (by decide) (by omega))).trans
      (of_decide_eq_true holds))
  have counted (k : Nat) (below : k < 15) := lt_length_filter_range down (k := k) (m := 15) below
  obtain ⟨c, steps⟩ : ∃ c, ((List.range 15).filter (fun j => decide (10 ^ (3 * (j + 1)) * e ^ 10 ≤ top ^ 10))).length = c :=
    ⟨_, rfl⟩
  have most : c ≤ 15 := steps ▸ (List.length_filter_le _ _).trans_eq List.length_range
  rw [steps] at counted
  have level : classLevel top e = 15 - c := by
    unfold classLevel
    rw [steps]
  rw [level]
  refine ⟨by omega, fun zero => ?_, fun positive => ⟨?_, ?_⟩⟩
  · exact of_decide_eq_true ((counted 14 (by decide)).mp (by omega))
  · have same : 15 - (15 - c) = c := by omega
    rw [same]
    cases c with
    | zero => simpa using Nat.pow_le_pow_left le 10
    | succ k => exact of_decide_eq_true ((counted k (by omega)).mp (by omega))
  · have same : 16 - (15 - c) = c + 1 := by omega
    rw [same]
    have fails := mt (counted c (by omega)).mpr (lt_irrefl c)
    exact Nat.lt_of_not_le fun holds => fails (decide_eq_true holds)

/-! ### The profile (R43) -/

theorem le_foldl_max (l : List Nat) (m : Nat) : m ≤ l.foldl max m ∧ ∀ x ∈ l, x ≤ l.foldl max m := by
  induction l generalizing m with
  | nil => exact ⟨le_rfl, fun _ h => absurd h List.not_mem_nil⟩
  | cons y rest ih =>
    obtain ⟨acc, all⟩ := ih (max m y)
    refine ⟨(le_max_left m y).trans acc, fun x member => ?_⟩
    obtain rfl | further := List.mem_cons.mp member
    · exact (le_max_right m x).trans acc
    · exact all x further

theorem foldl_max_mem (l : List Nat) (m : Nat) : l.foldl max m = m ∨ l.foldl max m ∈ l := by
  induction l generalizing m with
  | nil => exact .inl rfl
  | cons y rest ih =>
    rw [List.foldl_cons]
    obtain acc | held := ih (max m y)
    · rw [acc]
      obtain le | le := le_total m y
      · exact .inr (by rw [max_eq_right le]; exact List.mem_cons_self)
      · exact .inl (max_eq_left le)
    · exact .inr (List.mem_cons_of_mem y held)

theorem profileOf_spec (e : Nat → Nat) : ProfileOf e (profileOf ((List.range 12).map e)) := by
  let top := ((List.range 12).map e).foldl max 0
  have all (k : Nat) (small : k < 12) : e k ≤ top :=
    (le_foldl_max _ 0).2 _ (List.mem_map_of_mem (List.mem_range.mpr small))
  have attained : ∃ k, k < 12 ∧ e k = top := by
    obtain zero | held := foldl_max_mem ((List.range 12).map e) 0
    · exact ⟨0, by decide, Nat.le_antisymm (all 0 (by decide)) (by rw [show top = 0 from zero]; exact Nat.zero_le _)⟩
    · obtain ⟨k, member, same⟩ := List.mem_map.mp held
      exact ⟨k, List.mem_range.mp member, same⟩
  refine ⟨top, attained, all, ?_, fun hushed k small => ?_, fun sounding k small => ?_⟩
  · unfold profileOf
    dsimp only
    split <;> simp
  · unfold profileOf
    have quiet_ : quiet top = true := decide_eq_true hushed
    rw [if_pos (by exact quiet_)]
    simp [small]
  · obtain ⟨most, zero, steps⟩ := classLevel_spec (all k small)
    refine ⟨classLevel top (e k), ?_, most, zero, steps⟩
    unfold profileOf
    have quiet_ : ¬ quiet top = true := fun hushed => absurd (of_decide_eq_true hushed) (Nat.not_le.mpr sounding)
    rw [if_neg (by exact quiet_)]
    simp [small, top]

/-! ### A hop (R40 to R47) -/

theorem channelAtHop_spec (n : Nat) (c : Channel) (x : ChannelState) (i : HopInput) :
    channelAtHop n c x i = (heardChannel n c x i, noveltyOf x (levelsOf n c i)) := by
  obtain ⟨present, before⟩ := x
  obtain ⟨ran, periods⟩ := i
  cases present with
  | true => cases before <;> rfl
  | false => cases ran <;> rfl

/-- The hop just completed and the channels after it, as R42 and R43 give them. -/
theorem measureHop_spec (l : Listen) (a b : HopInput) :
    (measureHop l a b).2 = (heardChannel l.analyses .A l.a a, heardChannel l.analyses .B l.b b)
      ∧ (measureHop l a b).1.novelty
          = noveltyOf l.a (levelsOf l.analyses .A a) + noveltyOf l.b (levelsOf l.analyses .B b)
      ∧ (measureHop l a b).1.onA = (heardChannel l.analyses .A l.a a).present
      ∧ (measureHop l a b).1.onB = (heardChannel l.analyses .B l.b b).present
      ∧ (measureHop l a b).1.profile = profileOf (classEnergies l.analyses
          (heardChannel l.analyses .A l.a a).present (heardChannel l.analyses .B l.b b).present a b) := by
  unfold measureHop
  dsimp only
  rw [channelAtHop_spec, channelAtHop_spec]
  exact ⟨rfl, rfl, rfl, rfl, rfl⟩

theorem declares_iff (p : Params) (l : Listen) (c : Hop) (next : Nat) :
    declares p l c next = true ↔ Declared p l c next := by
  unfold declares Declared effectiveMargin
  rw [Bool.and_eq_true, Bool.and_eq_true, Bool.and_eq_true, decide_eq_true_iff, decide_eq_true_iff, decide_eq_true_iff,
    decide_eq_true_iff, and_assoc, and_assoc]

theorem moveFloor_eq (floor n : Nat) : (moveFloor floor n : Int) = floor + ((n : Int) - floor) / 16 := by
  unfold moveFloor
  omega

/-- The Listening Unit after a hop, with no onset heard. -/
def hopHeard (a b : HopInput) (s : State) : Listen := (detect s a b).2

theorem hopHeard_spec (a b : HopInput) (s : State) : HopMeasured s.now a b s (hopHeard a b s)
    ∧ (hopHeard a b s).candidate = some (measureHop s.listen a b).1 := by
  obtain ⟨channels, novelty, onA, onB, profile⟩ := measureHop_spec s.listen a b
  have a_ : (measureHop s.listen a b).2.1 = heardChannel s.listen.analyses .A s.listen.a a := by rw [channels]
  have b_ : (measureHop s.listen a b).2.2 = heardChannel s.listen.analyses .B s.listen.b b := by rw [channels]
  have profiled (l : Listen) (hA : l.a = heardChannel s.listen.analyses .A s.listen.a a)
      (hB : l.b = heardChannel s.listen.analyses .B s.listen.b b) :
      ProfileOf (classSum s.listen.analyses l a b) (measureHop s.listen a b).1.profile := by
    rw [profile, ← hA, ← hB]
    exact profileOf_spec (classSum s.listen.analyses l a b)
  unfold hopHeard detect
  cases candidate : s.listen.candidate with
  | none =>
    refine ⟨⟨a_, b_, rfl, rfl, rfl, rfl, _, rfl, rfl, novelty, ?_, ?_, profiled _ a_ b_, fun _ => ⟨rfl, rfl⟩,
      fun c held => ?_⟩, rfl⟩
    · rw [onA, ← a_]
    · rw [onB, ← b_]
    · cases candidate.symm.trans held
  | some c =>
    refine ⟨⟨a_, b_, rfl, rfl, rfl, rfl, _, rfl, rfl, novelty, ?_, ?_, profiled _ a_ b_, fun none_ => ?_,
      fun x held => ?_⟩, rfl⟩
    · rw [onA, ← a_]
    · rw [onB, ← b_]
    · cases candidate.symm.trans none_
    · cases candidate.symm.trans held
      refine ⟨moveFloor_eq _ _, fun declared => ?_, fun undeclared => ?_⟩
      · exact if_pos ((declares_iff _ _ _ _).mpr declared)
      · exact if_neg (mt (declares_iff _ _ _ _).mp undeclared)

/-- The declared onset of a hop (R46, R48). -/
theorem detect_fst (a b : HopInput) (s : State) : (detect s a b).1 = s.listen.candidate.bind (fun c =>
    if declares s.params s.listen c (measureHop s.listen a b).1.novelty then some (onsetOf s c) else none) := by
  unfold detect
  cases s.listen.candidate <;> rfl

theorem hopDue_of_completes {a b : HopInput} {dt : Nat} (completes : HopCompletes dt a b s.listen s.now) :
    hopDue a b (elapse dt s) = true := by
  unfold hopDue pacing
  obtain ⟨present, length⟩ | ⟨lostA, present, length⟩ | ⟨lostA, lostB, time⟩ := completes
  · simp [elapse, present, samplesOf, length, Config.hopSamples]
  · simp [elapse, lostA, present, samplesOf, length, Config.hopSamples]
  · simp only [elapse, lostA, lostB, Bool.false_eq_true, if_false]
    have time' : timePlus s.listen.hopBegan Config.hopUnits = s.now + BitVec.ofNat 32 dt :=
      (timePlus_natCast _ _).trans time
    unfold due
    rw [time']
    exact arrived_self _

/-- With no hymn active nothing is heard (R52). -/
theorem hearOnset_of_idle (o : Onset) (idle : s.player.state = .IDLE) : hearOnset o s = s := by
  have closed : accepted s o = false := by simp [accepted, listeningOpen, idle]
  unfold hearOnset
  rw [closed]
  rfl

theorem loseChannel_absent {c : Channel} (absent : (channelState s.listen c).present = false) : loseChannel c s = s := by
  unfold loseChannel
  rw [absent]
  rfl

/-- Settles O36: the hop is measured as its parts are, and with no hymn or no candidate nothing is heard. -/
theorem channelsAreLostAndHeard : Obligations.ChannelsAreLostAndHeard := by
  refine ⟨fun dt s live => ⟨fun present => ?_, fun present => ?_, fun c absent => ?_⟩,
    fun x rest high fifteen => sampleOf_eq fifteen, bandLevel_spec, fun dt a b s live =>
      ⟨fun completes unheard => ?_, fun short => ?_⟩⟩
  · refine (onService_live dt (loseChannel .A) s live).trans (congrArg _ ?_)
    simp [loseChannel, channelState, setChannel, pacing, elapse, present]
  · refine (onService_live dt (loseChannel .B) s live).trans (congrArg _ ?_)
    cases paces : s.listen.a.present <;>
      simp [loseChannel, channelState, setChannel, pacing, elapse, present, paces]
  · exact (onService_live dt (loseChannel c) s live).trans (congrArg _ (loseChannel_absent absent))
  · obtain ⟨measured, -⟩ := hopHeard_spec a b (elapse dt s)
    refine ⟨hopHeard a b (elapse dt s), ?_, measured⟩
    refine (onService_live dt (fun t => if hopDue a b t then completeHop a b t else t) s live).trans (congrArg _ ?_)
    rw [if_pos (hopDue_of_completes completes)]
    unfold completeHop
    dsimp only
    split
    next o declared =>
      obtain idle | none_ := unheard
      · exact hearOnset_of_idle o idle
      · rw [detect_fst, show (elapse dt s).listen.candidate = none from none_] at declared
        cases declared
    next => rfl
  · refine (onService_live dt (fun t => if hopDue a b t then completeHop a b t else t) s live).trans (congrArg _ ?_)
    refine if_neg ?_
    unfold hopDue pacing
    obtain ⟨present, length⟩ | ⟨lostA, present, length⟩ := short
    · simp [elapse, present, samplesOf, length, Config.hopSamples]
    · simp [elapse, lostA, present, samplesOf, length, Config.hopSamples]

end Sys2Proof.Proofs
end

section
/-! PROOFS. The times of the Beat Follower, the placing of its windows, and the rebase (O39). -/

namespace Sys2Proof.Proofs

open Sys2Proof.Machine Sys2Proof.Laws Sys2Proof.Claims

variable {s : State}

/-! ### Follow points (R64) -/

theorem followStep_iff (p : Player) (w : WindowStep) : followStep p w = true ↔ IsFollowPoint p w := by
  unfold followStep IsFollowPoint
  rw [Bool.and_eq_true, Bool.and_eq_true, decide_eq_true_iff, and_assoc]
  refine and_congr_right fun _ => and_congr_right fun verse => ?_
  rw [bne_iff_ne]
  unfold sectionMode
  by_cases amen : w.sec = 13
  · rw [if_pos (.inr amen)]
    simp [amen]
  · rw [if_neg (by rintro (zero | same); exacts [by omega, amen same])]
    cases entry : planEntry p w.sec with
    | none => simp
    | some e => simp [amen]

theorem usable_iff (s : State) (w : WindowStep) : usable s w = true ↔ MayBeUsed s w := by
  unfold usable MayBeUsed
  rw [Bool.and_eq_true, followStep_iff, Bool.not_eq_true']
  rfl

/-! ### The distance to the next follow point (R65) -/

/-- The step is a follow point behind `point`, far enough off. -/
def nextAfter (s : State) (point : HymnPos) (w : WindowStep) : Bool :=
  followStep s.player w && posBefore point (stepPos w)
    && decide ((400 : Int) ≤ timeDiff (predict s.follow w.pos) (predict s.follow point.pos))

theorem nextDistance_eq (s : State) (point : HymnPos) : nextDistance s point
    = (s.player.window.find? (nextAfter s point)).map
        (fun w => timeDiff (predict s.follow w.pos) (predict s.follow point.pos)) := rfl

theorem not_nextAfter {point : HymnPos} {w : WindowStep} :
    ¬ nextAfter s point w = true ↔ ∀ d, LiesAhead s point w d → d < 400 := by
  unfold nextAfter
  rw [Bool.and_eq_true, Bool.and_eq_true, followStep_iff, decide_eq_true_iff]
  constructor
  · rintro away d ⟨follow, before, rfl⟩
    exact Int.lt_of_not_ge fun far => away ⟨⟨follow, before⟩, far⟩
  · rintro near ⟨⟨follow, before⟩, far⟩
    exact absurd (near _ ⟨follow, before, rfl⟩) (by omega)

theorem nextAfter_iff {point : HymnPos} {w : WindowStep} :
    nextAfter s point w = true ↔ ∃ d, LiesAhead s point w d ∧ 400 ≤ d := by
  have contra := not_iff_not.mpr (not_nextAfter (s := s) (point := point) (w := w))
  rw [not_not] at contra
  rw [contra]
  push Not
  rfl

/-- R65's distance is that of the first such point, and no other. -/
theorem nextDistance_iff (point : HymnPos) (g : Option Int) : NextDistance s point g ↔ g = nextDistance s point := by
  rw [nextDistance_eq]
  cases found : s.player.window.find? (nextAfter s point) with
  | none =>
    have all := List.find?_eq_none.mp found
    cases g with
    | none => exact ⟨fun _ => rfl, fun _ w member => not_nextAfter.mp (all w member)⟩
    | some d =>
      refine ⟨?_, nofun⟩
      rintro ⟨before, w, after, split_, ahead, far, -⟩
      exact absurd (nextAfter_iff.mpr ⟨d, ahead, far⟩) (all w (by rw [split_]; simp))
  | some w =>
    obtain ⟨holds, before, after, split_, none_⟩ := List.find?_eq_some_iff_append.mp found
    obtain ⟨d, ahead, far⟩ := nextAfter_iff.mp holds
    have distance : d = timeDiff (predict s.follow w.pos) (predict s.follow point.pos) := ahead.2.2
    cases g with
    | none =>
      refine ⟨fun near => ?_, nofun⟩
      have close := near w (by rw [split_]; simp) d ahead
      omega
    | some g =>
      constructor
      · rintro ⟨before', w', after', split', ahead', far', near'⟩
        have found' : s.player.window.find? (nextAfter s point) = some w' :=
          List.find?_eq_some_iff_append.mpr ⟨nextAfter_iff.mpr ⟨g, ahead', far'⟩, before', after', split', fun x member => by
            simpa using not_nextAfter.mpr (near' x member)⟩
        cases found.symm.trans found'
        exact congrArg some ahead'.2.2
      · intro same
        cases same
        dsimp only
        rw [← distance]
        exact ⟨before, w, after, split_, ahead, far, fun x member => not_nextAfter.mp (by simpa using none_ x member)⟩

/-! ### The placing of a window (R65 to R67) -/

theorem effectiveWidth_eq (w : Nat) (g g' : Option Int) : effectiveWidth w g g'
    = ((g'.map (fun d => min ((g.map (fun d => min w (d / 2).toNat)).getD w) (d / 2).toNat)).getD
        ((g.map (fun d => min w (d / 2).toNat)).getD w)) := by
  cases g <;> cases g' <;> rfl

theorem phaseAt_eq (now opens closes : Time) : phaseAt now opens closes
    = if later closes now = false then .DECIDING else if later opens now = false then .OPEN else .PENDING := by
  unfold phaseAt
  rw [arrived_eq_not_later, arrived_eq_not_later]
  cases later closes now <;> cases later opens now <;> rfl

theorem openTime_eq (own : Time) (lastClose : Option Time) : openTime own lastClose =
    match lastClose with
    | some c => if later (timePlus c 1) own = true then timePlus c 1 else own
    | none => own := by
  cases lastClose <;> rfl

/-- R65: the distance from the previous used follow point. -/
def prevDistance (s : State) (prev : Option HymnPos) (point : HymnPos) : Option Int :=
  prev.map (fun q => timeDiff (predict s.follow point.pos) (predict s.follow q.pos))

/-- The window that R66 and R67 make of a follow point. -/
def windowAt (s : State) (prev : Option HymnPos) (point : HymnPos) (index : Nat) : MatchWindow :=
  windowFor s (prevDistance s prev point) (nextDistance s point) prev point index

/-- R65, R66: the follow point is passed over. -/
def PassedOver (s : State) (prev : Option HymnPos) (point : HymnPos) (index : Nat) : Prop :=
  (∃ g, prevDistance s prev point = some g ∧ g < 400)
    ∨ later (windowAt s prev point index).opens (windowAt s prev point index).closes = true

theorem windowAt_eq (s : State) (prev : Option HymnPos) (point : HymnPos) (index : Nat) :
    let expected := timePlus (predict s.follow point.pos) s.params.choirLag
    let width := effectiveWidth s.params.halfWidth (prevDistance s prev point) (nextDistance s point)
    let closes := timePlus expected width
    let opens := openTime (timePlus expected (-(width : Int))) s.follow.lastClose
    windowAt s prev point index = ⟨point, index, expected, width, opens, closes, timePlus closes Config.decisionDelay,
      phaseAt s.now opens closes, prev⟩ := by
  intro expected width closes opens
  simp only [windowAt, windowFor, effectiveWidth_eq, phaseAt_eq, openTime_eq, expected, width, closes, opens]
  cases s.follow.lastClose <;> rfl

theorem placeWindow_of_passedOver {prev : Option HymnPos} {point : HymnPos} {index : Nat}
    (passed : PassedOver s prev point index) : placeWindow s prev point index = none := by
  have made := windowAt_eq s prev point index
  dsimp only at made
  unfold PassedOver at passed
  rw [made] at passed
  unfold placeWindow
  dsimp only at passed ⊢
  rw [show previousDistance s.follow prev point.pos = prevDistance s prev point from rfl]
  obtain ⟨g, near, close⟩ | late := passed
  · rw [near]
    exact if_pos (decide_eq_true close)
  · rw [if_pos late]
    exact ite_self none

theorem placeWindow_of_placed {prev : Option HymnPos} {point : HymnPos} {index : Nat}
    (placed : ¬ PassedOver s prev point index) :
    placeWindow s prev point index = some (windowAt s prev point index) := by
  have made := windowAt_eq s prev point index
  dsimp only at made
  unfold PassedOver at placed
  rw [made] at placed ⊢
  obtain ⟨far, timely⟩ := not_or.mp placed
  unfold placeWindow
  dsimp only at timely ⊢
  rw [show previousDistance s.follow prev point.pos = prevDistance s prev point from rfl]
  cases previous : prevDistance s prev point with
  | none =>
    rw [previous] at timely
    exact (if_neg nofun).trans (if_neg timely)
  | some g =>
    rw [previous] at timely
    exact (if_neg fun near => far ⟨g, previous, of_decide_eq_true near⟩).trans (if_neg timely)

/-- What comes of a follow point is what the placing of its window gives. -/
theorem placedAround_iff (prev : Option HymnPos) (point : HymnPos) (index : Nat) (made : Option MatchWindow) :
    PlacedAround s prev point index made ↔ made = placeWindow s prev point index := by
  have reading : PlacedAround s prev point index made ↔
      (PassedOver s prev point index → made = none)
        ∧ (¬ PassedOver s prev point index → made = some (windowAt s prev point index)) := by
    constructor
    · rintro ⟨g, next, rules⟩
      cases (nextDistance_iff point g).mp next
      exact rules
    · exact fun rules => ⟨_, (nextDistance_iff point _).mpr rfl, rules⟩
  rw [reading]
  by_cases passed : PassedOver s prev point index
  · rw [placeWindow_of_passedOver passed]
    exact ⟨fun rules => rules.1 passed, fun same => ⟨fun _ => same, fun placed => absurd passed placed⟩⟩
  · rw [placeWindow_of_placed passed]
    exact ⟨fun rules => rules.2 passed, fun same => ⟨fun over_ => absurd over_ passed, fun _ => same⟩⟩

/-! ### The search (R65) -/

/-- The steps of the window that may be used. -/
def usableCount (s : State) : Nat := s.player.window.countP (usable s)

/-- The part with the follow cursor just after the position of step `w`. -/
def cursorPast (w : WindowStep) (s : State) : State :=
  { s with follow := { s.follow with cursor := justAfter (stepPos w) } }

/-- The part with window `m` made for step `w`. -/
def windowMade (w : WindowStep) (m : MatchWindow) (s : State) : State :=
  { s with follow := { s.follow with
    cursor := justAfter (stepPos w), window := some m, prevUsed := some (stepPos w) } }

theorem seek_stays (stays : s.follow.state = .OFF ∨ s.follow.window ≠ none) (n : Nat) : seek n s = s := by
  cases n with
  | zero => rfl
  | succ n =>
    unfold seek
    exact if_pos (stays.imp_right fun held => by simpa [Option.isSome_iff_ne_none] using held)

theorem seek_none (none_ : s.player.window.find? (usable s) = none) (n : Nat) : seek n s = s := by
  cases n with
  | zero => rfl
  | succ n =>
    unfold seek
    rw [none_]
    exact ite_self s

theorem seek_step {w : WindowStep} (on : s.follow.state ≠ .OFF) (free : s.follow.window = none)
    (found : s.player.window.find? (usable s) = some w) (n : Nat) :
    seek (n + 1) s = match placeWindow s s.follow.prevUsed (stepPos w) w.index with
      | none => seek n (cursorPast w s)
      | some m => windowMade w m s := by
  have searches : ¬ (s.follow.state = .OFF ∨ s.follow.window.isSome = true) := by simp [on, free]
  rw [seek, if_neg searches, found]
  rfl

theorem posBefore_iff (a b : HymnPos) : posBefore a b = true ↔ a.sec < b.sec ∨ (a.sec = b.sec ∧ a.pos < b.pos) := by
  simp [posBefore]

/-- A step passed over is not usable again, and no other becomes so. -/
theorem usableCount_cursorPast {w : WindowStep} (found : s.player.window.find? (usable s) = some w) :
    usableCount (cursorPast w s) < usableCount s := by
  have held := List.find?_some found
  obtain ⟨-, before, after, parts, -⟩ := List.find?_eq_some_iff_append.mp found
  have behind := held
  unfold usable at behind
  rw [Bool.and_eq_true, Bool.not_eq_true', Bool.eq_false_iff, ne_eq, posBefore_iff] at behind
  have fewer (x : WindowStep) (used : usable (cursorPast w s) x = true) : usable s x = true := by
    unfold usable at used ⊢
    rw [Bool.and_eq_true, Bool.not_eq_true', Bool.eq_false_iff, ne_eq, posBefore_iff] at used ⊢
    refine ⟨used.1, ?_⟩
    have late := used.2
    simp only [cursorPast, justAfter, stepPos] at late behind ⊢
    omega
  have gone : ¬ usable (cursorPast w s) w = true := by
    unfold usable
    rw [Bool.and_eq_true, Bool.not_eq_true', Bool.eq_false_iff, ne_eq, posBefore_iff]
    simp [cursorPast, justAfter, stepPos]
  have mono (l : List WindowStep) : l.countP (usable (cursorPast w s)) ≤ l.countP (usable s) :=
    List.countP_mono_left fun x _ => fewer x
  unfold usableCount
  rw [show (cursorPast w s).player.window = s.player.window from rfl, parts, List.countP_append, List.countP_append,
    List.countP_cons_of_neg gone, List.countP_cons_of_pos held]
  have := mono before
  have := mono after
  omega

/-- A search with places for every usable step gives what any larger one gives. -/
theorem seek_enough (n m : Nat) : ∀ s : State, usableCount s < n → usableCount s < m → seek n s = seek m s := by
  induction n generalizing m with
  | zero => exact fun s few _ => absurd few (Nat.not_lt_zero _)
  | succ n ih =>
    intro s few few'
    obtain ⟨m, rfl⟩ : ∃ k, m = k + 1 := ⟨m - 1, by omega⟩
    by_cases stays : s.follow.state = .OFF ∨ s.follow.window ≠ none
    · rw [seek_stays stays, seek_stays stays]
    obtain ⟨on, held⟩ := not_or.mp stays
    have free := not_not.mp held
    cases found : s.player.window.find? (usable s) with
    | none => rw [seek_none found, seek_none found]
    | some w =>
      rw [seek_step on free found, seek_step on free found]
      cases placed : placeWindow s s.follow.prevUsed (stepPos w) w.index with
      | some _ => rfl
      | none =>
        have less := usableCount_cursorPast found
        exact ih m _ (by omega) (by omega)

theorem seekWindow_cursorPast {w : WindowStep} (room : s.player.window.length ≤ 16) (on : s.follow.state ≠ .OFF)
    (free : s.follow.window = none) (found : s.player.window.find? (usable s) = some w)
    (passed : placeWindow s s.follow.prevUsed (stepPos w) w.index = none) :
    seekWindow s = seekWindow (cursorPast w s) := by
  have less := usableCount_cursorPast found
  have bound : usableCount s ≤ 16 := List.countP_le_length.trans room
  rw [seekWindow, show Config.windowPlaces + 1 = 16 + 1 from rfl, seek_step on free found, passed]
  exact seek_enough 16 17 _ (by omega) (by omega)

theorem find_usable {before after : List WindowStep} {w : WindowStep} (parts : s.player.window = before ++ w :: after)
    (none_ : ∀ x ∈ before, ¬ MayBeUsed s x) (used : MayBeUsed s w) :
    s.player.window.find? (usable s) = some w :=
  List.find?_eq_some_iff_append.mpr ⟨(usable_iff s w).mpr used, before, after, parts, fun x member => by
    simpa using mt (usable_iff s x).mp (none_ x member)⟩

theorem windowsArePlaced : WindowsArePlaced := by
  refine ⟨fun s prev point index => (placedAround_iff prev point index _).mpr rfl, fun s room => ⟨?_, ?_, ?_⟩,
    fun s m held pending => ?_⟩
  · exact fun stays => seek_stays stays _
  · exact fun unused => seek_none (List.find?_eq_none.mpr fun w member => mt (usable_iff s w).mp (unused w member)) _
  · intro on free before w after parts none_ used
    have found := find_usable parts none_ used
    refine ⟨fun passed => ?_, fun m placed => ?_⟩
    · exact seekWindow_cursorPast room on free found ((placedAround_iff _ _ _ _).mp passed).symm
    · exact (seek_step on free found 16).trans (by
        rw [← (show _ = placeWindow s s.follow.prevUsed (stepPos w) w.index from (placedAround_iff _ _ _ _).mp placed)]; rfl)
  · have searches : ¬ m.phase ≠ .PENDING := not_not.mpr pending
    refine ⟨fun m' placed => ?_, fun passed => ?_⟩
    · unfold recompute
      rw [held]
      exact (if_neg searches).trans (by rw [← (placedAround_iff _ _ _ _).mp placed])
    · unfold recompute
      rw [held]
      exact (if_neg searches).trans (by rw [← (placedAround_iff _ _ _ _).mp passed])

/-! ### The window's times, the lost time and the rebase (R67, R80 to R83) -/

/-- FINISH_VERSE: the END_OF_VERSE with DROP that the lost indication brings (R81, R112). -/
theorem verseFinished (s : State) : VerseFinished s (finishVerse s) := by
  refine ⟨fun done => ?_, fun pl v plan hand => ⟨fun cuts => ?_, fun n gap => ?_⟩⟩
  · unfold finishVerse
    by_cases closed : s.player.state = .IDLE ∨ s.player.state = .STOPPING ∨ s.player.state = .ENDING
    · exact if_pos closed
    · have amen : inAmen s.player = true := (inAmen_iff _).mpr <| by
        obtain idle | stopping | ending | amen := done
        · exact absurd (.inl idle) closed
        · exact absurd (.inr (.inl stopping)) closed
        · exact absurd (.inr (.inr ending)) closed
        · exact amen
      rw [if_neg closed, endOfVerse_inAmen amen]
      rfl
  · have walks : ¬ (s.player.state = .IDLE ∨ s.player.state = .STOPPING ∨ s.player.state = .ENDING) := by
      obtain state | state | state | ⟨state, -⟩ | ⟨state, -⟩ := cuts <;> simp [state]
    have cut := endOfVerse_cut cuts plan hand true
    rw [Bool.not_true, Bool.and_false] at cut
    unfold finishVerse
    rw [if_neg walks, cut]
    rfl
  · have walks : ¬ (s.player.state = .IDLE ∨ s.player.state = .STOPPING ∨ s.player.state = .ENDING) := by
      simp [gap.1]
    have stands : finishVerse s = idleIfDone (dropped n (cutTo v false pl) s) := by
      unfold finishVerse
      rw [if_neg walks, endOfVerse_drop gap plan hand]
      rfl
    rw [stands]
    exact walkDropped pl gap.2.2.1

theorem lostDue_iff (s : State) :
    lostDue s = true ↔ s.follow.state = .COAST ∧ s.follow.lost = false ∧ due s (lostTime s) = true := by
  simp [lostDue, and_assoc]

/-- A time that is now is due. -/
theorem due_now {t : Time} (same : t = s.now) : due s t = true := by
  rw [same]
  exact arrived_self s.now

theorem exec_lostTime {dt : Nat} (live : InService s) (coast : s.follow.state = .COAST) (found : s.follow.lost = false)
    (now : timePlus s.follow.lastMatch s.params.lostAfter = s.now + BitVec.ofNat 32 dt) :
    exec (.lostTime dt) s = .next (loseChoir (elapse dt s)) := by
  refine (onService_live dt checkLost s live).trans (congrArg _ ?_)
  unfold checkLost
  have lost : lostDue (elapse dt s) = true := (lostDue_iff (elapse dt s)).mpr ⟨coast, found, due_now (s := elapse dt s) now⟩
  rw [if_pos lost]

theorem lostTimeFinishesTheVerse : LostTimeFinishesTheVerse := by
  intro dt s live coast found finish now
  refine ⟨_, exec_lostTime live coast found now, ?_⟩
  have ends : loseChoir (elapse dt s) = finishVerse (raise (.choirLost s.follow.lastMatch s.follow.anchor)
      { elapse dt s with follow := { s.follow with lost := true } }) := if_pos finish
  rw [ends]
  exact verseFinished _

theorem rebase_follow (t : Time) (p : HymnPos) (on : s.follow.state ≠ .OFF) :
    (rebase t p s).follow = rebasedFollow t p s.follow := by
  unfold rebase
  rw [if_neg on]
  rfl

/-- Settles O39: the window's times and the lost time by the dispatch of their events, the placing through the
search's own measure, the usable steps left, and the rebase by its record. -/
theorem followerTimesAndRebase : Obligations.FollowerTimesAndRebase := by
  refine ⟨fun dt m s live held => ⟨fun phase now => ?_, fun phase now => ?_⟩, ?_, lostTimeFinishesTheVerse,
    windowsArePlaced, fun t p s => ⟨fun off => if_pos off, fun on => ?_⟩⟩
  · refine (onService_live dt openWindow s live).trans (congrArg _ ?_)
    have held' : (elapse dt s).follow.window = some m := held
    unfold openWindow
    rw [held']
    exact if_pos ⟨phase, due_now (s := elapse dt s) now⟩
  · refine (onService_live dt closeWindow s live).trans (congrArg _ ?_)
    have held' : (elapse dt s).follow.window = some m := held
    unfold closeWindow
    rw [held']
    exact if_pos ⟨by rw [phase]; nofun, due_now (s := elapse dt s) now⟩
  · intro dt s live coast found finish now
    have stays : ¬ s.params.finishVerse = true := by rw [finish]; nofun
    exact (exec_lostTime live coast found now).trans (congrArg _ (if_neg stays))
  · intro f
    have written : f = rebasedFollow t p s.follow := rebase_follow t p on
    rw [written]
    refine ⟨rfl, rfl, rfl, rfl, rfl, rfl, rfl, rfl, rfl, rfl, rfl, rfl, fun m held pending => ?_, fun m held other => ?_⟩
    · simp [rebasedFollow, held, pending]
    · simp [rebasedFollow, held, other]

end Sys2Proof.Proofs
end

section
/-! PROOFS. The decision of a match window takes effect: the matched onset, the flags, the lost time and the search
that follows (O42). -/

namespace Sys2Proof.Proofs

open Sys2Proof.Machine Sys2Proof.Laws Sys2Proof.Claims

variable {s : State}

/-! ### The strongest onset of a window (R69) -/

theorem strongest_eq_none {l : List Onset} : strongest l = none ↔ l = [] := by
  cases l with
  | nil => simp [strongest]
  | cons o rest =>
    unfold strongest
    cases strongest rest with
    | none => simp
    | some x => by_cases h : o.strength < x.strength <;> simp [h]

/-- The strongest of a list, the earliest among equals. -/
theorem strongest_spec : ∀ {l : List Onset} {o : Onset}, strongest l = some o →
    ∃ before after, l = before ++ o :: after ∧ (∀ x ∈ l, x.strength ≤ o.strength)
      ∧ ∀ x ∈ before, x.strength < o.strength
  | [], o, found => (Option.some_ne_none o found.symm).elim
  | a :: rest, o, found => by
    unfold strongest at found
    cases tail : strongest rest with
    | none =>
      rw [tail] at found
      cases found
      rw [strongest_eq_none.mp tail]
      exact ⟨[], [], rfl, fun x member => by rw [List.mem_singleton.mp member], fun x member => absurd member List.not_mem_nil⟩
    | some x =>
      rw [tail] at found
      obtain ⟨before, after, parts, most, ahead⟩ := strongest_spec tail
      dsimp only at found
      split at found
      next weaker =>
        cases found
        refine ⟨a :: before, after, by rw [parts]; rfl, fun y member => ?_, fun y member => ?_⟩
        · obtain rfl | member := List.mem_cons.mp member
          exacts [weaker.le, most y member]
        · obtain rfl | member := List.mem_cons.mp member
          exacts [weaker, ahead y member]
      next strong =>
        cases found
        refine ⟨[], rest, rfl, fun y member => ?_, fun y member => absurd member List.not_mem_nil⟩
        obtain rfl | member := List.mem_cons.mp member
        exacts [le_rfl, (most y member).trans (not_lt.mp strong)]

/-- A cut of a filtered list comes of a cut of the list. -/
theorem cut_of_filter {α : Type} {p : α → Bool} {l before after : List α} {x : α}
    (parts : l.filter p = before ++ x :: after) : ∃ b c, l = b ++ x :: c ∧ b.filter p = before := by
  obtain ⟨b, c, rfl, front, back⟩ := List.filter_eq_append_iff.mp parts
  obtain ⟨d, e, rfl, none_, -, -⟩ := List.filter_eq_cons_iff.mp back
  refine ⟨b ++ d, e, by simp, ?_⟩
  rw [List.filter_append, front, List.filter_eq_nil_iff.mpr fun y member => none_ y member, List.append_nil]

theorem candidates_eq (m : MatchWindow) (q : List Onset) : candidates m q = q.filter (inWindow m) := rfl

/-- R69: the matched onset is the strongest of the window, the earliest among equals. -/
theorem strongest_candidates {m : MatchWindow} {q : List Onset} {o : Onset}
    (found : strongest (candidates m q) = some o) :
    ∃ before after, q = before ++ o :: after ∧ inWindow m o = true
      ∧ (∀ x ∈ q, inWindow m x = true → x.strength ≤ o.strength)
      ∧ ∀ x ∈ before, inWindow m x = true → x.strength < o.strength := by
  rw [candidates_eq] at found
  obtain ⟨before, after, parts, most, ahead⟩ := strongest_spec found
  obtain ⟨b, c, whole, front⟩ := cut_of_filter parts
  have inside : o ∈ q.filter (inWindow m) := by rw [parts]; simp
  refine ⟨b, c, whole, (List.mem_filter.mp inside).2, fun x member within => ?_, fun x member within => ?_⟩
  · exact most x (List.mem_filter.mpr ⟨member, within⟩)
  · exact ahead x (front ▸ List.mem_filter.mpr ⟨member, within⟩)

theorem strongest_candidates_eq_none (m : MatchWindow) (q : List Onset) :
    strongest (candidates m q) = none ↔ ∀ x ∈ q, inWindow m x = false := by
  rw [candidates_eq, strongest_eq_none, List.filter_eq_nil_iff]
  exact forall₂_congr fun x _ => by rw [Bool.not_eq_true]

/-! ### The flags of a decision (R74, R78) -/

/-- A decision that takes no period step is clamped at no bound. -/
theorem corrected_bound_of_noStep {m : MatchWindow} (none_ : ∀ o, ¬ TakesStep s m o) : (corrected s m).bound = none := by
  cases hit : matchedOnset s m with
  | none => rw [corrected_of_miss s m (.inl hit)]; rfl
  | some o =>
    cases late : isLate s m with
    | true => rw [corrected_of_miss s m (.inr late)]; rfl
    | false =>
      by_cases track : s.follow.state = .TRACK
      · cases rebased : s.follow.rebased with
        | true => rw [corrected_of_track hit late track, correctTrack_rebased rebased]
        | false => exact absurd ⟨track, rebased, hit, late⟩ (none_ o)
      · rw [corrected_of_reanchor hit late track]; rfl

/-- The bound told is the one that the period would pass. -/
theorem clampedAt_iff {m : MatchWindow} {h : Header} (playing : playingHeader s = some h) (order : h.pmin ≤ h.pmax)
    (upper : Bool) : ClampedAt s m upper ↔ (corrected s m).bound = some upper := by
  by_cases takes : ∃ o, TakesStep s m o
  · obtain ⟨o, track, steady, hit, timely⟩ := takes
    exact clamped_iff playing order track steady hit timely upper
  · have none_ := corrected_bound_of_noStep fun o takes' => takes ⟨o, takes'⟩
    rw [none_]
    exact ⟨fun ⟨o, _, takes', _⟩ => (takes ⟨o, takes'⟩).elim, fun told => (Option.some_ne_none _ told.symm).elim⟩

theorem backlogJudged (s : State) : BacklogJudged s (judgeBacklog s) := by
  unfold BacklogJudged judgeBacklog
  dsimp only
  constructor
  · intro off
    rw [off]
    by_cases full : s.params.critical ≤ s.listen.queue.length <;> simp [full]
  · intro on
    rw [on]
    by_cases low : s.listen.queue.length < s.params.critical / 2 <;> simp [low]

theorem setOnsets_eq (q : List Onset) (s : State) :
    ∃ b f, setOnsets q s = { s with listen := { s.listen with queue := q, backlog := b }, flags := f } :=
  judgeBacklog_eq { s with listen := { s.listen with queue := q } }

/-- A decision writes before the lost time the Follower, the Onset Queue with its backlog, and the flags alone. -/
theorem decidedBeforeLost_eq (m : MatchWindow) (s : State) : ∃ b f, decidedBeforeLost m s = { s with
    follow := (followAfterDecision s m).1,
    listen := { s.listen with queue := s.listen.queue.filter (fun o => later o.time m.closes), backlog := b },
    flags := f } := by
  have flagged (hit : Option Onset) (c : Correction) (found : Bool) (t : State) :
      ∃ f, decisionFlags m hit c found t = { t with flags := f } := by
    unfold decisionFlags
    dsimp only
    cases c.bound <;> cases hit <;> cases found <;> exact ⟨_, rfl⟩
  obtain ⟨b, f, judged⟩ := setOnsets_eq (s.listen.queue.filter (fun o => later o.time m.closes))
    { s with follow := (followAfterDecision s m).1 }
  obtain ⟨f', told⟩ := flagged (followAfterDecision s m).2.2.1 (followAfterDecision s m).2.1
    (s.follow.state == .COAST && (followAfterDecision s m).1.state == .TRACK && s.follow.lost)
    (setOnsets (s.listen.queue.filter (fun o => later o.time m.closes)) { s with follow := (followAfterDecision s m).1 })
  refine ⟨b, f', ?_⟩
  unfold decidedBeforeLost
  dsimp only
  rw [told, judged]

/-- R56, R69, R74, R78, R80, R81: the decision's flags and the lost time, as told. -/
theorem decisionTold {m : MatchWindow} {h : Header} (playing : playingHeader s = some h) (order : h.pmin ≤ h.pmax) :
    DecisionTold s m (checkLost (decidedBeforeLost m s)) := by
  have bound := clampedAt_iff (m := m) playing order
  let judged := setOnsets (s.listen.queue.filter (fun o => later o.time m.closes))
    { s with follow := (followAfterDecision s m).1 }
  let limited : State := match (corrected s m).bound with
    | some upper => raise (.tempoLimit upper (corrected s m).follow.period m.point) judged
    | none => judged
  have back : decidedBeforeLost m s = match matchedOnset s m with
    | some o => if (s.follow.state == .COAST && (followAfterDecision s m).1.state == .TRACK && s.follow.lost) = true then
        raise (.choirFound m.point o.time) limited else limited
    | none => limited := rfl
  have found_iff : (s.follow.state == .COAST && (followAfterDecision s m).1.state == .TRACK && s.follow.lost) = true
      ↔ s.follow.state = .COAST ∧ s.follow.lost = true ∧ (followAfterDecision s m).1.state = .TRACK := by
    rw [Bool.and_eq_true, Bool.and_eq_true, beq_iff_eq, beq_iff_eq, and_assoc, and_comm (a := s.follow.lost = true)]
  obtain ⟨b, f, whole⟩ := decidedBeforeLost_eq m s
  have lost_iff : lostDue (decidedBeforeLost m s) = true ↔ (followAfterDecision s m).1.state = .COAST
      ∧ (followAfterDecision s m).1.lost = false
      ∧ later (timePlus (followAfterDecision s m).1.lastMatch s.params.lostAfter) s.now = false := by
    rw [lostDue_iff, due_iff, whole]
    rfl
  refine ⟨judged, limited, decidedBeforeLost m s, backlogJudged _, fun upper clamped => ?_, fun none_ => ?_,
    fun o hit found => ?_, fun away => ?_, fun timely => ?_, fun late => ?_⟩
  · rw [followAfterDecision_period]
    simp only [limited, (bound upper).mp clamped]
  · have unbound : (corrected s m).bound = none := Option.eq_none_iff_forall_ne_some.mpr fun upper told =>
      none_ upper ((bound upper).mpr told)
    simp only [limited, unbound]
  · rw [back, show matchedOnset s m = some o from hit]
    exact if_pos (found_iff.mpr found)
  · rw [back]
    cases matchedOnset s m with
    | none => rfl
    | some o => exact if_neg (mt found_iff.mp away)
  · unfold checkLost
    exact if_neg (mt lost_iff.mp timely)
  · have ends : checkLost (decidedBeforeLost m s) = loseChoir (decidedBeforeLost m s) := if_pos (lost_iff.mpr late)
    have params : (decidedBeforeLost m s).params = s.params := by rw [whole]
    have follow : (decidedBeforeLost m s).follow = (followAfterDecision s m).1 := by rw [whole]
    rw [ends]
    unfold loseChoir
    dsimp only
    rw [params, follow]
    refine ⟨fun goes => if_neg ?_, fun finish => ?_⟩
    · rw [goes]; nofun
    · rw [if_pos finish]
      exact verseFinished _

/-! ### With nothing ahead, nothing follows -/

theorem firstUnplanned_nil {p : Player} (empty : p.window = []) : firstUnplanned p = none := by
  unfold firstUnplanned
  rw [empty]
  rfl

theorem planSteps_nil (empty : s.player.window = []) (n : Nat) : planSteps n s = s := by
  cases n with
  | zero => rfl
  | succ n =>
    unfold planSteps
    rw [firstUnplanned_nil empty]

theorem planSteps_window_nil (empty : s.player.window = []) (n : Nat) : (planSteps n s).player.window = [] := by
  rwa [planSteps_nil empty]

theorem handRelease_nil (q : ReleaseRequest) (empty : s.player.window = []) : (handRelease q s).1.player.window = [] := by
  unfold handRelease
  dsimp only
  split
  · show List.map _ (placeOrRefuse s q.sec q.index _).1.player.window = []
    rw [placeOrRefuse_player, empty]
    rfl
  · rwa [placeOrRefuse_player]

theorem handReleases_nil : ∀ (qs : List ReleaseRequest) (s : State), s.player.window = [] →
    (handReleases qs s).1.player.window = []
  | [], _, empty => empty
  | q :: rest, s, empty => by
    unfold handReleases
    dsimp only
    split
    · exact handReleases_nil rest _ (handRelease_nil q empty)
    · exact handRelease_nil q empty

theorem placesFreed_nil (empty : s.player.window = []) : (placesFreed s).player.window = [] := by
  have again (u : State) (same : u.player = s.player) : (handReleases u.player.releases u).1.player.window = [] :=
    handReleases_nil _ u (same ▸ empty)
  unfold placesFreed
  dsimp only
  split <;> split
  · refine planSteps_window_nil ?_ _
    exact again _ rfl
  · exact again _ rfl
  · refine planSteps_window_nil ?_ _
    exact again _ rfl
  · exact again _ rfl

theorem finishVerse_nil (empty : s.player.window = []) : (finishVerse s).player.window = [] := by
  have cut : (dropAmen { s with player := { s.player with
      plan := s.player.plan.map (cutPlan true), goLatch := false, reservation := .NONE } }).player.window = [] :=
    placesFreed_nil (congrArg (List.filter _) empty)
  unfold finishVerse
  split
  · exact empty
  · unfold endOfVerse
    dsimp only
    split
    · exact empty
    · split
      · exact empty
      · split
        · show (idleIfDone _).player.window = []
          unfold idleIfDone
          split
          · obtain ⟨_, _, idle⟩ := becomeIdle_eq (dropAmen { s with player := { s.player with
                plan := s.player.plan.map (cutPlan true), goLatch := false, reservation := .NONE } })
            exact (congrArg (fun u : State => u.player.window) idle).trans rfl
          · exact cut
        · exact empty

theorem nothingAhead_checkLost (nothing : NothingAhead s.player) : NothingAhead (checkLost s).player := by
  obtain same | ⟨-, u, same, ended⟩ := checkLost_player s
  · rwa [same]
  · rw [ended]
    rw [← same] at nothing
    refine ⟨finishVerse_nil nothing.1, ?_⟩
    obtain ahead | gone := finishVerse_readAhead u
    exacts [ahead.trans nothing.2, gone]

theorem entryDue_of_nothing (ahead : s.player.readAhead = none) : entryDue s = none := by
  unfold entryDue
  rw [ahead]

theorem admitSteps_of_nothing (ahead : s.player.readAhead = none) : admitSteps Config.cascadeBound s = (s, false) := by
  have waits : entryDue s = none := entryDue_of_nothing ahead
  have freed : entryDue (leaveFirst s) = none := entryDue_of_nothing ahead
  have enters : enterDueSteps (Config.windowPlaces + 1) s = (s, false) := by
    rw [show Config.windowPlaces + 1 = 16 + 1 from rfl, enterDueSteps, waits]
  unfold Config.cascadeBound admitSteps
  rw [enters]
  dsimp only
  rw [freed]
  rfl

theorem leaveWindow_nil (empty : s.player.window = []) : leaveWindow s = s := by
  unfold leaveWindow
  rw [empty]
  exact congrArg (fun l => { s with player := { s.player with window := l } }) empty.symm

theorem seekWindow_nil (empty : s.player.window = []) : seekWindow s = s := by
  refine seek_none ?_ _
  rw [empty]
  rfl

theorem settle_of_nothing (nothing : NothingAhead s.player) : settle s = s := by
  have looks : lookForWindow false s = (s, s.follow.window.isNone) := by
    unfold lookForWindow
    cases s.follow.window with
    | none => exact Prod.ext (seekWindow_nil nothing.1) rfl
    | some m => rfl
  have quiet : atOnce s s.follow.window.isNone = none := by
    unfold atOnce
    cases s.follow.window <;> rfl
  rw [settle_quiet (t := s) (b := s.follow.window.isNone) (by rw [admitSteps_of_nothing nothing.2]; exact looks) quiet]
  exact leaveWindow_nil nothing.1

/-! ### The search by what it looks at (R65) -/

/-- What the search for a follow point looks at is the same in both parts. -/
structure SeekAlike (s t : State) : Prop where
  follow : t.follow = s.follow
  window : t.player = s.player
  params : t.params = s.params
  now : t.now = s.now

theorem SeekAlike.usable {t : State} (alike : SeekAlike s t) : usable t = usable s := by
  funext w
  unfold Machine.usable
  rw [alike.follow, alike.window]

theorem SeekAlike.placeWindow {t : State} (alike : SeekAlike s t) (prev : Option HymnPos) (point : HymnPos) (index : Nat) :
    placeWindow t prev point index = placeWindow s prev point index := by
  unfold Machine.placeWindow nextDistance
  rw [alike.follow, alike.window, alike.params, alike.now]

theorem SeekAlike.seek : ∀ (n : Nat) {s t : State}, SeekAlike s t → (seek n t).follow = (seek n s).follow
  | 0, _, _, alike => alike.follow
  | n + 1, s, t, alike => by
    by_cases stays : s.follow.state = .OFF ∨ s.follow.window ≠ none
    · rw [seek_stays stays, seek_stays (s := t) (by rwa [alike.follow])]
      exact alike.follow
    obtain ⟨on, held⟩ := not_or.mp stays
    have free := not_not.mp held
    have on' : t.follow.state ≠ .OFF := by rwa [alike.follow]
    have free' : t.follow.window = none := by rwa [alike.follow]
    have finds : t.player.window.find? (Machine.usable t) = s.player.window.find? (Machine.usable s) := by
      rw [alike.window, alike.usable]
    cases found : s.player.window.find? (Machine.usable s) with
    | none =>
      rw [seek_none found, seek_none (finds.trans found)]
      exact alike.follow
    | some w =>
      rw [seek_step on free found, seek_step on' free' (finds.trans found), alike.follow, alike.placeWindow]
      cases Machine.placeWindow s s.follow.prevUsed (stepPos w) w.index with
      | none => exact SeekAlike.seek n ⟨by unfold cursorPast; rw [alike.follow], alike.window, alike.params, alike.now⟩
      | some made =>
        unfold windowMade
        rw [alike.follow]

/-! ### The decision takes effect (R63, R69, R70) -/

theorem changed_eq_false {f g : Follow} :
    changed f g = false ↔ g.anchorTime = f.anchorTime ∧ g.anchor = f.anchor ∧ g.period = f.period := by
  unfold changed
  rw [Bool.not_eq_false', Bool.and_eq_true, Bool.and_eq_true, beq_iff_eq, beq_iff_eq, beq_iff_eq, and_assoc]
  exact ⟨fun ⟨a, b, c⟩ => ⟨a.symm, b.symm, c.symm⟩, fun ⟨a, b, c⟩ => ⟨a.symm, b.symm, c.symm⟩⟩

/-- The decision told, made known where it changes the anchor or the period (R63). -/
def decisionKnown (m : MatchWindow) (s : State) : State :=
  if changed s.follow (followAfterDecision s m).1 then retime (checkLost (decidedBeforeLost m s))
  else checkLost (decidedBeforeLost m s)

theorem exec_windowDecision {dt : Nat} {m : MatchWindow} (live : InService s) (held : s.follow.window = some m)
    (now : m.decides = s.now + BitVec.ofNat 32 dt) :
    exec (.windowDecision dt) s = .next (settle (decisionKnown m (elapse dt s))) := by
  refine (onService_live dt decideNow s live).trans (congrArg _ ?_)
  have held' : (elapse dt s).follow.window = some m := held
  unfold decideNow
  rw [held']
  dsimp only
  rw [due_now (s := elapse dt s) now, if_pos rfl]
  unfold takeDecision decisionKnown
  rw [decideWindow_eq]
  dsimp only
  cases changed (elapse dt s).follow (followAfterDecision (elapse dt s) m).1 <;> rfl

/-- A Follower not in COAST after its decision is not lost. -/
theorem checkLost_decided {m : MatchWindow} (other : (followAfterDecision s m).1.state ≠ .COAST) :
    checkLost (decidedBeforeLost m s) = decidedBeforeLost m s := by
  obtain ⟨_, _, whole⟩ := decidedBeforeLost_eq m s
  have coast : ¬ lostDue (decidedBeforeLost m s) = true := by
    rw [lostDue_iff, whole]
    exact fun due_ => other due_.1
  exact if_neg coast

/-- A decision that leaves the Follower not in COAST writes the Follower, the Onset Queue, the flags and the times
of the schedule alone. -/
theorem decisionKnown_eq {m : MatchWindow} (other : (followAfterDecision s m).1.state ≠ .COAST) :
    ∃ b f k, decisionKnown m s = { s with
        follow := (followAfterDecision s m).1,
        listen := { s.listen with queue := s.listen.queue.filter (fun o => later o.time m.closes), backlog := b },
        flags := f,
        keys := k }
      ∧ k.events.length = s.keys.events.length
      ∧ (changed s.follow (followAfterDecision s m).1 = false → k = s.keys) := by
  obtain ⟨b, f, whole⟩ := decidedBeforeLost_eq m s
  unfold decisionKnown
  rw [checkLost_decided other, whole]
  cases moved : changed s.follow (followAfterDecision s m).1 with
  | false => exact ⟨b, f, s.keys, rfl, rfl, fun _ => rfl⟩
  | true =>
    refine ⟨b, f, _, rfl, ?_, nofun⟩
    show (firmPass _ _ _).events.length = _
    rw [(firmPass_perm _ _ _).length_eq, List.length_map, List.length_map]

theorem nothingAhead_decisionKnown {m : MatchWindow} (nothing : NothingAhead s.player) :
    NothingAhead (decisionKnown m s).player := by
  have told : NothingAhead (checkLost (decidedBeforeLost m s)).player :=
    nothingAhead_checkLost (decidedBeforeLost_player m s ▸ nothing)
  unfold decisionKnown
  split
  · exact told
  · exact told

theorem decisionsAreTold : DecisionsAreTold := by
  intro dt m h s live held time playing order now g f
  refine ⟨checkLost (decidedBeforeLost m now), decisionKnown m now, decisionTold (s := now) playing order,
    fun same => ?_, fun moved => ?_, exec_windowDecision live held time, fun nothing => ?_⟩
  · have stays : changed now.follow (followAfterDecision now m).1 = false := changed_eq_false.mpr same
    unfold decisionKnown
    rw [stays]
    rfl
  · have moves : changed now.follow (followAfterDecision now m).1 = true := by
      rw [← Bool.not_eq_false]
      exact mt changed_eq_false.mp moved
    unfold decisionKnown
    rw [moves]
    rfl
  · exact settle_of_nothing (nothingAhead_decisionKnown (s := now) nothing)

/-- The search that follows a decision with no step read ahead (R65, R70). -/
theorem decision_seeks {dt : Nat} {m : MatchWindow} (live : InService s) (held : s.follow.window = some m)
    (time : m.decides = s.now + BitVec.ofNat 32 dt) (ahead : s.player.readAhead = none)
    (other : (followAfterDecision (elapse dt s) m).1.state ≠ .COAST)
    (quiet : ∀ m', (seekWindow { elapse dt s with follow := (followAfterDecision (elapse dt s) m).1 }).follow.window = some m' →
      later m'.decides (elapse dt s).now = true) :
    ∃ t, exec (.windowDecision dt) s = .next t
      ∧ t.follow = (seekWindow { elapse dt s with follow := (followAfterDecision (elapse dt s) m).1 }).follow
      ∧ t.player = { s.player with window := t.player.window }
      ∧ (∀ w ∈ t.player.window, w ∈ s.player.window) ∧ t.map = s.map ∧ t.keyline = s.keyline := by
  obtain ⟨b, f, k, known, -, -⟩ := decisionKnown_eq (s := elapse dt s) other
  have alike : SeekAlike { elapse dt s with follow := (followAfterDecision (elapse dt s) m).1 }
      (decisionKnown m (elapse dt s)) := by
    rw [known]
    exact ⟨rfl, rfl, rfl, rfl⟩
  have follow := alike.seek (Config.windowPlaces + 1)
  have seeks := onlySeeks_seekWindow (decisionKnown m (elapse dt s))
  have closed : (decisionKnown m (elapse dt s)).follow.window = none := by
    rw [known]
    rfl
  have player : (decisionKnown m (elapse dt s)).player = s.player := by rw [known]; rfl
  have looks : lookForWindow (admitSteps Config.cascadeBound (decisionKnown m (elapse dt s))).2
      (admitSteps Config.cascadeBound (decisionKnown m (elapse dt s))).1
        = (seekWindow (decisionKnown m (elapse dt s)), true) := by
    rw [admitSteps_of_nothing (by rw [player, ahead])]
    unfold lookForWindow
    rw [closed]
  have still_ : atOnce (seekWindow (decisionKnown m (elapse dt s))) true = none := by
    refine atOnce_eq_none (fun m' made => ?_) true
    rw [seeks.now, show (decisionKnown m (elapse dt s)).now = (elapse dt s).now by rw [known]]
    exact quiet m' (by rwa [show (seekWindow _).follow = _ from follow] at made)
  refine ⟨_, exec_windowDecision live held time, ?_, ?_, ?_, ?_, ?_⟩ <;> rw [settle_quiet looks still_]
  · exact follow
  · have kept : (seekWindow (decisionKnown m (elapse dt s))).player = s.player := by
      rw [seeks.eq]
      exact player
    unfold leaveWindow
    dsimp only
    rw [kept]
  · intro w member
    have inside : w ∈ (seekWindow (decisionKnown m (elapse dt s))).player.window := List.mem_of_mem_filter member
    rw [seeks.eq] at inside
    exact player ▸ inside
  · show (seekWindow _).map = _
    rw [seeks.eq, known]
    rfl
  · show (seekWindow _).keyline = _
    rw [seeks.eq, known]
    rfl

/-- Settles O42: the decision writes the Follower, the Onset Queue and the flags; what an event brings with it is
nothing with nothing ahead, and the search alone with no step read ahead. -/
theorem decisionTakesEffect : Obligations.DecisionTakesEffect := by
  refine ⟨fun dt m s live held time nothing other => ?_,
    fun m q => ⟨fun o found => strongest_candidates found, strongest_candidates_eq_none m q⟩,
    fun dt m s live held time ahead => ?_, decisionsAreTold⟩
  · obtain ⟨b, f, k, known, length, same⟩ := decisionKnown_eq (s := elapse dt s) other
    refine ⟨decisionKnown m (elapse dt s), ?_, ?_⟩
    · rw [exec_windowDecision live held time]
      exact congrArg _ (settle_of_nothing (nothingAhead_decisionKnown (s := elapse dt s) nothing))
    · rw [known]
      exact ⟨rfl, rfl, rfl, rfl, rfl, rfl, rfl, rfl, rfl, rfl, rfl, rfl, length, same⟩
  · intro decided other quiet
    exact decision_seeks live held time ahead other quiet

end Sys2Proof.Proofs
end

section
/-! PROOFS. The end of the last played section (O47). -/

namespace Sys2Proof.Proofs

open Sys2Proof.Machine Sys2Proof.Laws Sys2Proof.Claims

variable {s : State}

/-! ### The end of a section (R90, R92, R101) -/

/-- No section follows section `n` of plan `pl` (R90, R101). -/
def LastSection (n : Nat) (pl : Plan) : Prop :=
  n = 13 ∨ (pl.amen = false ∧ ∀ e ∈ pl.entries, n < e.verse → e.mode = .OMIT)

theorem nextSection_of_last {n : Nat} {pl : Plan} (last : LastSection n pl) (introGap : Nat) :
    nextSection introGap pl n = none := by
  unfold nextSection
  obtain amen | ⟨amen, omits⟩ := last
  · exact if_pos amen
  · have none_ : pl.entries.find? (fun e => decide (n < e.verse) && e.mode != .OMIT) = none := by
      refine List.find?_eq_none.mpr fun e member => ?_
      simpa using omits e member
    rw [none_, amen]
    exact ite_self none

/-- Section `n` has ended: its unplanned steps, those that wait for a release and the read-ahead step are gone
(R97, R101). -/
def sectionLeft (n : Nat) (s : State) : State :=
  { s with player := { s.player with window := s.player.window.filter (staysPastEnd n), readAhead := none } }

theorem endSection_of_next {n k : Nat} {pl : Plan} {g : Gap} (plan : s.player.plan = some pl)
    (next : nextSection s.params.introGap pl n = some (k, g)) :
    endSection n s = enterGap k g (fixSection k (sectionLeft n s)) := by
  have bound : s.player.plan.bind (fun pl => nextSection s.params.introGap pl n) = some (k, g) := by
    rw [plan]
    exact next
  unfold endSection
  dsimp only
  rw [bound]
  rfl

theorem endSection_of_last {n : Nat} {pl : Plan} (plan : s.player.plan = some pl) (last : LastSection n pl) :
    endSection n s = { passOverBelow 13 (sectionLeft n s) with
      player := { (passOverBelow 13 (sectionLeft n s)).player with state := .ENDING } } := by
  have bound : s.player.plan.bind (fun pl => nextSection s.params.introGap pl n) = none := by
    rw [plan]
    exact nextSection_of_last last _
  unfold endSection
  dsimp only
  rw [bound]
  rfl

/-- The passing over of OMIT verses writes the reservation, the plan and the flags alone. -/
theorem overPassed_eq (k : Nat) (pl : Plan) (s : State) : ∃ r f, overPassed k pl s = { s with
    player := { s.player with
      reservation := r,
      plan := some { pl with entries := pl.entries.map (fun e =>
        if e.verse < k ∧ e.mode = .OMIT then { e with latched := true } else e) } },
    flags := f } := by
  unfold overPassed
  dsimp only
  cases s.player.reservation with
  | NONE => exact ⟨_, s.flags, rfl⟩
  | LOST => exact ⟨_, s.flags, rfl⟩
  | HELD r =>
    dsimp only
    split_ifs
    · exact ⟨_, _, rfl⟩
    · exact ⟨_, s.flags, rfl⟩

theorem overPassed_state (k : Nat) (pl : Plan) (x : PlayerState) (s : State) :
    ({ overPassed k pl s with player := { (overPassed k pl s).player with state := x } } : State)
      = overPassed k pl { s with player := { s.player with state := x } } := by
  unfold overPassed
  dsimp only
  cases s.player.reservation with
  | NONE | LOST => rfl
  | HELD r =>
    dsimp only
    split_ifs <;> rfl

/-- The part at the end of the last section, in ENDING (R92, R101). -/
def hymnEnding (n : Nat) (pl : Plan) (s : State) : State :=
  overPassed 13 pl { s with player := { s.player with
    state := .ENDING, readAhead := none, window := s.player.window.filter (staysPastEnd n) } }

theorem endSection_hymnEnding {n : Nat} {pl : Plan} (plan : s.player.plan = some pl) (numbered : PlanNumbered pl)
    (last : LastSection n pl) : endSection n s = hymnEnding n pl s := by
  rw [endSection_of_last plan last, passOverBelow_eq (s := sectionLeft n s) 13 plan numbered, overPassed_state]
  rfl

theorem exec_sectionEnd {dt n : Nat} (live : InService s) (sec : s.player.sec = some n)
    (due_ : sectionEndDue (elapse dt s) = true) :
    exec (.sectionEnd dt) s = .next (follows (endSection n (elapse dt s))) := by
  refine (onService_live dt sectionEndNow s live).trans (congrArg _ ?_)
  have sec' : (elapse dt s).player.sec = some n := sec
  unfold sectionEndNow
  rw [sec']
  dsimp only
  rw [due_]
  exact if_pos rfl

/-! ### ENDING, and IDLE at once (R103) -/

theorem nextAtOnce_of_ending {n : Nat} (pl : Plan) (waits : s.player.wait = none)
    (busy : s.keys.events ≠ [] ∨ anyDown s.map = true) : nextAtOnce (hymnEnding n pl s) = none := by
  obtain ⟨r, f, ended⟩ := overPassed_eq 13 pl { s with player := { s.player with
    state := .ENDING, readAhead := none, window := s.player.window.filter (staysPastEnd n) } }
  have keys : (hymnEnding n pl s).keys = s.keys := by rw [hymnEnding, ended]
  have map : (hymnEnding n pl s).map = s.map := by rw [hymnEnding, ended]
  have state : (hymnEnding n pl s).player.state = .ENDING := by rw [hymnEnding, ended]
  have wait : (hymnEnding n pl s).player.wait = none := by
    rw [hymnEnding, ended]
    exact waits
  have outside : inSection (hymnEnding n pl s).player = false := by simp [inSection, state]
  refine nextAtOnce_eq_none ?_ ?_ (gapDue_of_state (by rw [state]; nofun)) (fermataBackDue_of_state (by rw [state]; nofun))
    (fermataDue_of_outside outside) (sectionEndDue_of_outside outside)
  · unfold idleDue
    rw [keys, map]
    obtain held | down := busy
    · simp [held]
    · simp [down]
  · intro w held
    rw [wait] at held
    exact (Option.some_ne_none _ held.symm).elim

theorem nextAtOnce_of_idle (state : s.player.state = .IDLE) (waits : s.player.wait = none) : nextAtOnce s = none := by
  have outside : inSection s.player = false := by simp [inSection, state]
  refine nextAtOnce_eq_none (idleDue_of_state (by rw [state]; nofun) (by rw [state]; nofun)) ?_
    (gapDue_of_state (by rw [state]; nofun)) (fermataBackDue_of_state (by rw [state]; nofun))
    (fermataDue_of_outside outside) (sectionEndDue_of_outside outside)
  intro w held
  rw [waits] at held
  exact (Option.some_ne_none _ held.symm).elim

/-- With no key event and no key down the hymn has ended at once. -/
theorem follows_of_done (state : s.player.state = .ENDING) (events : s.keys.events = []) (silent : anyDown s.map = false) :
    follows s = becomeIdle s := by
  have done : idleDue s = true := by simp [idleDue, state, events, silent]
  have next : nextAtOnce s = some (becomeIdle s) := by
    unfold nextAtOnce
    exact if_pos done
  refine follows_of_once next ?_
  obtain ⟨_, _, idle⟩ := becomeIdle_eq s
  rw [idle]
  exact nextAtOnce_of_idle rfl rfl

/-- Settles O47: no section follows, so the Player is in ENDING, from which the return to IDLE follows at once where
nothing is left to send and no key is down. -/
theorem lastSectionEndsInEnding : Obligations.LastSectionEndsInEnding := by
  intro dt n pl s live sec due_ waits plan numbered last now ended
  have ends : exec (.sectionEnd dt) s = .next (follows ended) := by
    rw [exec_sectionEnd live sec due_, endSection_hymnEnding (s := elapse dt s) plan numbered last]
    rfl
  refine ⟨fun busy => ?_, fun m sl events silent slot held canonical critical => ?_⟩
  · rw [ends]
    exact congrArg _ (follows_of_none (nextAtOnce_of_ending (s := elapse dt s) pl waits busy))
  · obtain ⟨r, f, written⟩ := overPassed_eq 13 pl { elapse dt s with player := { s.player with
      state := .ENDING, readAhead := none, window := s.player.window.filter (staysPastEnd n) } }
    have ended_eq : ended = _ := written
    obtain ⟨ready, others, slots⟩ := setSlotState_spec .READY held canonical
    refine ⟨setSlotState m .READY s.store, ?_, ready, others, slots⟩
    rw [ends, follows_of_done (by rw [ended_eq]) (by rw [ended_eq]; exact events) (by rw [ended_eq]; exact silent),
      becomeIdle_exact (n := m) (sl := sl) (by rw [ended_eq]; exact slot) (by rw [ended_eq]; exact held)
        (by rw [ended_eq]; exact critical), ended_eq]
    rfl

end Sys2Proof.Proofs
end

section
/-! PROOFS. The parameters: bounds, values, and what a new value brings about at once (O14). -/

namespace Sys2Proof.Proofs

open Sys2Proof.Machine Sys2Proof.Laws Sys2Proof.Claims

variable {s : State}

/-! ### A wait resumed with nothing ahead (R83, R108) -/

/-- The part with the wait `w` resumed at now, the fence lifted and the Follower rebased to `t` (R108). -/
def resumed (w : Wait) (t : Time) (byOnset : Bool) (s : State) : State :=
  liftAndRebase t w.resume { s with player := { s.player with
    wait := some { w with phase := .BREATH, breathEnd := t, began := s.now, byOnset := byOnset } } }

theorem resumeWait_eq (w : Wait) (t : Time) (byOnset : Bool) (s : State) : resumeWait w t byOnset s
    = settle (if w.kind = .fermata then resumed w t byOnset s else beginWalk w.resume.sec (resumed w t byOnset s)) := rfl

theorem rebase_player (t : Time) (p : HymnPos) (s : State) : (rebase t p s).player = s.player := by
  unfold rebase
  split <;> rfl

theorem resumed_player (w : Wait) (t : Time) (byOnset : Bool) (s : State) : (resumed w t byOnset s).player
    = { s.player with
        wait := some { w with phase := .BREATH, breathEnd := t, began := s.now, byOnset := byOnset },
        fence := .NONE } :=
  rebase_player _ _ _

theorem resumed_follow (w : Wait) (t : Time) (byOnset : Bool) (on : s.follow.state ≠ .OFF) :
    (resumed w t byOnset s).follow = rebasedFollow t w.resume s.follow :=
  rebase_follow t w.resume on

/-- A rebase writes the Follower and the key events alone. -/
theorem resumed_eq (w : Wait) (t : Time) (byOnset : Bool) (s : State) : resumed w t byOnset s = { s with
    player := (resumed w t byOnset s).player,
    follow := (resumed w t byOnset s).follow,
    keys := (resumed w t byOnset s).keys } := by
  unfold resumed liftAndRebase rebase
  split <;> rfl

theorem resumeWait_of_nothing {w : Wait} (fermata : w.kind = .fermata) (nothing : NothingAhead s.player) (t : Time)
    (byOnset : Bool) : resumeWait w t byOnset s = resumed w t byOnset s := by
  rw [resumeWait_eq, if_pos fermata]
  refine settle_of_nothing ?_
  rw [resumed_player]
  exact nothing

/-- While a breath runs, nothing follows at once. -/
theorem nextAtOnce_of_breathing {w : Wait} (ending : s.player.state ≠ .ENDING) (stopping : s.player.state ≠ .STOPPING)
    (stands : s.player.wait = some w) (breath : w.phase = .BREATH) (runs : due s w.breathEnd = false) : nextAtOnce s = none := by
  have minimum : waitIn s.player .MINIMUM = none := by
    unfold waitIn
    rw [stands]
    exact if_neg (by rw [breath]; nofun)
  have inBreath : waitIn s.player .BREATH = some w := waitIn_eq_some_iff.mpr ⟨stands, breath⟩
  unfold nextAtOnce
  rw [idleDue_of_state ending stopping, minimum, inBreath, if_neg Bool.false_ne_true]
  dsimp only
  rw [runs]
  rfl

theorem resumedFermata {w : Wait} (s : State) :
    ResumedFermata s.now w s (resumed w (timePlus s.now s.params.breath) false s) := by
  refine ⟨resumed_player _ _ _ _, fun on => ?_, ?_, ?_, ?_, ?_, ?_⟩
  · rw [resumed_follow w _ false on]
    exact ⟨rfl, rfl, rfl, rfl, rfl, rfl, rfl, rfl, rfl⟩
  all_goals rw [resumed_eq]

/-- A wait resumed with a breath ahead: nothing follows at once. -/
theorem follows_resumed {w : Wait} (ending : s.player.state ≠ .ENDING) (stopping : s.player.state ≠ .STOPPING)
    (low : 0 < s.params.breath) (high : s.params.breath ≤ 10000) (byOnset : Bool) :
    follows (resumed w (timePlus s.now s.params.breath) byOnset s) = resumed w (timePlus s.now s.params.breath) byOnset s := by
  refine follows_of_none (nextAtOnce_of_breathing (by rwa [resumed_player]) (by rwa [resumed_player])
    (congrArg Player.wait (resumed_player w _ byOnset s)) rfl ?_)
  have now : (resumed w (timePlus s.now s.params.breath) byOnset s).now = s.now := by rw [resumed_eq]
  unfold due
  rw [now]
  exact due_timePlus (u := s) (by omega) (by omega)

/-! ### The tables of the parameters (Table 11.1, R182) -/

theorem paramBounds_of_plain {n lo hi : Nat} (plain : plainBounds n = some (lo, hi)) (s : State) :
    paramBounds s n = (lo, hi) ∧ (1 ≤ n ∧ n ≤ 28) ∧ n ≠ 11 ∧ n ≠ 16 ∧ n ≠ 19 ∧ n ≠ 28 ∧ isChoice n = false
      ∧ ∀ t : State, actAtOnce n t = t := by
  unfold plainBounds at plain
  split at plain <;> cases plain
  all_goals exact ⟨rfl, by omega, by omega, by omega, by omega, by omega, rfl, fun _ => rfl⟩

theorem paramBounds_of_acting {n lo hi : Nat} (acting : actingBounds s n = some (lo, hi)) :
    paramBounds s n = (lo, hi) ∧ (1 ≤ n ∧ n ≤ 28) ∧ n ≠ 16 ∧ n ≠ 19 ∧ n ≠ 21
      ∧ (isChoice n = true → n = 9 ∨ n = 26 ∨ n = 27) := by
  unfold actingBounds at acting
  split at acting <;> cases acting
  all_goals exact ⟨rfl, by omega, by omega, by omega, by omega, by simp [isChoice]⟩

/-- The parameters in the order of their numbers, 0 where a number names none of these (Table 11.1). -/
def paramList (p : Params) : List Nat :=
  [0, p.choirLag, p.halfWidth, p.phaseGain, p.periodGain, p.matchLimit, p.lockCount, p.missLimit, p.lostAfter,
    boolNumber p.finishVerse, p.horizon, p.firmLead, p.breath, p.maxWait, p.fermataCap, p.introGap, 0, p.echoLimit,
    p.recoverCount, p.cipherLimit, p.stopSettle, boolNumber p.enable, p.margin, p.refractory, p.smin, p.leakLimit,
    boolNumber p.acceptMixed, p.rejectSet.toNat, p.critical]

theorem paramOf_eq (p : Params) (n : Nat) : paramOf p n = (paramList p).getD n 0 := by
  by_cases known : n < 29
  · interval_cases n <;> rfl
  · have none_ : (paramList p).length ≤ n := not_lt.mp known
    rw [List.getD_eq_default _ _ none_]
    unfold paramOf
    split <;> omega

/-- A parameter is written in its own place, but for the cipher limit, which takes the fermata cap with it (R182). -/
theorem paramList_putParam {n : Nat} (v : Nat) (p : Params) (known : 1 ≤ n ∧ n ≤ 28) (cipher : n ≠ 19) :
    ∃ x, paramList (putParam n v p) = (paramList p).set n x := by
  obtain ⟨low, high⟩ := known
  obtain below | above := Nat.lt_or_gt_of_ne cipher
  · interval_cases n <;> exact ⟨_, rfl⟩
  · interval_cases n <;> exact ⟨_, rfl⟩

theorem paramOf_putParam_other {n m : Nat} (v : Nat) (p : Params) (known : 1 ≤ n ∧ n ≤ 28) (cipher : n ≠ 19)
    (other : m ≠ n) : paramOf (putParam n v p) m = paramOf p m := by
  obtain ⟨x, written⟩ := paramList_putParam v p known cipher
  rw [paramOf_eq, paramOf_eq, written]
  simp [List.getD_eq_getElem?_getD, List.getElem?_set_ne other.symm]

theorem paramOf_putParam_plain {n lo hi : Nat} (plain : plainBounds n = some (lo, hi)) (v : Nat) (p : Params) :
    paramOf (putParam n v p) n = v := by
  unfold plainBounds at plain
  split at plain <;> cases plain
  all_goals rfl

theorem paramOf_putParam_acting {n lo hi v : Nat} (acting : actingBounds s n = some (lo, hi)) (within : v ≤ hi) (p : Params) :
    paramOf (putParam n v p) n = v := by
  unfold actingBounds at acting
  split at acting <;> cases acting
  case h_4 | h_8 => interval_cases v <;> rfl
  case h_9 => exact Nat.mod_eq_of_lt (Nat.lt_succ_of_le within)
  all_goals rfl

/-! ### The tests and the value taken (R181) -/

section
variable {n lo hi : Nat} {v : Int}

/-- The value that R181 takes within the bounds `lo` and `hi`. -/
def limited (lo hi : Nat) (v : Int) : Nat := if v < lo then lo else if (hi : Int) < v then hi else v.toNat

theorem clampParam_eq (bounds : paramBounds s n = (lo, hi)) : clampParam n v s = limited lo hi v := by
  unfold clampParam clampInt limited
  rw [bounds]
  split_ifs <;> simp

theorem limited_le (order : lo ≤ hi) (v : Int) : limited lo hi v ≤ hi := by
  unfold limited
  split_ifs <;> omega

theorem paramRefused_eq_none (known : 1 ≤ n ∧ n ≤ 28) (idle : n = 11 → s.player.state = .IDLE) (enable : n ≠ 21)
    (choice : isChoice n = true → 0 ≤ v ∧ v ≤ (paramBounds s n).2) : paramRefused n v s = none := by
  have away : ¬ (n = 11 ∧ s.player.state ≠ .IDLE) := fun walks => walks.2 (idle walks.1)
  have free : ¬ (n = 21 ∧ v = 0 ∧ s.keyline.state ≠ .OFF ∧ mayDisable s = false) := fun off => enable off.1
  have inRange : ¬ (isChoice n = true ∧ ¬ (0 ≤ v ∧ v ≤ (paramBounds s n).2)) := fun bad => bad.2 (choice bad.1)
  unfold paramRefused
  rw [if_neg (not_not.mpr known), if_neg away, if_neg free, if_neg inRange]

theorem takeParam_eq (interval : n ≠ 16) (enable : n ≠ 21) (x : Nat) : takeParam n x s
    = if n = 28 then judgeBacklog { s with params := putParam n x s.params }
      else if paramOf s.params n = x then { s with params := putParam n x s.params }
      else actAtOnce n { s with params := putParam n x s.params } := by
  unfold takeParam paramValue
  exact (if_neg interval).trans ((if_neg enable).trans (by rw [if_neg (show ¬ n = frameIntervalNumber from interval)]))

theorem answerGetParam_eq (bounds : paramBounds s n = (lo, hi)) (known : 1 ≤ n ∧ n ≤ 28) (interval : n ≠ 16) :
    answerGetParam n s = ⟨.OK, u8 n ++ i32 (paramOf s.params n) ++ i32 (paramOf paramDefaults n) ++ i32 lo ++ i32 hi, s⟩ := by
  have value : paramValue s n = paramOf s.params n := if_neg interval
  have default : paramDefault n = paramOf paramDefaults n := if_neg interval
  unfold answerGetParam
  rw [if_neg (not_not.mpr known), value, default, bounds, if_neg (show ¬ n = frameIntervalNumber from interval),
    List.append_nil]

/-- The row of an accepted SET_PARAM of a parameter but the cipher limit, and what it leaves of the link. -/
theorem exec_setParam {dt : Nat} {tag : Byte} {t : State} (idle : LinkIdle s)
    (accepted : paramRefused n v (withQueued (.setParam n v) tag (elapse dt s)) = none)
    (bounds : paramBounds s n = (lo, hi)) (cipher : n ≠ 19)
    (takes : takeParam n (limited lo hi v) (withQueued (.setParam n v) tag (elapse dt s)) = t)
    (link : t.link = (withQueued (.setParam n v) tag (elapse dt s)).link) :
    exec (.setParam dt tag n v) s = .next (replied (.setParam n v) tag
      (if ((limited lo hi v : Nat) : Int) = v then .OK else .CLAMPED) (u8 n ++ i32 (limited lo hi v)) { t with link := s.link }) := by
  refine onService_request_answered (r := .setParam n v) idle ?_ link
  refine (answerSetParam_taken accepted (clampParam_eq (s := withQueued (.setParam n v) tag (elapse dt s)) bounds)).trans ?_
  rw [if_neg cipher, List.append_nil, takes]

end

/-! ### What a new value brings about at once (R183) -/

theorem link_reconsiderWindow : (reconsiderWindow s).link = s.link := by
  unfold reconsiderWindow
  split
  · split_ifs
    · dsimp only
      split
      · exact (still_takeDecision _ _).frame.link.trans (still_recompute s).frame.link
      · exact (still_recompute s).frame.link
    · rfl
  · rfl

theorem link_actAtOnce (n : Nat) : (actAtOnce n s).link = s.link := by
  unfold actAtOnce
  split
  · exact link_reconsiderWindow
  · exact link_reconsiderWindow
  · exact (still_checkLost s).frame.link
  · split
    · exact (frame_follows _).link.trans (still_resumeWait _ _ _ _).frame.link
    · rfl
  · rfl
  · rfl

theorem link_takeParam {n : Nat} (interval : n ≠ 16) (enable : n ≠ 21) (x : Nat) : (takeParam n x s).link = s.link := by
  rw [takeParam_eq interval enable]
  split_ifs
  · obtain ⟨_, _, judged⟩ := judgeBacklog_eq { s with params := putParam n x s.params }
    rw [judged]
  · rfl
  · exact link_actAtOnce n

theorem takeParam_of_still {n : Nat} (interval : n ≠ 16) (enable : n ≠ 21) (critical : n ≠ 28)
    (still_ : ∀ t : State, actAtOnce n t = t) (x : Nat) :
    takeParam n x s = { s with params := putParam n x s.params } := by
  rw [takeParam_eq interval enable, if_neg critical, still_, ite_self]

theorem takeParam_of_same {n x : Nat} (interval : n ≠ 16) (enable : n ≠ 21) (critical : n ≠ 28)
    (same : paramOf s.params n = x) : takeParam n x s = { s with params := putParam n x s.params } := by
  rw [takeParam_eq interval enable, if_neg critical, if_pos same]

theorem takeParam_of_new {n x : Nat} (interval : n ≠ 16) (enable : n ≠ 21) (critical : n ≠ 28)
    (new : paramOf s.params n ≠ x) : takeParam n x s = actAtOnce n { s with params := putParam n x s.params } := by
  rw [takeParam_eq interval enable, if_neg critical, if_neg new]

theorem reconsiderWindow_of_standing (stands : ∀ m, s.follow.window = some m → m.phase ≠ .PENDING) :
    reconsiderWindow s = s := by
  unfold reconsiderWindow
  cases held : s.follow.window with
  | none => rfl
  | some m => exact if_neg (stands m held)

/-- R68: a PENDING window computed again, to be decided later than now. -/
theorem reconsiderWindow_of_placed {m m' : MatchWindow} (held : s.follow.window = some m) (pending : m.phase = .PENDING)
    (placed : PlacedAround s m.prevBefore m.point m.index (some m')) (ahead : later m'.decides s.now = true) :
    reconsiderWindow s = { s with follow := { s.follow with window := some m' } } := by
  have again := (windowsArePlaced.2.2 s m held pending).1 m' placed
  have quiet : atOnce { s with follow := { s.follow with window := some m' } } true = none := by
    refine atOnce_eq_none (fun x made => ?_) true
    cases made
    exact ahead
  unfold reconsiderWindow
  rw [held]
  dsimp only
  rw [if_pos pending, again, quiet]

theorem checkLost_eq (keeps : s.params.finishVerse = false) : checkLost s =
    if s.follow.state = .COAST ∧ s.follow.lost = false ∧ later (timePlus s.follow.lastMatch s.params.lostAfter) s.now = false then
      raise (.choirLost s.follow.lastMatch s.follow.anchor) { s with follow := { s.follow with lost := true } }
    else s := by
  have lost : lostDue s = true ↔ s.follow.state = .COAST ∧ s.follow.lost = false
      ∧ later (timePlus s.follow.lastMatch s.params.lostAfter) s.now = false := by
    rw [lostDue_iff, due_iff]
    rfl
  have stays : ¬ s.params.finishVerse = true := by rw [keeps]; nofun
  unfold checkLost
  split_ifs with due_ told told
  · exact if_neg stays
  · exact absurd (lost.mp due_) told
  · exact absurd (lost.mpr told) due_
  · rfl

theorem maxWaitDue_eq_some {w : Wait} : maxWaitDue s = some w ↔ s.player.wait = some w ∧ w.phase = .WAITING
    ∧ 0 < s.params.maxWait ∧ later (timePlus w.start s.params.maxWait) s.now = false := by
  unfold maxWaitDue
  cases waits : waitIn s.player .WAITING with
  | none =>
    refine ⟨fun none_ => (Option.some_ne_none w none_.symm).elim, fun ⟨stands, phase, _⟩ => ?_⟩
    rw [waitIn_eq_some_iff.mpr ⟨stands, phase⟩] at waits
    cases waits
  | some w' =>
    obtain ⟨stands, phase⟩ := waitIn_eq_some_iff.mp waits
    dsimp only
    unfold maxWaitEnd
    by_cases limited : s.params.maxWait = 0
    · rw [if_pos limited]
      exact ⟨fun none_ => (Option.some_ne_none w none_.symm).elim, fun ⟨_, _, positive, _⟩ => absurd limited (Nat.ne_of_gt positive)⟩
    · rw [if_neg limited]
      dsimp only
      constructor
      · intro expires
        split_ifs at expires with due_
        cases expires
        exact ⟨stands, phase, Nat.pos_of_ne_zero limited, (due_iff _ _).mp due_⟩
      · rintro ⟨stands', -, -, expired⟩
        cases stands.symm.trans stands'
        exact if_pos ((due_iff _ _).mpr expired)

theorem actAtOnce_maxWait (s : State) : actAtOnce 13 s = ((maxWaitDue s).map fun w => expireMaxWait w s).getD s := by
  have acts : actAtOnce 13 s = match maxWaitDue s with
    | some w => expireMaxWait w s
    | none => s := rfl
  rw [acts]
  cases maxWaitDue s <;> rfl

/-- R108: the max wait expires with nothing ahead. -/
theorem expireMaxWait_of_nothing {w : Wait} (state : s.player.state = .FERMATA) (fermata : w.kind = .fermata)
    (nothing : NothingAhead s.player) (low : 0 < s.params.breath) (high : s.params.breath ≤ 10000) :
    expireMaxWait w s = resumed w (timePlus s.now s.params.breath) false s := by
  unfold expireMaxWait breathTime
  rw [resumeWait_of_nothing fermata nothing]
  exact follows_resumed (by rw [state]; nofun) (by rw [state]; nofun) low high false

/-! ### The acting parameters (R56, R68, R80, R108, R182) -/

/-- A queued request changes no judgement of backlog. -/
theorem judgeBacklog_withQueued (r : Request) (tag : Byte) (s : State) :
    { judgeBacklog (withQueued r tag s) with link := s.link } = judgeBacklog s := by
  by_cases full : (!s.listen.backlog && decide (s.params.critical ≤ s.listen.queue.length)) = true
  · have judged : judgeBacklog s = _ := if_pos full
    have judged' : judgeBacklog (withQueued r tag s) = _ := if_pos full
    rw [judged, judged']
    rfl
  · by_cases low : (s.listen.backlog && decide (s.listen.queue.length < s.params.critical / 2)) = true
    · have judged : judgeBacklog s = _ := (if_neg full).trans (if_pos low)
      have judged' : judgeBacklog (withQueued r tag s) = _ := (if_neg full).trans (if_pos low)
      rw [judged, judged']
      rfl
    · have judged : judgeBacklog s = s := (if_neg full).trans (if_neg low)
      have judged' : judgeBacklog (withQueued r tag s) = withQueued r tag s := (if_neg full).trans (if_neg low)
      rw [judged, judged']
      rfl

theorem actingParametersAreTaken : ActingParametersAreTaken := by
  intro dt n lo hi v tag s idle acting order choice walks x now
  obtain ⟨bounds, known, interval, cipher, enable, choices⟩ := paramBounds_of_acting acting
  let u := withQueued (.setParam n v) tag (elapse dt s)
  have accepted : paramRefused n v u = none := by
    refine paramRefused_eq_none known walks enable fun chosen => ?_
    rw [show paramBounds u n = (lo, hi) from bounds]
    exact choice (choices chosen)
  have within : x ≤ hi := limited_le order v
  refine ⟨putParam n x s.params, { takeParam n x u with link := s.link },
    exec_setParam idle accepted bounds cipher rfl (link_takeParam interval enable _), paramOf_putParam_acting acting within _,
    fun m other => paramOf_putParam_other x _ known cipher other, ?_, ?_, ?_, ?_, ?_, ?_⟩
  · intro still_
    have critical : n ≠ 28 := by omega
    rw [takeParam_of_still interval enable critical]
    · rfl
    · intro t
      obtain rfl | rfl | rfl | rfl | rfl := still_ <;> rfl
  · intro same critical
    rw [takeParam_of_same (s := u) interval enable critical same.symm]
    rfl
  · rintro rfl
    have judged : takeParam 28 x u = judgeBacklog (withQueued (.setParam 28 v) tag { elapse dt s with params := putParam 28 x s.params }) := rfl
    rw [judged]
    have stripped := judgeBacklog_withQueued (.setParam 28 v) tag { elapse dt s with params := putParam 28 x s.params }
    rw [show ({ judgeBacklog (withQueued (.setParam 28 v) tag { elapse dt s with params := putParam 28 x s.params }) with
      link := s.link } : State) = _ from stripped]
    exact backlogJudged _
  · intro widths new
    have critical : n ≠ 28 := by omega
    have acts : takeParam n x u = reconsiderWindow { u with params := putParam n x s.params } := by
      rw [takeParam_of_new (s := u) interval enable critical (Ne.symm new)]
      obtain rfl | rfl := widths <;> rfl
    rw [acts]
    refine ⟨fun stands => ?_, fun m m' held pending placed ahead => ?_⟩
    · rw [reconsiderWindow_of_standing (s := { u with params := putParam n x s.params }) stands]
      rfl
    · rw [reconsiderWindow_of_placed (s := { u with params := putParam n x s.params }) held pending (by exact placed) ahead]
      rfl
  · rintro rfl new keeps
    have acts : takeParam 8 x u = checkLost { u with params := putParam 8 x s.params } :=
      takeParam_of_new (s := u) interval enable (by omega) (Ne.symm new)
    rw [acts, checkLost_eq (s := { u with params := putParam 8 x s.params }) keeps]
    dsimp only
    split_ifs with lost told told
    · rfl
    · exact absurd lost told
    · exact absurd told lost
    · rfl
  · rintro rfl new
    have acts : takeParam 13 x u = actAtOnce 13 { u with params := putParam 13 x s.params } :=
      takeParam_of_new (s := u) interval enable (by omega) (Ne.symm new)
    rw [acts]
    refine ⟨fun rests => ?_, fun w state stands fermata phase nothing low high positive expired => ?_⟩
    · have none_ : maxWaitDue { u with params := putParam 13 x s.params } = none := by
        refine Option.eq_none_iff_forall_ne_some.mpr fun w expires => ?_
        obtain ⟨stands, phase, positive, expired⟩ := maxWaitDue_eq_some.mp expires
        exact absurd ((rests w stands phase positive).symm.trans expired) nofun
      rw [actAtOnce_maxWait, none_]
      rfl
    · have expires : maxWaitDue { u with params := putParam 13 x s.params } = some w :=
        maxWaitDue_eq_some.mpr ⟨stands, phase, positive, expired⟩
      rw [actAtOnce_maxWait, expires, Option.map_some, Option.getD_some,
        expireMaxWait_of_nothing (s := { u with params := putParam 13 x s.params }) state fermata nothing low high]
      obtain ⟨player, follow, map, keyline, listen, store, flags⟩ := resumedFermata (w := w) { u with params := putParam 13 x s.params }
      exact ⟨⟨player, follow, map, keyline, listen, store, flags⟩, by rw [resumed_eq]⟩

/-! ### The cipher limit (R146, R182), and the obligation -/

theorem keyEntry_pullInDeadlines (s : State) (d : Division) (k : Nat) : keyEntry (pullInDeadlines s).map d k
    = pullIn (timePlus s.now s.params.cipherLimit) (keyEntry s.map d k) := by
  unfold keyEntry pullInDeadlines Table.get
  dsimp only
  rw [readCells_mapValue rfl]

theorem pullIn_deadline {bound : Time} {e : KeyEntry} (down : (!e.holders.isEmpty) = true) :
    (pullIn bound e).deadline = if later e.deadline bound = true then bound else e.deadline := by
  unfold pullIn
  rw [down, Bool.true_and]
  split <;> rfl

/-- SET_PARAM of the cipher limit (R146, R181, R182). -/
theorem cipherLimit_taken (dt : Nat) (v : Int) (tag : Byte) (s : State) (idle : LinkIdle s) :
    let x := limited 40000 300000 v
    let bound := timePlus (s.now + BitVec.ofNat 32 dt) x
    ∃ t, exec (.setParam dt tag 19 v) s = .next (replied (.setParam 19 v) tag
        (if (x : Int) = v then .OK else .CLAMPED) (u8 19 ++ i32 x ++ u32 t.params.fermataCap) t)
      ∧ t.params = { s.params with cipherLimit := x, fermataCap := min s.params.fermataCap (x - 10000) }
      ∧ (x = s.params.cipherLimit → t.map = s.map)
      ∧ (∀ d k, (keyEntry t.map d k).holders = (keyEntry s.map d k).holders)
      ∧ (x ≠ s.params.cipherLimit → ∀ d k, keyDown s.map d k = true → (keyEntry t.map d k).deadline
          = if later (keyEntry s.map d k).deadline bound = true then bound
            else (keyEntry s.map d k).deadline)
      ∧ t = { elapse dt s with params := t.params, map := t.map }
      ∧ t.map.stops = s.map.stops ∧ t.map.expression = s.map.expression := by
  intro x bound
  let u : State := { elapse dt s with params := putParam 19 x s.params }
  have accepted : paramRefused 19 v (withQueued (.setParam 19 v) tag (elapse dt s)) = none :=
    paramRefused_eq_none (by omega) nofun (by omega) nofun
  have answered (t : State) (takes : takeParam 19 x (withQueued (.setParam 19 v) tag (elapse dt s))
      = withQueued (.setParam 19 v) tag t) : exec (.setParam dt tag 19 v) s = .next (replied (.setParam 19 v) tag
        (if (x : Int) = v then .OK else .CLAMPED) (u8 19 ++ i32 x ++ u32 t.params.fermataCap) t) := by
    refine onService_request_replied (r := .setParam 19 v) idle ?_
    refine (answerSetParam_taken accepted (clampParam_eq (lo := 40000) (hi := 300000) rfl)).trans ?_
    rw [if_pos rfl, show takeParam 19 (limited 40000 300000 v) _ = _ from takes]
    rfl
  by_cases same : s.params.cipherLimit = x
  · refine ⟨u, answered u (takeParam_of_same (by omega) (by omega) (by omega) same), rfl, fun _ => rfl, fun _ _ => rfl,
      fun new => absurd same.symm new, rfl, rfl, rfl⟩
  · refine ⟨pullInDeadlines u, answered _ (takeParam_of_new (by omega) (by omega) (by omega) same), rfl,
      fun old => absurd old.symm same, fun d k => ?_, fun _ d k down => ?_, rfl, rfl, rfl⟩
    · rw [keyEntry_pullInDeadlines, pullIn_holders]
      rfl
    · rw [keyEntry_pullInDeadlines]
      exact pullIn_deadline down

theorem paramRefused_unknown {n : Nat} (unknown : n = 0 ∨ 28 < n) (v : Int) : paramRefused n v s = some .BAD_FIELD := by
  unfold paramRefused
  exact if_pos (by omega)

theorem paramRefused_lead (walks : s.player.state ≠ .IDLE) {v : Int} : paramRefused 11 v s = some .WRONG_STATE := by
  unfold paramRefused
  rw [if_neg (by omega), if_pos ⟨rfl, walks⟩]

theorem paramRefused_choice {n : Nat} {v : Int} (choice : isChoice n = true) (known : 1 ≤ n ∧ n ≤ 28) (lead : n ≠ 11)
    (bad : ¬ (0 ≤ v ∧ v ≤ (paramBounds s n).2)) (off : v ≠ 0) : paramRefused n v s = some .BAD_FIELD := by
  unfold paramRefused
  rw [if_neg (not_not.mpr known), if_neg (fun walks => lead walks.1), if_neg (fun enable => off enable.2.1), if_pos ⟨choice, bad⟩]

theorem exec_setParam_refused {dt n : Nat} {v : Int} {tag : Byte} {r : Result} (idle : LinkIdle s)
    (refused : paramRefused n v (withQueued (.setParam n v) tag (elapse dt s)) = some r) :
    exec (.setParam dt tag n v) s = .next (replied (.setParam n v) tag r [] (elapse dt s)) :=
  onService_request_replied (r := .setParam n v) idle (answerSetParam_refused refused)

/-- Settles O14: each parameter by the table of its bounds, its place among the parameters, and what acts at once. -/
theorem parametersAreClampedAndTaken : Obligations.ParametersAreClampedAndTaken := by
  refine ⟨fun dt n lo hi tag s idle table => ?_, fun dt n lo hi v tag s idle plain => ?_,
    fun dt v tag s idle lead => ?_, cipherLimit_taken, fun dt n v tag s idle => ⟨fun unknown => ?_, ?_, ?_, ?_⟩,
    actingParametersAreTaken⟩
  · have bounds : paramBounds s n = (lo, hi) ∧ (1 ≤ n ∧ n ≤ 28) ∧ n ≠ 16 := by
      obtain plain | acting | ⟨rfl, rfl, rfl⟩ | ⟨rfl, rfl, rfl⟩ := table
      · obtain ⟨bounds, known, -, interval, -⟩ := paramBounds_of_plain plain s
        exact ⟨bounds, known, interval⟩
      · obtain ⟨bounds, known, interval, -⟩ := paramBounds_of_acting acting
        exact ⟨bounds, known, interval⟩
      · exact ⟨rfl, by omega, by omega⟩
      · exact ⟨rfl, by omega, by omega⟩
    obtain ⟨bounds, known, interval⟩ := bounds
    exact onService_request_replied (r := .getParam n) idle
      (answerGetParam_eq (s := withQueued (.getParam n) tag (elapse dt s)) bounds known interval)
  · intro x
    obtain ⟨bounds, known, walks, interval, cipher, critical, choice, still_⟩ := paramBounds_of_plain plain s
    have enable : n ≠ 21 := fun same => by
      rw [same] at choice
      cases choice
    have accepted : paramRefused n v (withQueued (.setParam n v) tag (elapse dt s)) = none :=
      paramRefused_eq_none known (fun lead => absurd lead walks) enable fun chosen => absurd (choice.symm.trans chosen) nofun
    exact ⟨putParam n x s.params, exec_setParam idle accepted bounds cipher
        (takeParam_of_still interval enable critical still_ x) rfl,
      paramOf_putParam_plain plain x _, fun m other => paramOf_putParam_other x _ known cipher other⟩
  · intro top x
    have accepted : paramRefused 16 v (withQueued (.setParam 16 v) tag (elapse dt s)) = none :=
      paramRefused_eq_none (by omega) nofun (by omega) nofun
    exact exec_setParam (lo := 10) (hi := top) idle accepted rfl (by omega) rfl rfl
  · exact exec_setParam_refused idle (paramRefused_unknown unknown v)
  · rintro rfl walks
    exact exec_setParam_refused idle (paramRefused_lead walks)
  · intro yesNo bad
    refine exec_setParam_refused idle (paramRefused_choice ?_ (by omega) (by omega) ?_ (by omega))
    · obtain rfl | rfl | rfl := yesNo <;> rfl
    · have top : (paramBounds (withQueued (.setParam n v) tag (elapse dt s)) n).2 = 1 := by
        obtain rfl | rfl | rfl := yesNo <;> rfl
      rw [top]
      omega
  · rintro rfl bad
    refine exec_setParam_refused idle (paramRefused_choice rfl (by omega) (by omega) ?_ (by omega))
    rw [show (paramBounds (withQueued (.setParam 27 v) tag (elapse dt s)) 27).2 = 4095 from rfl]
    omega

end Sys2Proof.Proofs
end

section
/-! PROOFS. GO with a breath of 0 in the gap before the Amen (O30, which fails). -/

namespace Sys2Proof.Proofs

open Sys2Proof.Machine Sys2Proof.Laws Sys2Proof.Claims

/-! ### The counterexample

The statement bounds the breath alone, neither the choir lag nor the lost policy. With a choir lag of 2^31 units, which
no SET_PARAM takes (R182), the expected choir time of a follow point lies before now, so the window that the walking
behind the GO makes is decided in the same event; the Follower is in COAST past the lost time, FINISH_VERSE acts as a
DROP in the gap before the Amen, and the hymn is over (R81, R112). The Amen is not entered, though nothing in it would
be due. -/

/-- A follow point of the Amen that stands in the Lookahead Window. -/
def amenStep : WindowStep :=
  { sec := 13, index := 0, pos := 19200, dur := 96, follow := true, fermata := none, notes := [], next := none,
    run := false, planned := false, release := none, released := false }

/-- The CUED gap's wait, its max wait of 1 unit ending at service time 0. -/
def amenWait : Wait :=
  { kind := .gap, phase := .WAITING, resume := ⟨13, 19200⟩, minimumEnd := 0#32, start := 0xFFFFFFFF#32, breathEnd := 0#32,
    began := 0#32, byOnset := false }

/-- A plan of one verse, sung, and the Amen. -/
def amenPlan : Plan :=
  { intro := false, amen := true, cued := false, gap := ⟨0, true⟩, join := false, transposition := 0,
    entries := [⟨1, .PLAY, none, 0, ⟨0, true⟩, true, none⟩] }

/-- The part in the gap before the Amen, in COAST past the lost time under FINISH_VERSE. -/
def lostBeforeAmen : State :=
  { State.reset with
    params := { paramDefaults with
      choirLag := 2147483648, lostAfter := 0, breath := 0, maxWait := 1, finishVerse := true },
    follow := { followAfterReset with state := .COAST, period := 2147483649 },
    player := { playerAfterReset with
      state := .GAP, sec := some 1, gap := some ⟨13, none⟩, plan := some amenPlan, wait := some amenWait,
      window := [amenStep] } }

/-- The Player's state after a step that answers a next state. -/
def stateAfter : Host.Outcome State Fault Refusal → Option PlayerState
  | .next t => some t.player.state
  | _ => none

/-- The max wait expires, and the hymn is over. -/
theorem maxWait_lostBeforeAmen : stateAfter (exec (.maxWaitExpiry 0) lostBeforeAmen) = some .IDLE := by decide

/-- The part as the wait has resumed. -/
def goneOnToAmen : State := resumeWait amenWait (timePlus (0#32 + BitVec.ofNat 32 0) (0 : Nat)) false (elapse 0 lostBeforeAmen)

theorem nothingDue_goneOnToAmen : NothingDue (sectionEntered 13 goneOnToAmen) :=
  ⟨rfl, by decide, by decide⟩

/-- Refutes O30: at the max wait of `lostBeforeAmen`, with a breath of 0, nothing would be due in the Amen, and yet
the part stands in IDLE. -/
theorem not_goResumesLatchesOrIsRefused : ¬ Obligations.GoResumesLatchesOrIsRefused := by
  rintro ⟨-, waits⟩
  obtain ⟨-, expires⟩ := waits 0 0#8 amenWait lostBeforeAmen rfl rfl rfl rfl (by decide)
  obtain ⟨-, -, -, enters⟩ := expires (by decide) (by decide)
  have entered : exec (.maxWaitExpiry 0) lostBeforeAmen = .next (sectionEntered 13 goneOnToAmen) :=
    enters rfl (by decide) nothingDue_goneOnToAmen
  have amen : stateAfter (exec (.maxWaitExpiry 0) lostBeforeAmen) = some .AMEN := by
    rw [entered]
    rfl
  rw [maxWait_lostBeforeAmen] at amen
  cases amen

end Sys2Proof.Proofs
end

section
/-! PROOFS. What an event makes of the walking behind a rebase: what it leaves alone, the fence, and the quiet look. -/

namespace Sys2Proof.Proofs

open Sys2Proof.Machine Sys2Proof.Laws Sys2Proof.Claims

variable {s t u : State}

/-! ### What an event leaves alone under the COAST policy -/

/-- What the walking, the looking and the decisions of an event leave alone where no verse is finished with them. -/
structure Passes (s t : State) : Prop where
  still : Still s t
  keyline : t.keyline = s.keyline
  player : offWalk t.player = offWalk s.player

theorem Passes.refl (s : State) : Passes s s := ⟨.refl s, rfl, rfl⟩

theorem Passes.trans (first : Passes s t) (second : Passes t u) : Passes s u :=
  ⟨first.still.trans second.still, second.keyline.trans first.keyline, second.player.trans first.player⟩

theorem Walks.passes (walks : Walks s t) : Passes s t := ⟨walks.still, walks.keyline, walks.player⟩

theorem OnlySeeks.passes (seeks : OnlySeeks s t) : Passes s t := by
  rw [seeks.eq]
  exact ⟨still_follow s _, rfl, rfl⟩

theorem passes_checkLost (policy : s.params.finishVerse = false) : Passes s (checkLost s) := by
  refine ⟨still_checkLost s, ?_, ?_⟩ <;> rw [checkLost_eq policy] <;> split <;> rfl

theorem passes_decideWindow (policy : s.params.finishVerse = false) (m : MatchWindow) : Passes s (decideWindow m s).1 := by
  have before : Passes s (decidedBeforeLost m s) := by
    obtain ⟨_, _, decided⟩ := decidedBeforeLost_eq m s
    refine ⟨still_decidedBeforeLost m s, ?_, ?_⟩ <;> rw [decided]
  rw [decideWindow_eq]
  refine before.trans (passes_checkLost ?_)
  rw [(still_decidedBeforeLost m s).frame.params, policy]

theorem passes_progress : ∀ (n : Nat) (s : State), s.params.finishVerse = false → Passes s (progress n s)
  | 0, s, _ => .refl s
  | n + 1, s, policy => by
    have looked : Passes s (lookForWindow (admitSteps Config.cascadeBound s).2 (admitSteps Config.cascadeBound s).1).1 :=
      (walks_admitSteps _ s).passes.trans (onlySeeks_lookForWindow _ _).passes
    have decided (m : MatchWindow) := looked.trans (passes_decideWindow (by rw [looked.still.frame.params, policy]) m)
    unfold progress
    dsimp only
    split
    next m _ =>
      split
      · have known := (decided m).trans walks_retime.passes
        exact known.trans (passes_progress n _ (by rw [known.still.frame.params, policy]))
      · exact (decided m).trans (passes_progress n _ (by rw [(decided m).still.frame.params, policy]))
    · exact looked.trans walks_leaveWindow.passes

/-- Under the COAST policy an event's walking leaves the map, the Keyline and the Player but for its walk. -/
theorem passes_settle (policy : s.params.finishVerse = false) : Passes s (settle s) := passes_progress _ s policy

/-! ### What holds of the walk through an event -/

theorem Walked.and {P Q : State → Prop} (first : Walked P) (second : Walked Q) : Walked fun u => P u ∧ Q u where
  enter u r h due_ := ⟨first.enter u r h.1 due_, second.enter u r h.2 due_⟩
  leave u l h sub kept := ⟨first.leave u l h.1 sub kept, second.leave u l h.2 sub kept⟩

/-- What is said of the Player but for its walk stays through the walking. -/
theorem walked_offWalk {Q : Player → Prop} (off : ∀ p q : Player, offWalk q = offWalk p → Q p → Q q) :
    Walked fun u => Q u.player where
  enter u r h _ := off _ _ (walks_enterStep r).player h
  leave _ _ h _ _ := off _ _ (by rfl) h

theorem beforeAmen_of_offWalk {p q : Player} (same : offWalk q = offWalk p) : beforeAmen q = beforeAmen p := by
  show beforeAmen (offWalk q) = beforeAmen (offWalk p)
  rw [same]

/-- Away from the gap before the Amen the end of a verse writes the plan, the Go latch and the reservation alone. -/
theorem finishVerse_player (elsewhere : beforeAmen s.player = false) : ∃ pl g r, (finishVerse s).player
    = { s.player with plan := pl, goLatch := g, reservation := r } := by
  unfold finishVerse endOfVerse
  simp only [elsewhere]
  split
  · exact ⟨_, _, _, rfl⟩
  · split
    · exact ⟨_, _, _, rfl⟩
    · split <;> exact ⟨_, _, _, rfl⟩

/-- What holds of the Player through its walking, whatever the plan, the Go latch and the reservation, holds through
an event that finishes no verse in the gap before the Amen. -/
theorem settle_walked {Q : Player → Prop} (away : s.params.finishVerse = false ∨ beforeAmen s.player = false)
    (walked : Walked fun u => Q u.player)
    (plan : ∀ (p : Player) pl g r, Q p → Q { p with plan := pl, goLatch := g, reservation := r })
    (h : Q s.player) : Q (settle s).player := by
  have both : Walked fun u => Q u.player ∧ (s.params.finishVerse = true → beforeAmen u.player = false) :=
    walked.and (walked_offWalk (Q := fun p => s.params.finishVerse = true → beforeAmen p = false)
      fun p q same elsewhere policy => (beforeAmen_of_offWalk same).trans (elsewhere policy))
  have ends (policy : s.params.finishVerse = true) (u : State)
      (h : Q u.player ∧ (s.params.finishVerse = true → beforeAmen u.player = false)) :
      Q (finishVerse u).player ∧ (s.params.finishVerse = true → beforeAmen (finishVerse u).player = false) := by
    obtain ⟨h, elsewhere⟩ := h
    obtain ⟨pl, g, r, ended⟩ := finishVerse_player (elsewhere policy)
    rw [ended]
    exact ⟨plan _ pl g r h, fun _ => elsewhere policy⟩
  have held := settle_keeps (P := fun p => Q p ∧ (s.params.finishVerse = true → beforeAmen p = false)) both ends
    ⟨h, fun policy => away.resolve_left (by rw [policy]; nofun)⟩
  exact held.1

/-! ### The fence (R98) -/

/-- What is read ahead is a step of section `sec` at index `i` or behind. -/
def AheadFrom (sec i : Nat) (x : Option ReadAhead) : Prop := ∀ r, x = some r → r.sec = sec ∧ i ≤ r.index

theorem ReadFrom.ahead {sec i : Nat} {x : Option ReadAhead} (read : ReadFrom sec i x) : AheadFrom sec i x :=
  fun r held => ⟨(read r held).1, (read r held).2.1⟩

theorem walked_aheadFrom (sec i : Nat) : Walked fun u => AheadFrom sec i u.player.readAhead where
  enter u r from_ due_ := by
    obtain ⟨same, index⟩ := from_ r (entryDue_spec due_).1
    obtain ⟨-, ahead, -⟩ := enterStep_spec r u
    exact same ▸ (ahead.mono (by omega)).ahead
  leave _ _ from_ _ _ := from_

/-- The fence is open in section `sec` from index `i` on: it is lifted, or an entry has set it, at a step behind which
none is read or at a fermata step that is held and has no release. -/
def FenceOpen (sec i : Nat) (p : Player) : Prop :=
  AheadFrom sec i p.readAhead
    ∧ (p.fence = .NONE ∨ ∃ q, p.fence = .upTo q ∧ q.sec = sec
        ∧ (p.readAhead = none ∨ ∃ x ∈ p.window, stepPos x = q ∧ i ≤ x.index ∧ x.fermata ≠ none ∧ x.release = none
            ∧ x.released = false))

theorem FenceOpen.lifted {sec i : Nat} (open_ : FenceOpen sec i t.player) : FenceLifted sec i t := by
  obtain ⟨-, lifted | ⟨q, fence, same, rest⟩⟩ := open_
  · exact .inl lifted
  · refine .inr ⟨q, fence, same, rest.imp_right ?_⟩
    rintro ⟨x, member, pos, index, fermata, -⟩
    exact ⟨x, member, pos, index, fermata⟩

theorem StillHeld.parts {x y : WindowStep} (held : StillHeld x y) :
    stepPos y = stepPos x ∧ y.index = x.index ∧ y.fermata = x.fermata := by
  have fields := held.fields
  simp only [stepFields, Prod.mk.injEq] at fields
  exact ⟨fields.1, fields.2.1, fields.2.2.2.2.1⟩

theorem walked_fenceOpen (sec i : Nat) : Walked fun u => FenceOpen sec i u.player where
  enter u r open_ due_ := by
    obtain ⟨from_, fence⟩ := open_
    obtain ⟨read, -⟩ := entryDue_spec due_
    obtain ⟨same, index⟩ := from_ r read
    obtain ⟨⟨f, held, window⟩, ahead, after⟩ := enterStep_spec r u
    have kept (x : WindowStep) (member : x ∈ u.player.window ++ [windowStepOf r]) : f x ∈ (enterStep r u).player.window := by
      rw [window]
      exact List.mem_map_of_mem member
    have stays (x : WindowStep) (member : x ∈ u.player.window ++ [windowStepOf r]) {q : HymnPos} (pos : stepPos x = q)
        (low : i ≤ x.index) (fermata : x.fermata ≠ none) (release : x.release = none) (released : x.released = false) :
        ∃ y ∈ (enterStep r u).player.window, stepPos y = q ∧ i ≤ y.index ∧ y.fermata ≠ none ∧ y.release = none
          ∧ y.released = false := by
      obtain ⟨pos', index', fermata'⟩ := (held x).parts
      exact ⟨f x, kept x member, pos'.trans pos, index' ▸ low, fermata' ▸ fermata, (held x).release.trans release,
        (held x).unreleased release released⟩
    refine ⟨same ▸ (ahead.mono (by omega)).ahead, ?_⟩
    by_cases sets : r.record.fermata ≠ none ∨ (enterStep r u).player.readAhead = none
    · rw [after, if_pos sets]
      refine .inr ⟨_, rfl, same, ?_⟩
      by_cases none_ : (enterStep r u).player.readAhead = none
      · exact .inl none_
      · exact .inr (stays (windowStepOf r) (List.mem_append_right _ (List.mem_singleton.mpr rfl)) rfl index
          (sets.resolve_right none_) rfl rfl)
    · rw [after, if_neg sets]
      obtain lifted | ⟨q, upTo, sec', none_ | ⟨x, member, pos, low, fermata, release, released⟩⟩ := fence
      · exact .inl lifted
      · exact absurd (read.symm.trans none_) nofun
      · exact .inr ⟨q, upTo, sec', .inr (stays x (List.mem_append_left _ member) pos low fermata release released)⟩
  leave u l open_ _ kept := by
    obtain ⟨from_, fence⟩ := open_
    refine ⟨from_, fence.imp_right ?_⟩
    rintro ⟨q, upTo, sec', rest⟩
    refine ⟨q, upTo, sec', rest.imp_right ?_⟩
    rintro ⟨x, member, pos, low, fermata, release, released⟩
    refine ⟨x, kept x member ?_, pos, low, fermata, release, released⟩
    have holds : x.fermata.isNone = false := by simpa [Option.isSome_iff_ne_none] using fermata
    simp [leaves, holds, released]

theorem fenceOpen_settle {sec i : Nat} (away : s.params.finishVerse = false ∨ beforeAmen s.player = false)
    (open_ : FenceOpen sec i s.player) : FenceOpen sec i (settle s).player :=
  settle_walked away (walked_fenceOpen sec i) (fun _ _ _ _ h => h) open_

/-- While the read-ahead step stays the same, no step has entered and the fence is lifted still. -/
def UnreadOrLifted (a : Option ReadAhead) (p : Player) : Prop :=
  (p.readAhead = a ∧ p.fence = .NONE) ∨ ∃ r, a = some r ∧ ∀ r', p.readAhead = some r' → r.index < r'.index

theorem walked_unreadOrLifted (a : Option ReadAhead) : Walked fun u => UnreadOrLifted a u.player where
  enter u r h due_ := by
    obtain ⟨read, -⟩ := entryDue_spec due_
    obtain ⟨-, ahead, -⟩ := enterStep_spec r u
    obtain ⟨same, -⟩ | ⟨r0, first, later_⟩ := h
    · exact .inr ⟨r, same.symm.trans read, fun r' held => by have := (ahead r' held).2.1; omega⟩
    · exact .inr ⟨r0, first, fun r' held => by
        have := (ahead r' held).2.1
        have := later_ r read
        omega⟩
  leave _ _ h _ _ := h

theorem UnreadOrLifted.fence {a : Option ReadAhead} {p : Player} (h : UnreadOrLifted a p) (same : p.readAhead = a) :
    p.fence = .NONE := by
  obtain ⟨-, lifted⟩ | ⟨r, first, later_⟩ := h
  · exact lifted
  · have := later_ r (same.trans first)
    omega

/-- The steps of the window are those of `held` and steps read from the read-ahead step `a` on. -/
def ComeOf (held : List WindowStep) (a : Option ReadAhead) (p : Player) : Prop :=
  (∀ r', p.readAhead = some r' → ∃ r, a = some r ∧ r'.sec = r.sec ∧ r.index ≤ r'.index)
    ∧ ∀ x ∈ p.window, (∃ y ∈ held, stepFields y = stepFields x) ∨ ∃ r, a = some r ∧ x.sec = r.sec ∧ r.index ≤ x.index

theorem walked_comeOf (held : List WindowStep) (a : Option ReadAhead) : Walked fun u => ComeOf held a u.player where
  enter u r h due_ := by
    obtain ⟨ahead, window⟩ := h
    obtain ⟨r0, first, sec, index⟩ := ahead r (entryDue_spec due_).1
    obtain ⟨⟨f, still_, entered⟩, next, -⟩ := enterStep_spec r u
    refine ⟨fun r' read => ?_, fun x member => ?_⟩
    · obtain ⟨sec', low, -⟩ := next r' read
      exact ⟨r0, first, sec'.trans sec, by omega⟩
    · rw [entered] at member
      obtain ⟨y, old, rfl⟩ := List.mem_map.mp member
      obtain ⟨pos, index', -⟩ := (still_ y).parts
      have sec' : (f y).sec = y.sec := congrArg HymnPos.sec pos
      obtain before | new := List.mem_append.mp old
      · obtain ⟨z, member', same⟩ | ⟨r1, first', sec1, low⟩ := window y before
        · exact .inl ⟨z, member', same.trans (still_ y).fields.symm⟩
        · exact .inr ⟨r1, first', sec'.trans sec1, index' ▸ low⟩
      · rw [List.mem_singleton.mp new] at sec' index' ⊢
        exact .inr ⟨r0, first, sec'.trans sec, index' ▸ index⟩
  leave u l h sub _ := ⟨h.1, fun x member => h.2 x (sub.subset member)⟩

theorem comeOf_refl (p : Player) : ComeOf p.window p.readAhead p :=
  ⟨fun r read => ⟨r, read, rfl, le_rfl⟩, fun x member => .inl ⟨x, member, rfl⟩⟩

end Sys2Proof.Proofs
end

section
/-! PROOFS. The quiet look behind a rebase: no window that it makes is to be decided at once (R65 to R67, R83). -/

namespace Sys2Proof.Proofs

open Sys2Proof.Machine Sys2Proof.Laws Sys2Proof.Claims

variable {s u : State}

/-! ### Predicted times (R61) -/

/-- A position at the anchor or behind it in its section sounds within 6 000 000 units of it. -/
theorem predict_ahead {f : Follow} {pos : Nat} (period : f.period ≤ 1500000) (low : f.anchor.pos ≤ pos) (high : pos ≤ 65535) :
    ∃ e : Int, predict f pos = timePlus f.anchorTime e ∧ 0 ≤ e ∧ e ≤ 6000000 := by
  refine ⟨_, rfl, ?_⟩
  have product : (pos - f.anchor.pos) * f.period ≤ 65535 * 1500000 := Nat.mul_le_mul (by omega) period
  have cast : ((pos : Int) - f.anchor.pos) * f.period = (((pos - f.anchor.pos) * f.period : Nat) : Int) := by
    push_cast [Nat.cast_sub low]
    rfl
  rw [cast]
  unfold roundDiv
  omega

/-- A time less than half the range ahead of now is later than now. -/
theorem later_now {d : Int} (t : Time) (low : 0 < d) (high : d < 2147483648) : later (timePlus t d) t = true := by
  have ahead := later_timePlus (a := d) (b := 0) t (by omega) (by omega)
  rw [timePlus_zero] at ahead
  rw [ahead]
  exact decide_eq_true low

/-! ### The search behind a rebase (R65 to R67) -/

/-- No match window stands; the figures lie in their ranges; every step ahead that may be used lies in the anchor's
section; and a choir time found from the anchor is, with the decision delay, later than now. -/
structure QuietRebase (u : State) : Prop where
  window : u.follow.window = none
  period : u.follow.period ≤ 1500000
  lag : u.params.choirLag ≤ 4000
  width : u.params.halfWidth ≤ 2500
  anchor : ∃ d : Int, u.follow.anchorTime = timePlus u.now d ∧ 0 < d + u.params.choirLag + 160 ∧ d ≤ 1000000
  cursor : posBefore u.follow.cursor u.follow.anchor = false
  steps : ∀ x ∈ u.player.window, posBefore (stepPos x) u.follow.anchor = true
    ∨ (x.sec = u.follow.anchor.sec ∧ x.pos ≤ 65535)
  ahead : ∀ r, u.player.readAhead = some r → r.sec = u.follow.anchor.sec ∧ r.pos ≤ 65535

theorem effectiveWidth_le (w : Nat) (g g' : Option Int) : effectiveWidth w g g' ≤ w := by
  unfold effectiveWidth
  cases g <;> cases g' <;> dsimp only <;> omega

/-- A usable step lies at the anchor or behind it, in its section. -/
theorem QuietRebase.usable_spec (quiet : QuietRebase u) {w : WindowStep}
    (found : u.player.window.find? (usable u) = some w) :
    posBefore (stepPos w) u.follow.anchor = false ∧ w.sec = u.follow.anchor.sec ∧ u.follow.anchor.pos ≤ w.pos
      ∧ w.pos ≤ 65535 := by
  have used := List.find?_some found
  unfold usable at used
  obtain ⟨-, late⟩ := Bool.and_eq_true_iff.mp used
  have behind : posBefore (stepPos w) u.follow.anchor = false := by
    have cursor := quiet.cursor
    rw [Bool.not_eq_true', Bool.eq_false_iff, ne_eq, posBefore_iff] at late
    rw [Bool.eq_false_iff, ne_eq, posBefore_iff] at cursor ⊢
    omega
  obtain before | ⟨sec, pos⟩ := quiet.steps w (List.mem_of_find?_eq_some found)
  · exact absurd (behind.symm.trans before) nofun
  · refine ⟨behind, sec, ?_, pos⟩
    have low := behind
    rw [Bool.eq_false_iff, ne_eq, posBefore_iff] at low
    simp only [stepPos] at low
    omega

theorem QuietRebase.decides_later (quiet : QuietRebase u) {w : WindowStep} {m : MatchWindow}
    (found : u.player.window.find? (usable u) = some w)
    (made : placeWindow u u.follow.prevUsed (stepPos w) w.index = some m) : later m.decides u.now = true := by
  obtain ⟨-, -, low, high⟩ := quiet.usable_spec found
  obtain ⟨e, sounds, first, last⟩ := predict_ahead quiet.period low high
  obtain ⟨d, time, ahead, bound⟩ := quiet.anchor
  have placed : m = windowAt u u.follow.prevUsed (stepPos w) w.index := by
    by_cases passed : PassedOver u u.follow.prevUsed (stepPos w) w.index
    · rw [placeWindow_of_passedOver passed] at made
      cases made
    · rw [placeWindow_of_placed passed] at made
      exact (Option.some.inj made).symm
  have width := effectiveWidth_le u.params.halfWidth (prevDistance u u.follow.prevUsed (stepPos w)) (nextDistance u (stepPos w))
  have lag := quiet.lag
  have half := quiet.width
  rw [placed, windowAt_eq]
  dsimp only
  rw [show predict u.follow (stepPos w).pos = _ from sounds, time, timePlus_timePlus, timePlus_timePlus, timePlus_timePlus,
    timePlus_timePlus]
  exact later_now _ (by simp only [Config.decisionDelay]; omega) (by simp only [Config.decisionDelay]; omega)

theorem QuietRebase.cursorPast (quiet : QuietRebase u) {w : WindowStep}
    (found : u.player.window.find? (usable u) = some w) : QuietRebase (cursorPast w u) where
  window := quiet.window
  period := quiet.period
  lag := quiet.lag
  width := quiet.width
  anchor := quiet.anchor
  cursor := by
    have behind := (quiet.usable_spec found).1
    rw [Bool.eq_false_iff, ne_eq, posBefore_iff] at behind ⊢
    simp only [Proofs.cursorPast, justAfter, stepPos] at behind ⊢
    omega
  steps := quiet.steps
  ahead := quiet.ahead

theorem QuietRebase.seek_later : ∀ (n : Nat) {u : State}, QuietRebase u → ∀ m, (seek n u).follow.window = some m →
    later m.decides u.now = true
  | 0, u, quiet, m, made => by
    rw [show (seek 0 u).follow.window = none from quiet.window] at made
    cases made
  | n + 1, u, quiet, m, made => by
    by_cases off : u.follow.state = .OFF
    · rw [seek_stays (.inl off), quiet.window] at made
      cases made
    cases found : u.player.window.find? (usable u) with
    | none =>
      rw [seek_none found, quiet.window] at made
      cases made
    | some w =>
      rw [seek_step off quiet.window found] at made
      cases placed : placeWindow u u.follow.prevUsed (stepPos w) w.index with
      | none =>
        rw [placed] at made
        exact QuietRebase.seek_later n (quiet.cursorPast found) m made
      | some m' =>
        rw [placed] at made
        cases made
        exact quiet.decides_later found placed

/-! ### The quiet event -/

/-- A match window stands that is no more PENDING, or a rebase does behind which no window is to be decided at once. -/
def Quiet (u : State) : Prop := (∃ m, u.follow.window = some m ∧ m.phase ≠ .PENDING) ∨ QuietRebase u

theorem walked_quiet : Walked Quiet where
  enter u r quiet due_ := by
    have walks := walks_enterStep r (s := u)
    obtain stands | quiet := quiet
    · exact .inl (by rwa [walks.follow])
    · have frame := walks.still.frame
      obtain ⟨sec, pos⟩ := quiet.ahead r (entryDue_spec due_).1
      obtain ⟨⟨f, held, entered⟩, next, -⟩ := enterStep_spec r u
      refine .inr ⟨?_, ?_, ?_, ?_, ?_, ?_, fun x member => ?_, fun r' read => ?_⟩
      · rw [walks.follow, quiet.window]
      · rw [walks.follow]; exact quiet.period
      · rw [frame.params]; exact quiet.lag
      · rw [frame.params]; exact quiet.width
      · rw [walks.follow, frame.params, frame.now]; exact quiet.anchor
      · rw [walks.follow]; exact quiet.cursor
      · rw [walks.follow]
        rw [entered] at member
        obtain ⟨y, old, rfl⟩ := List.mem_map.mp member
        obtain ⟨at_, -, -⟩ := (held y).parts
        have sec' : (f y).sec = y.sec := congrArg HymnPos.sec at_
        have pos' : (f y).pos = y.pos := congrArg HymnPos.pos at_
        rw [at_, sec', pos']
        obtain before | new := List.mem_append.mp old
        · exact quiet.steps y before
        · rw [List.mem_singleton.mp new]
          exact .inr ⟨sec, pos⟩
      · rw [walks.follow]
        obtain ⟨same, -, bound⟩ := next r' read
        exact ⟨same.trans sec, bound⟩
  leave u l quiet sub _ := quiet.imp_right fun quiet => ⟨quiet.window, quiet.period, quiet.lag, quiet.width, quiet.anchor,
    quiet.cursor, fun x member => quiet.steps x (sub.subset member), quiet.ahead⟩

theorem Quiet.atOnce_none (quiet : Quiet u) (again : Bool) :
    atOnce (lookForWindow again u).1 (lookForWindow again u).2 = none := by
  obtain ⟨m, stands, phase⟩ | quiet := quiet
  · rw [lookForWindow_of_standing stands again (.inl phase)]
    rfl
  · refine atOnce_eq_none (fun m made => ?_) _
    rw [(onlySeeks_lookForWindow again u).now]
    have look : (lookForWindow again u).1 = seekWindow u := by
      unfold lookForWindow
      rw [quiet.window]
    rw [look] at made
    exact quiet.seek_later _ m made

/-- A quiet event admits its steps, looks once, and lets its steps leave. -/
theorem settle_of_quiet (quiet : Quiet u) : settle u
    = leaveWindow (lookForWindow (admitSteps Config.cascadeBound u).2 (admitSteps Config.cascadeBound u).1).1 :=
  settle_eq (Prod.mk.eta (p := admitSteps Config.cascadeBound u)).symm ((walked_quiet.admitSteps _ u quiet).atOnce_none _)

/-- What holds through the walking and the search holds through a quiet event. -/
theorem settle_quiet_keeps {P : State → Prop} (quiet : Quiet u) (walked : Walked P)
    (seeks : ∀ v w, OnlySeeks v w → P v → P w) (h : P u) : P (settle u) := by
  rw [settle_of_quiet quiet]
  exact walked.leaveWindow (seeks _ _ (onlySeeks_lookForWindow _ _) (walked.admitSteps _ u h))

/-- A quiet event leaves the Follower rebased and the Listening Unit as it was. -/
theorem rebasedTo_settle {t : Time} {p : HymnPos} {f : Follow} (quiet : Quiet u) (rebased : RebasedTo t p f u.follow) :
    RebasedTo t p f (settle u).follow ∧ (settle u).listen = u.listen := by
  refine settle_quiet_keeps (P := fun v => RebasedTo t p f v.follow ∧ v.listen = u.listen) quiet ⟨fun v r h _ => ?_, fun v l h _ _ => h⟩
    (fun v w seeks h => ?_) ⟨rebased, rfl⟩
  · have walks := walks_enterStep r (s := v)
    exact ⟨walks.follow ▸ h.1, walks.listen.trans h.2⟩
  · rw [seeks.eq]
    exact h

/-- The step `r` is read ahead, or has entered, while its sound time is later than now. -/
def StillAhead (r : ReadAhead) (v : State) : Prop :=
  (r.sec = v.follow.anchor.sec ∧ later (predict v.follow r.pos) v.now = true)
    ∧ (v.player.readAhead = some r ∨ ∃ w ∈ v.player.window, stepFields w = aheadFields r ∧ w.release = none)

theorem walked_stillAhead (r : ReadAhead) : Walked (StillAhead r) where
  enter u x h due_ := by
    obtain ⟨ahead, stands⟩ := h
    have walks := walks_enterStep x (s := u)
    obtain ⟨⟨g, held, window⟩, -⟩ := enterStep_spec x u
    have kept (w : WindowStep) (member : w ∈ u.player.window ++ [windowStepOf x]) (fields : stepFields w = aheadFields r)
        (open_ : w.release = none) : ∃ y ∈ (enterStep x u).player.window, stepFields y = aheadFields r ∧ y.release = none := by
      refine ⟨g w, ?_, (held w).fields.trans fields, (held w).release.trans open_⟩
      rw [window]
      exact List.mem_map_of_mem member
    refine ⟨by rwa [walks.follow, walks.still.frame.now], .inr ?_⟩
    obtain read | ⟨w, member, fields, open_⟩ := stands
    · cases read.symm.trans (entryDue_spec due_).1
      exact kept (windowStepOf r) (List.mem_append_right _ (List.mem_singleton.mpr rfl)) rfl rfl
    · exact kept w (List.mem_append_left _ member) fields open_
  leave u l h _ kept := by
    obtain ⟨⟨sec, ahead⟩, stands⟩ := h
    refine ⟨⟨sec, ahead⟩, stands.imp_right ?_⟩
    rintro ⟨w, member, fields, open_⟩
    refine ⟨w, kept w member ?_, fields, open_⟩
    have pos : w.sec = r.sec ∧ w.pos = r.pos := by
      simp only [stepFields, aheadFields, Prod.mk.injEq, HymnPos.mk.injEq] at fields
      exact fields.1
    have stays : soundArrived u w = false := soundArrived_of_later open_ (pos.1.trans sec) (by rw [pos.2]; exact ahead)
    simp [leaves, stays]

theorem stillAhead_settle {r : ReadAhead} (quiet : Quiet u) (h : StillAhead r u) :
    (settle u).player.readAhead = some r ∨ ∃ x ∈ (settle u).player.window, stepFields x = aheadFields r := by
  have kept : StillAhead r (settle u) := settle_quiet_keeps quiet (walked_stillAhead r)
    (fun v w seeks h => by rw [seeks.eq]; exact h) h
  exact kept.2.imp_right fun ⟨w, member, fields, _⟩ => ⟨w, member, fields⟩

/-- A rebase at QuietAt is quiet, the steps ahead being those of `s` or of the rebase's section. -/
theorem quiet_of_quietAt {t : Time} {p : HymnPos} (quiet : QuietAt p s) (follow : u.follow = rebasedFollow t p s.follow)
    (params : u.params = s.params) (window : ∀ x ∈ u.player.window, ∃ y ∈ s.player.window, stepPos y = stepPos x)
    (ahead : ∀ r, u.player.readAhead = some r → s.player.readAhead = some r ∨ (r.sec = p.sec ∧ r.pos ≤ 65535))
    (time : ∃ d : Int, t = timePlus u.now d ∧ 0 < d + s.params.choirLag + 160 ∧ d ≤ 1000000) : Quiet u := by
  have stands {m : MatchWindow} (held : s.follow.window = some m) (phase : m.phase ≠ .PENDING) : Quiet u := by
    refine .inl ⟨m, ?_, phase⟩
    rw [follow]
    simp [rebasedFollow, held, phase]
  obtain ⟨-, m, held, phase⟩ | ⟨-, period, lag, width, steps, reads⟩ := quiet
  · exact stands held phase
  · by_cases phase : ∃ m, s.follow.window = some m ∧ m.phase ≠ .PENDING
    · obtain ⟨m, held, phase⟩ := phase
      exact stands held phase
    · have none_ : (rebasedFollow t p s.follow).window = none := by
        unfold rebasedFollow
        cases held : s.follow.window with
        | none => rfl
        | some m => exact if_pos (not_not.mp fun other => phase ⟨m, held, other⟩)
      refine .inr ⟨?_, ?_, ?_, ?_, ?_, ?_, fun x member => ?_, fun r read => ?_⟩
      · rw [follow, none_]
      · rw [follow]; exact period
      · rw [params]; exact lag
      · rw [params]; exact width
      · rw [follow, params]; exact time
      · rw [follow]
        simp [rebasedFollow, posBefore]
      · rw [follow]
        obtain ⟨y, old, same⟩ := window x member
        have sec : x.sec = y.sec := (congrArg HymnPos.sec same).symm
        have pos : x.pos = y.pos := (congrArg HymnPos.pos same).symm
        rw [← same, sec, pos]
        exact steps y old
      · rw [follow]
        exact (ahead r read).elim (reads r) id

end Sys2Proof.Proofs
end

section
/-! PROOFS. A cued wait resumed: the Player's breath, the rebase, and the walking of the section behind (R83, R96, R98,
R108 to R110). -/

namespace Sys2Proof.Proofs

open Sys2Proof.Machine Sys2Proof.Laws Sys2Proof.Claims

variable {s u : State}

/-! ### The Player but for its walk -/

theorem of_offWalk {p q : Player} (same : offWalk q = offWalk p) :
    q.state = p.state ∧ q.sec = p.sec ∧ q.slot = p.slot ∧ q.plan = p.plan ∧ q.registration = p.registration
      ∧ q.channels = p.channels ∧ q.goLatch = p.goLatch ∧ q.reservation = p.reservation ∧ q.wait = p.wait
      ∧ q.fermata = p.fermata ∧ q.gap = p.gap ∧ q.lastOutcome = p.lastOutcome := by
  simp only [offWalk, Player.mk.injEq, true_and] at same
  tauto

/-! ### The walking of a section begins (R96) -/

theorem playingSlot_eq {n : Nat} {sl : Slot} (slot : s.player.slot = some n) (held : slotRec s.store n = some sl) :
    playingSlot s = some (n, sl) := by
  unfold playingSlot
  rw [slot]
  dsimp only
  rw [held]
  rfl

theorem beginWalk_of_slot {n sec : Nat} {sl : Slot} (slot : s.player.slot = some n) (held : slotRec s.store n = some sl) :
    beginWalk sec s = (readAheadFrom sec (sectionSteps sl.header sec).1 s).1 := by
  unfold beginWalk
  rw [playingSlot_eq slot held]

theorem beginWalk_none (none_ : playingSlot s = none) (sec : Nat) : beginWalk sec s = s := by
  unfold beginWalk
  rw [none_]

/-- Of the Player the beginning of a walk writes the step read ahead alone: one of its section, where one is read. -/
theorem beginWalk_player (sec : Nat) (s : State) :
    (beginWalk sec s).player = { s.player with readAhead := (beginWalk sec s).player.readAhead }
      ∧ ∀ r, (beginWalk sec s).player.readAhead = some r → s.player.readAhead = some r ∨ (r.sec = sec ∧ r.pos ≤ 65535) := by
  cases playing : playingSlot s with
  | none =>
    rw [beginWalk_none playing]
    exact ⟨rfl, fun r read => .inl read⟩
  | some x =>
    obtain ⟨n, sl⟩ := x
    have begun : beginWalk sec s = (readAheadFrom sec (sectionSteps sl.header sec).1 s).1 := by
      unfold beginWalk
      rw [playing]
    obtain ⟨player, read⟩ := readAheadFrom_spec sec (sectionSteps sl.header sec).1 s
    rw [begun]
    exact ⟨player, fun r held => .inr ⟨(read r held).1, (read r held).2.2⟩⟩

theorem beginWalk_reads {n sec : Nat} {sl : Slot} (slot : s.player.slot = some n) (held : slotRec s.store n = some sl) :
    ReadFrom sec (sectionSteps sl.header sec).1 (beginWalk sec s).player.readAhead := by
  rw [beginWalk_of_slot slot held]
  exact (readAheadFrom_spec _ _ s).2

/-- A good first step is the step read ahead. -/
theorem beginWalk_first {n sec : Nat} {sl : Slot} {r : StepRec} (slot : s.player.slot = some n)
    (held : slotRec s.store n = some sl) (some_ : (sectionSteps sl.header sec).1 < (sectionSteps sl.header sec).2)
    (good : readStep s.store sl (sectionSteps sl.header sec).1 = some r) :
    (beginWalk sec s).player.readAhead
      = some ⟨sec, (sectionSteps sl.header sec).1, r.position - sectionBase sl sec, r, false⟩ := by
  obtain ⟨left, count⟩ : ∃ left, (sectionSteps sl.header sec).2 - (sectionSteps sl.header sec).1 = left + 1 :=
    ⟨(sectionSteps sl.header sec).2 - (sectionSteps sl.header sec).1 - 1, by omega⟩
  rw [beginWalk_of_slot slot held]
  unfold readAheadFrom
  rw [playingSlot_eq slot held]
  dsimp only
  rw [count]
  unfold readGood
  rw [good]

theorem fenceOpen_beginWalk {n sec : Nat} {sl : Slot} (slot : s.player.slot = some n) (held : slotRec s.store n = some sl)
    (fence : s.player.fence = .NONE) : FenceOpen sec (sectionSteps sl.header sec).1 (beginWalk sec s).player := by
  refine ⟨(beginWalk_reads slot held).ahead, .inl ?_⟩
  rw [(beginWalk_player sec s).1]
  exact fence

/-! ### A rebase ahead (R83) -/

/-- Behind a rebase to a time later than now, a step at its position or behind it in its section sounds later than
now. -/
theorem stillAhead_of_rebased {r : ReadAhead} {p : HymnPos} {f : Follow} {d : Int}
    (follow : u.follow = rebasedFollow (timePlus u.now d) p f) (period : f.period ≤ 1500000) (low : 0 < d) (high : d ≤ 1000000)
    (sec : r.sec = p.sec) (behind : p.pos ≤ r.pos) (pos : r.pos ≤ 65535)
    (stands : u.player.readAhead = some r) : StillAhead r u := by
  refine ⟨⟨by rw [follow]; exact sec, ?_⟩, .inl stands⟩
  obtain ⟨e, sounds, first, last⟩ := predict_ahead (f := u.follow) (pos := r.pos) (by rw [follow]; exact period)
    (by rw [follow]; exact behind) pos
  rw [sounds, follow]
  dsimp only [rebasedFollow]
  rw [timePlus_timePlus]
  exact later_now _ (by omega) (by omega)

theorem rebasedTo_rebasedFollow (t : Time) (p : HymnPos) (f : Follow) : RebasedTo t p f (rebasedFollow t p f) :=
  ⟨rfl, rfl, rfl, rfl, rfl, rfl, rfl⟩

/-- The first step of the section behind a rebase to its beginning, later than now, is read, or has entered. -/
theorem firstStepRead {k : Nat} {f : Follow} {d : Int} (slot : u.player.slot = s.player.slot) (store : u.store = s.store)
    (period : f.period = s.follow.period) (follow : u.follow = rebasedFollow (timePlus u.now d) ⟨k, 0⟩ f) (low : 0 < d)
    (high : d ≤ 1000000) (quiet : Quiet (beginWalk k u)) : FirstStepRead k s (settle (beginWalk k u)) := by
  intro n sl r playing held steps first some_ good bound
  have walks := walks_beginWalk k (s := u)
  have read : (beginWalk k u).player.readAhead = some first :=
    beginWalk_first (slot.trans playing) (store ▸ held) some_ (store ▸ good)
  refine stillAhead_settle quiet (stillAhead_of_rebased (p := ⟨k, 0⟩) (f := f) (d := d) ?_ (period ▸ bound) low high rfl (Nat.zero_le _) ?_ read)
  · rw [walks.follow, walks.still.frame.now, follow]
  · exact (Nat.sub_le _ _).trans (position_le_of_readStep good)

/-! ### The wait resumed (R108) -/

section
variable {w : Wait} {b : Bool} {t : Time}

theorem resumed_offWalk (w : Wait) (t : Time) (b : Bool) (s : State) : offWalk (resumed w t b s).player
    = offWalk { s.player with wait := some { w with phase := .BREATH, breathEnd := t, began := s.now, byOnset := b } } := by
  rw [resumed_player]
  rfl

theorem passes_resumed (w : Wait) (t : Time) (b : Bool) (s : State) : Still s (resumed w t b s)
    ∧ (resumed w t b s).keyline = s.keyline ∧ (resumed w t b s).listen = s.listen ∧ (resumed w t b s).store = s.store := by
  refine ⟨?_, ?_, ?_, ?_⟩
  · rw [resumed_eq]
    exact ⟨⟨rfl, rfl, rfl, rfl, rfl, rfl, rfl⟩, rfl, rfl, rfl⟩
  all_goals rw [resumed_eq]

/-- What stands as the wait has resumed, before the event's walking. -/
def awake (w : Wait) (t : Time) (b : Bool) (s : State) : State :=
  if w.kind = .fermata then resumed w t b s else beginWalk w.resume.sec (resumed w t b s)

theorem resumeWait_awake (w : Wait) (t : Time) (b : Bool) (s : State) : resumeWait w t b s = settle (awake w t b s) := rfl

theorem awake_walks (w : Wait) (t : Time) (b : Bool) (s : State) : Walks (resumed w t b s) (awake w t b s) := by
  unfold awake
  split
  · exact .refl _
  · exact walks_beginWalk _

theorem awake_player (w : Wait) (t : Time) (b : Bool) (s : State) :
    (awake w t b s).player = { (resumed w t b s).player with readAhead := (awake w t b s).player.readAhead }
      ∧ ∀ r, (awake w t b s).player.readAhead = some r → s.player.readAhead = some r ∨ (r.sec = w.resume.sec ∧ r.pos ≤ 65535) := by
  have ahead : (resumed w t b s).player.readAhead = s.player.readAhead := by rw [resumed_player]
  unfold awake
  split
  · exact ⟨rfl, fun r read => .inl (ahead ▸ read)⟩
  · have walk := beginWalk_player w.resume.sec (resumed w t b s)
    rwa [ahead] at walk

/-- A wait resumed under the COAST policy leaves the map, the mask, the Keyline and the parameters, and of the Player
all but its walk and the wait. -/
theorem resumeWait_spec (policy : s.params.finishVerse = false) : Still s (resumeWait w t b s)
    ∧ (resumeWait w t b s).keyline = s.keyline
    ∧ offWalk (resumeWait w t b s).player
      = offWalk { s.player with wait := some { w with phase := .BREATH, breathEnd := t, began := s.now, byOnset := b } } := by
  obtain ⟨still_, keyline, -⟩ := passes_resumed w t b s
  have walks := (awake_walks w t b s).passes
  have settles : Passes (awake w t b s) (resumeWait w t b s) := passes_settle (by
    rw [walks.still.frame.params, still_.frame.params, policy])
  exact ⟨still_.trans (walks.trans settles).still, (walks.trans settles).keyline.trans keyline,
    (walks.trans settles).player.trans (resumed_offWalk w t b s)⟩

theorem awake_params (w : Wait) (t : Time) (b : Bool) (s : State) : (awake w t b s).params = s.params :=
  (awake_walks w t b s).still.frame.params.trans (passes_resumed w t b s).1.frame.params

theorem quietAt_on {p : HymnPos} (quiet : QuietAt p s) : s.follow.state ≠ .OFF :=
  quiet.elim (fun stands => stands.1) fun bounds => bounds.1

/-- At QuietAt of the resume position the walking behind a resume is quiet. -/
theorem quiet_awake (quiet : QuietAt w.resume s)
    (time : ∃ d : Int, t = timePlus s.now d ∧ 0 < d + s.params.choirLag + 160 ∧ d ≤ 1000000) : Quiet (awake w t b s) := by
  obtain ⟨player, ahead⟩ := awake_player w t b s
  have walks := awake_walks w t b s
  refine quiet_of_quietAt (t := t) quiet (walks.follow.trans (resumed_follow w t b (quietAt_on quiet))) (awake_params w t b s)
    (fun x member => ⟨x, ?_, rfl⟩) ahead ?_
  · rw [player, resumed_player] at member
    exact member
  · rw [walks.still.frame.now, (passes_resumed w t b s).1.frame.now]
    exact time

/-- A quiet resume leaves the Follower rebased and the Listening Unit as it was. -/
theorem rebasedTo_resumeWait (quiet : QuietAt w.resume s)
    (time : ∃ d : Int, t = timePlus s.now d ∧ 0 < d + s.params.choirLag + 160 ∧ d ≤ 1000000) :
    RebasedTo t w.resume s.follow (resumeWait w t b s).follow ∧ (resumeWait w t b s).listen = s.listen := by
  have walks := awake_walks w t b s
  obtain ⟨rebased, listen⟩ := rebasedTo_settle (t := t) (p := w.resume) (f := s.follow) (quiet_awake (b := b) quiet time) (by
    rw [walks.follow, resumed_follow w t b (quietAt_on quiet)]
    exact rebasedTo_rebasedFollow _ _ _)
  exact ⟨rebased, listen.trans (walks.listen.trans (passes_resumed w t b s).2.2.1)⟩

/-- The fence behind a fermata's resume: lifted until a step from the one read ahead on sets it. -/
theorem fenceLifted_resumeWait_fermata {r : ReadAhead} (policy : s.params.finishVerse = false) (fermata : w.kind = .fermata)
    (read : s.player.readAhead = some r) : FenceLifted r.sec r.index (resumeWait w t b s) := by
  have standing : awake w t b s = resumed w t b s := if_pos fermata
  rw [resumeWait_awake]
  refine (fenceOpen_settle (.inl ((awake_params w t b s).symm ▸ policy)) ?_).lifted
  rw [standing, resumed_player]
  exact ⟨fun r' held => by cases read.symm.trans held; exact ⟨rfl, le_rfl⟩, .inl rfl⟩

/-- The fence behind the resume of a gap or of START_WAIT. -/
theorem fenceLifted_resumeWait_section {n : Nat} {sl : Slot} (policy : s.params.finishVerse = false) (other : w.kind ≠ .fermata)
    (slot : s.player.slot = some n) (held : slotRec s.store n = some sl) :
    FenceLifted w.resume.sec (sectionSteps sl.header w.resume.sec).1 (resumeWait w t b s) := by
  have standing : awake w t b s = beginWalk w.resume.sec (resumed w t b s) := if_neg other
  have player := resumed_player w t b s
  rw [resumeWait_awake]
  refine (fenceOpen_settle (.inl ((awake_params w t b s).symm ▸ policy)) ?_).lifted
  rw [standing]
  exact fenceOpen_beginWalk (by rw [player]; exact slot) (by rw [(passes_resumed w t b s).2.2.2]; exact held) (by rw [player])

/-- R83, R96, R98, R108, R110: the wait of a gap or of START_WAIT resumed at now and the breath. -/
theorem resumedSection (policy : s.params.finishVerse = false) (other : w.kind ≠ .fermata) (high : s.params.breath ≤ 10000) :
    ResumedSection s.now w s (resumeWait w (timePlus s.now s.params.breath) false s) := by
  obtain ⟨still_, keyline, player⟩ := resumeWait_spec (w := w) (b := false) (t := timePlus s.now s.params.breath) policy
  obtain ⟨state, sec, slot, plan, registration, channels, latch_, reservation, wait, -, gap, outcome⟩ := of_offWalk player
  have time : ∃ d : Int, timePlus s.now (s.params.breath : Int) = timePlus s.now d ∧ 0 < d + s.params.choirLag + 160
      ∧ d ≤ 1000000 := ⟨_, rfl, by omega, by omega⟩
  refine ⟨state, sec, slot, plan, registration, channels, gap, latch_, reservation, outcome, wait, still_.map,
    still_.frame.leak, keyline, still_.frame.params, fun n sl slot held => fenceLifted_resumeWait_section policy other slot held,
    fun quiet => ?_⟩
  obtain ⟨rebased, listen⟩ := rebasedTo_resumeWait (b := false) quiet time
  refine ⟨rebased, listen, fun low first => ?_⟩
  have standing : awake w (timePlus s.now s.params.breath) false s
      = beginWalk w.resume.sec (resumed w (timePlus s.now s.params.breath) false s) := if_neg other
  have begins : w.resume = ⟨w.resume.sec, 0⟩ := by
    rw [← first]
  rw [resumeWait_awake, standing]
  refine firstStepRead (f := s.follow) (d := s.params.breath) (by rw [resumed_player]) (passes_resumed w _ _ s).2.2.2 rfl ?_
    (by omega) (by omega) (standing ▸ quiet_awake quiet time)
  rw [resumed_follow w _ _ (quietAt_on quiet), (passes_resumed w _ _ s).1.frame.now, ← begins]

/-- R83, R96, R98, R108: the wait of a fermata resumed at now and the breath, whatever stands ahead. -/
theorem resumedBehindFermata (policy : s.params.finishVerse = false) (fermata : w.kind = .fermata)
    (state : s.player.state = .FERMATA) (high : s.params.breath ≤ 10000) :
    ResumedBehindFermata s.now w s (resumeWait w (timePlus s.now s.params.breath) false s) := by
  obtain ⟨still_, keyline, player⟩ := resumeWait_spec (w := w) (b := false) (t := timePlus s.now s.params.breath) policy
  obtain ⟨state', sec, slot, plan, registration, channels, latch_, reservation, wait, record, -, outcome⟩ := of_offWalk player
  have time : ∃ d : Int, timePlus s.now (s.params.breath : Int) = timePlus s.now d ∧ 0 < d + s.params.choirLag + 160
      ∧ d ≤ 1000000 := ⟨_, rfl, by omega, by omega⟩
  have standing : awake w (timePlus s.now s.params.breath) false s = resumed w (timePlus s.now s.params.breath) false s :=
    if_pos fermata
  have policy' : (awake w (timePlus s.now s.params.breath) false s).params.finishVerse = false := by
    rw [awake_params]
    exact policy
  have unread : UnreadOrLifted s.player.readAhead (resumeWait w (timePlus s.now s.params.breath) false s).player := by
    rw [resumeWait_awake]
    refine settle_walked (.inl policy') (walked_unreadOrLifted _) (fun _ _ _ _ h => h) (.inl ?_)
    rw [standing, resumed_player]
    exact ⟨rfl, rfl⟩
  have come : ComeOf s.player.window s.player.readAhead (resumeWait w (timePlus s.now s.params.breath) false s).player := by
    rw [resumeWait_awake]
    refine settle_walked (.inl policy') (walked_comeOf _ _) (fun _ _ _ _ h => h) ?_
    rw [standing, resumed_player]
    exact comeOf_refl s.player
  refine ⟨state'.trans state, sec, slot, plan, registration, channels, record, latch_, reservation, outcome, wait, still_.map,
    still_.frame.leak, keyline, still_.frame.params, unread.fence, fun r read => fenceLifted_resumeWait_fermata policy fermata read,
    come.1, come.2, fun quiet => ?_⟩
  obtain ⟨rebased, listen⟩ := rebasedTo_resumeWait (b := false) quiet time
  refine ⟨rebased, listen, fun r read same behind pos period low => ?_⟩
  rw [resumeWait_awake]
  refine stillAhead_settle (quiet_awake quiet time) ?_
  rw [standing]
  refine stillAhead_of_rebased (p := w.resume) (f := s.follow) (d := s.params.breath) ?_ period (by omega) (by omega) same behind pos
    (by rw [resumed_player]; exact read)
  rw [resumed_follow w _ _ (quietAt_on quiet), (passes_resumed w _ _ s).1.frame.now]

end

/-! ### What follows a resume (R108, R109) -/

/-- A breath that ends at once ends in the event that begins it. -/
theorem nextAtOnce_of_breathDue {w : Wait} (ending : s.player.state ≠ .ENDING) (stopping : s.player.state ≠ .STOPPING)
    (stands : s.player.wait = some w) (breath : w.phase = .BREATH) (ends : due s w.breathEnd = true) :
    nextAtOnce s = some (endBreath w s) := by
  have minimum : waitIn s.player .MINIMUM = none := by
    unfold waitIn
    rw [stands]
    exact if_neg (by rw [breath]; nofun)
  have inBreath : waitIn s.player .BREATH = some w := waitIn_eq_some_iff.mpr ⟨stands, breath⟩
  unfold nextAtOnce
  rw [idleDue_of_state ending stopping, minimum, inBreath, if_neg Bool.false_ne_true]
  dsimp only
  rw [ends]
  rfl

theorem endBreath_fermata {w : Wait} {n : Nat} (fermata : w.kind = .fermata) (sec : s.player.sec = some n) :
    endBreath w s = backInSection n s := by
  unfold endBreath
  rw [fermata, sec]
  rfl

theorem endBreath_section {w : Wait} (other : w.kind ≠ .fermata) : endBreath w s = sectionEntered w.resume.sec s := by
  unfold endBreath
  cases kind : w.kind with
  | fermata => exact absurd kind other
  | gap | start => rfl

theorem inSection_stateOfSection (n : Nat) : (stateOfSection n == .INTRO || stateOfSection n == .VERSE
    || stateOfSection n == .AMEN) = true := by
  unfold stateOfSection
  split_ifs <;> rfl

theorem nextAtOnce_backInSection {n : Nat} (nothing : NothingDue (backInSection n s)) : nextAtOnce (backInSection n s) = none :=
  nextAtOnce_of_nothingDue (inSection_stateOfSection n) nothing

theorem nextAtOnce_sectionEntered {n : Nat} (nothing : NothingDue (sectionEntered n s)) :
    nextAtOnce (sectionEntered n s) = none :=
  nextAtOnce_of_nothingDue (inSection_stateOfSection n) nothing

theorem chain_of_none (rests : nextAtOnce s = none) : ∀ n, chain n s = s
  | 0 => rfl
  | n + 1 => by
    unfold chain
    rw [rests]

theorem chain_of_next {t : State} (next : nextAtOnce s = some t) (n : Nat) : chain (n + 1) s = chain n t := by
  rw [chain, next]

theorem chain_of_breathDue {w : Wait} (ending : s.player.state ≠ .ENDING) (stopping : s.player.state ≠ .STOPPING)
    (stands : s.player.wait = some w) (breath : w.phase = .BREATH) (ends : due s w.breathEnd = true) (m : Nat) :
    (w.kind = .fermata → ∀ n, s.player.sec = some n → NothingDue (backInSection n s) → chain (m + 1) s = backInSection n s)
      ∧ (w.kind ≠ .fermata → NothingDue (sectionEntered w.resume.sec s) → chain (m + 1) s = sectionEntered w.resume.sec s) := by
  rw [chain_of_next (nextAtOnce_of_breathDue ending stopping stands breath ends)]
  refine ⟨fun fermata n sec nothing => ?_, fun other nothing => ?_⟩
  · rw [endBreath_fermata fermata sec, chain_of_none (nextAtOnce_backInSection nothing)]
  · rw [endBreath_section other, chain_of_none (nextAtOnce_sectionEntered nothing)]

/-- How the event of a resume ends. -/
theorem goesOn {b m : Nat} {w : Wait} {ends : State → Prop} (ending : s.player.state ≠ .ENDING)
    (stopping : s.player.state ≠ .STOPPING) (stands : s.player.wait = some (breathing w s.now b)) (high : b ≤ 10000)
    (follows_ : ends (chain (m + 1) s)) : GoesOn b w s ends := by
  have once (now : b = 0) : due s (breathing w s.now b).breathEnd = true := by
    subst now
    exact due_now (timePlus_zero s.now)
  refine ⟨fun low => ?_, fun now fermata n sec nothing => ?_, fun now other nothing => ?_⟩
  · rwa [chain_of_none (nextAtOnce_of_breathing ending stopping stands rfl (due_timePlus (by omega) (by omega)))] at follows_
  · rwa [(chain_of_breathDue ending stopping stands rfl (once now) m).1 fermata n sec nothing] at follows_
  · rwa [(chain_of_breathDue ending stopping stands rfl (once now) m).2 other nothing] at follows_

end Sys2Proof.Proofs
end

section
/-! PROOFS. What rises stays: no walking, looking, planning or ending of a section puts a flag down, and a planning
leaves the firm boundary one firm lead from now (R125, R174, R178). -/

namespace Sys2Proof.Proofs

open Sys2Proof.Machine Sys2Proof.Laws Sys2Proof.Claims

variable {s t u : State}

/-- No flag that is up goes down, and the firm boundary, one firm lead from now, stays there. -/
structure Rises (s t : State) : Prop where
  still : Still s t
  up : RaisesCanonical s.flags → RaisesCanonical t.flags ∧ ∀ g, flagUp s.flags g = true → flagUp t.flags g = true
  boundary : s.keys.boundary = timePlus s.now s.params.firmLead → t.keys.boundary = timePlus s.now s.params.firmLead

theorem Rises.refl (s : State) : Rises s s := ⟨.refl s, fun canonical => ⟨canonical, fun _ => id⟩, id⟩

theorem Rises.trans (first : Rises s t) (second : Rises t u) : Rises s u := by
  refine ⟨first.still.trans second.still, fun canonical => ?_, fun at_ => ?_⟩
  · obtain ⟨canonical, up⟩ := first.up canonical
    obtain ⟨canonical, up'⟩ := second.up canonical
    exact ⟨canonical, fun g => up' g ∘ up g⟩
  · have same : timePlus t.now t.params.firmLead = timePlus s.now s.params.firmLead := by
      rw [first.still.frame.now, first.still.frame.params]
    rw [← same]
    exact second.boundary (by rw [same]; exact first.boundary at_)

/-- A flag up before is up after, of a part whose raise records are in canonical form. -/
theorem Rises.stays (rises : Rises s t) (canonical : s.flags.raised.wf none = true) {g : Flag}
    (up : flagUp s.flags g = true) : flagUp t.flags g = true := (rises.up canonical).2 g up

/-! ### One block at a time -/

theorem rises_of_flags (still_ : Still s t) (flags : t.flags = s.flags) (boundary : t.keys.boundary = s.keys.boundary) :
    Rises s t := ⟨still_, fun canonical => by rw [flags]; exact ⟨canonical, fun _ => id⟩, fun at_ => by rw [boundary, at_]⟩

theorem rises_player (p : Player) : Rises s { s with player := p } := rises_of_flags (still_player s p) rfl rfl

theorem rises_follow (f : Follow) : Rises s { s with follow := f } := rises_of_flags (still_follow s f) rfl rfl

theorem rises_raise (k : Kind) : Rises s (raise k s) :=
  ⟨still_raise s k, fun canonical => ⟨raisesCanonical_raiseFlags _ _ canonical, fun _ => flagUp_raise k canonical⟩, id⟩

/-- Whatever is made of the schedule, a firming pass sets its boundary. -/
theorem rises_firmed (k : Schedule) : Rises s { s with keys := firmPass s.now s.params.firmLead k } :=
  ⟨still_keys s _, fun canonical => ⟨canonical, fun _ => id⟩, fun _ => rfl⟩

theorem rises_noteFault (n i : Nat) (r : Reader) : Rises s (noteFault n i r s) :=
  (rises_of_flags (still_store s (noteFaultIn n i s.store)) rfl rfl).trans (rises_raise _)

/-! ### Reading ahead, planning, entering and leaving (R96 to R99) -/

theorem rises_readGood (n : Nat) (sl : Slot) :
    ∀ (left i : Nat) (run : Bool) (s : State), Rises s (readGood n sl left i run s).1
  | 0, _, _, s => .refl s
  | left + 1, i, run, s => by
    unfold readGood
    split
    · exact .refl s
    · exact (rises_noteFault n i .player).trans (rises_readGood n sl left _ _ _)

theorem rises_readAheadFrom (sec i : Nat) : Rises s (readAheadFrom sec i s).1 := by
  unfold readAheadFrom
  split
  · exact rises_player _
  · exact (rises_readGood _ _ _ _ _ s).trans (rises_player _)

theorem rises_beginWalk (sec : Nat) : Rises s (beginWalk sec s) := by
  unfold beginWalk
  split
  · exact rises_readAheadFrom _ _
  · exact .refl s

theorem rises_placeOrRefuse (sec step : Nat) (d : List Draft) : Rises s (placeOrRefuse s sec step d).1 := by
  unfold placeOrRefuse
  split
  · exact rises_firmed _
  · exact rises_raise _

theorem rises_handStep (w : WindowStep) : Rises s (handStep w s).1 := by
  unfold handStep
  dsimp only
  split
  · exact (rises_placeOrRefuse _ _ _).trans (rises_player _)
  · exact rises_placeOrRefuse _ _ _

theorem rises_planSteps : ∀ (n : Nat) (s : State), Rises s (planSteps n s)
  | 0, s => .refl s
  | n + 1, s => by
    unfold planSteps
    split
    · exact .refl s
    · dsimp only
      split
      · exact (rises_handStep _).trans (rises_planSteps n _)
      · exact rises_handStep _

theorem rises_handIfFirst (sec i : Nat) : Rises s (handIfFirst sec i s) := by
  unfold handIfFirst
  split
  · split
    · exact rises_handStep _
    · exact .refl s
  · exact .refl s

theorem rises_extendStep (w : WindowStep) (e : Nat) : Rises s (extendStep w e s) := by
  unfold extendStep
  dsimp only
  split
  · split
    · exact .refl s
    · exact (rises_of_flags (still_keys s _) rfl rfl : Rises s { s with keys := { s.keys with events := _ } }).trans
        (rises_firmed _)
  · exact rises_raise _

theorem rises_attachSuccessor (sec i : Nat) (run : Bool) : Rises s (attachSuccessor sec i run s) := by
  unfold attachSuccessor
  dsimp only
  split
  · split
    · exact (rises_player _).trans (rises_extendStep _ _)
    · exact rises_player _
  · exact rises_player _

theorem rises_enterStep (r : ReadAhead) : Rises s (enterStep r s) := by
  unfold enterStep
  exact ((((rises_player _).trans (rises_readAheadFrom _ _)).trans (rises_attachSuccessor _ _ _)).trans
    (rises_player _)).trans (rises_handIfFirst _ _)

theorem rises_enterDueSteps : ∀ (n : Nat) (s : State), Rises s (enterDueSteps n s).1
  | 0, s => .refl s
  | n + 1, s => by
    unfold enterDueSteps
    split
    · exact (rises_enterStep _).trans (rises_enterDueSteps n _)
    · exact .refl s

theorem rises_leaveWindow : Rises s (leaveWindow s) := rises_player _

theorem rises_admitSteps : ∀ (n : Nat) (s : State), Rises s (admitSteps n s).1
  | 0, s => .refl s
  | n + 1, s => by
    have entered := rises_enterDueSteps (Config.windowPlaces + 1) s
    unfold admitSteps
    dsimp only
    split
    · exact (entered.trans (rises_player _ : Rises _ (leaveFirst _))).trans (rises_admitSteps n _)
    · exact entered

/-! ### Fermata releases and freed places (R117, R123, R129) -/

theorem rises_releaseHeld (sec : Nat) : Rises s (releaseHeld sec s) :=
  rises_of_flags (still_releaseHeld s sec) rfl (releasePairs_boundary _ _ _ _)

theorem rises_handRelease (q : ReleaseRequest) : Rises s (handRelease q s).1 := by
  unfold handRelease
  dsimp only
  split
  · exact (rises_placeOrRefuse _ _ _).trans (rises_player _)
  · exact rises_placeOrRefuse _ _ _

theorem rises_handReleases : ∀ (qs : List ReleaseRequest) (s : State), Rises s (handReleases qs s).1
  | [], s => .refl s
  | q :: rest, s => by
    unfold handReleases
    dsimp only
    split
    · exact (rises_handRelease q).trans (rises_handReleases rest _)
    · exact rises_handRelease q

theorem rises_placesFreed : Rises s (placesFreed s) := by
  have again (u : State) (held : Rises s u) := (held.trans (rises_handReleases u.player.releases u)).trans
    (rises_player { (handReleases u.player.releases u).1.player with releases := (handReleases u.player.releases u).2 })
  unfold placesFreed
  dsimp only
  split <;> split
  · exact (again _ (rises_releaseHeld _)).trans (rises_planSteps _ _)
  · exact again _ (rises_releaseHeld _)
  · exact (again _ (.refl s)).trans (rises_planSteps _ _)
  · exact again _ (.refl s)

theorem rises_decideRelease (w : WindowStep) (t : Time) : Rises s (decideRelease w t s) := by
  unfold decideRelease
  dsimp only
  split
  · exact rises_player _
  · split
    · split
      · exact (rises_player _).trans (rises_handRelease _)
      · exact ((rises_player _).trans (rises_handRelease _)).trans (rises_player _)
    · exact (rises_player _).trans (rises_handIfFirst _ _)

/-! ### The Onset Queue and the end of a hymn -/

theorem rises_setOnsets (q : List Onset) : Rises s (setOnsets q s) := by
  have moved (l : Listen) (same : { l with queue := [], backlog := false } = { s.listen with queue := [], backlog := false }) :
      Rises s { s with listen := l } := rises_of_flags ⟨⟨rfl, rfl, rfl, rfl, rfl, rfl, rfl⟩, rfl, rfl, same⟩ rfl rfl
  unfold setOnsets judgeBacklog
  dsimp only
  split
  · exact (moved { s.listen with queue := q, backlog := true } rfl).trans (rises_raise _)
  · split
    · exact moved { s.listen with queue := q, backlog := false } rfl
    · exact moved { s.listen with queue := q } rfl

theorem rises_becomeIdle : Rises s (becomeIdle s) := by
  unfold becomeIdle
  refine Rises.trans ?_ (rises_setOnsets _)
  refine Rises.trans ?_ (rises_raise _)
  exact rises_of_flags ⟨⟨rfl, rfl, rfl, rfl, rfl, rfl, rfl⟩, rfl, rfl, rfl⟩ rfl rfl

theorem rises_idleIfDone : Rises s (idleIfDone s) := by
  unfold idleIfDone
  split
  · exact rises_becomeIdle
  · exact .refl s

theorem rises_dropAmen : Rises s (dropAmen s) := by
  unfold dropAmen
  refine Rises.trans ?_ rises_placesFreed
  exact rises_of_flags ⟨⟨rfl, rfl, rfl, rfl, rfl, rfl, rfl⟩, rfl, rfl, rfl⟩ rfl rfl

theorem rises_endOfVerse (drop : Bool) (h : endOfVerse drop s = some t) : Rises s t := by
  have player {p : Player} (ends : some { s with player := p } = some t) : Rises s t :=
    Option.some.inj ends ▸ rises_player p
  unfold endOfVerse at h
  dsimp only at h
  by_cases amen : inAmen s.player = true
  · rw [if_pos amen] at h
    cases drop with
    | true => cases h
    | false => exact player h
  rw [if_neg amen] at h
  by_cases ending : s.player.state = .ENDING
  · rw [if_pos ending] at h
    exact player h
  rw [if_neg ending] at h
  by_cases before : beforeAmen s.player = true
  · rw [if_pos before] at h
    cases drop with
    | true => exact Option.some.inj h ▸ ((rises_player _).trans rises_dropAmen).trans rises_idleIfDone
    | false => exact player h
  · rw [if_neg before] at h
    exact player h

theorem rises_finishVerse : Rises s (finishVerse s) := by
  unfold finishVerse
  split
  · exact .refl s
  · cases h : endOfVerse true s with
    | none => exact .refl s
    | some t => exact rises_endOfVerse true h

/-! ### The Follower -/

theorem rises_retime : Rises s (retime s) := rises_firmed _

theorem OnlySeeks.rises (seeks : OnlySeeks s t) : Rises s t := by
  rw [seeks.eq]
  exact rises_follow _

theorem rises_loseChoir : Rises s (loseChoir s) := by
  unfold loseChoir
  dsimp only
  split
  · exact ((rises_follow _).trans (rises_raise _)).trans rises_finishVerse
  · exact (rises_follow _).trans (rises_raise _)

theorem rises_checkLost : Rises s (checkLost s) := by
  unfold checkLost
  split
  · exact rises_loseChoir
  · exact .refl s

theorem rises_decisionFlags (m : MatchWindow) (hit : Option Onset) (c : Correction) (found : Bool) :
    Rises s (decisionFlags m hit c found s) := by
  have told {u : State} (rises : Rises s u) : Rises s (match hit with
      | some o => if found then raise (.choirFound m.point o.time) u else u
      | none => u) := by
    cases hit with
    | none => exact rises
    | some o =>
      dsimp only
      split
      · exact rises.trans (rises_raise _)
      · exact rises
  unfold decisionFlags
  cases c.bound with
  | none => exact told (.refl s)
  | some upper => exact told (rises_raise _)

theorem rises_decideWindow (m : MatchWindow) : Rises s (decideWindow m s).1 := by
  unfold decideWindow
  exact (((rises_follow _).trans (rises_setOnsets _)).trans (rises_decisionFlags _ _ _ _)).trans rises_checkLost

theorem rises_progress : ∀ (n : Nat) (s : State), Rises s (progress n s)
  | 0, s => .refl s
  | n + 1, s => by
    have looked : Rises s (lookForWindow (admitSteps Config.cascadeBound s).2 (admitSteps Config.cascadeBound s).1).1 :=
      (rises_admitSteps _ s).trans (onlySeeks_lookForWindow _ _).rises
    unfold progress
    dsimp only
    split
    next m _ =>
      refine Rises.trans ?_ (rises_progress n _)
      split
      · exact (looked.trans (rises_decideWindow m)).trans rises_retime
      · exact looked.trans (rises_decideWindow m)
    · exact looked.trans rises_leaveWindow

theorem rises_settle : Rises s (settle s) := rises_progress _ s

theorem rises_rebase (t : Time) (p : HymnPos) : Rises s (rebase t p s) := by
  unfold rebase
  split
  · exact .refl s
  · exact (rises_follow _).trans rises_retime

end Sys2Proof.Proofs
end

section
/-! PROOFS. The release of a fermata: its key-ups at a fixed time, and the event in which the Follower rests (R104, R106,
R123). -/

namespace Sys2Proof.Proofs

open Sys2Proof.Machine Sys2Proof.Laws Sys2Proof.Claims

variable {s t u : State}

/-! ### Key-ups of a fixed time (R123, R125, R127) -/

/-- A key-up of basis FIXED is placed at its time and touches no other event. -/
theorem placeDraft_fixed (f : Follow) (o : Organ) (sec : Nat) (step : Option Nat) (k : Schedule) (v : Voice) (d : Division)
    (key : Nat) (t : Time) : placeDraft f o sec step k (draftFixed v d key t)
      = { k with events := placeEvent ⟨.UP, v, d, key, sec, step, .fixed, t, false, k.counter⟩ k.events,
                 counter := k.counter + 1 } := by
  have untied (l : List KeyEvent) (e : KeyEvent) (fixed : e.basis = .fixed) :
      l.foldl (fun u x => tieToStrike f o x u) e = e := by
    induction l with
    | nil => rfl
    | cons x rest ih =>
      rw [List.foldl_cons, show tieToStrike f o x e = e by unfold tieToStrike; rw [fixed], ih]
  unfold placeDraft draftFixed
  dsimp only
  rw [untied _ _ rfl]

theorem mem_placeFixed {f : Follow} {o : Organ} {sec : Nat} {step : Option Nat} {t : Time} {e : KeyEvent}
    (keys : List (Voice × Division × Nat)) (k : Schedule) (member : e ∈ k.events) :
    e ∈ ((keys.map (fun x => draftFixed x.1 x.2.1 x.2.2 t)).foldl (placeDraft f o sec step) k).events := by
  induction keys generalizing k with
  | nil => exact member
  | cons x rest ih =>
    rw [List.map_cons, List.foldl_cons, placeDraft_fixed]
    exact ih _ (mem_placeEvent.mpr (.inr member))

theorem releasedAt_placeFixed {f : Follow} {o : Organ} {sec : Nat} {step : Option Nat} {t : Time}
    (keys : List (Voice × Division × Nat)) (k : Schedule) :
    ReleasedAt t keys ((keys.map (fun x => draftFixed x.1 x.2.1 x.2.2 t)).foldl (placeDraft f o sec step) k) := by
  induction keys generalizing k with
  | nil => exact fun x member => absurd member List.not_mem_nil
  | cons x rest ih =>
    rw [List.map_cons, List.foldl_cons]
    intro y member
    obtain rfl | old := List.mem_cons.mp member
    · rw [placeDraft_fixed]
      exact ⟨_, mem_placeFixed rest _ (mem_placeEvent.mpr (.inl rfl)), rfl, rfl, rfl, rfl⟩
    · exact ih _ y old

/-- A firming pass at or before the time leaves the key-ups at it. -/
theorem ReleasedAt.firmPass {t now : Time} {keys : List (Voice × Division × Nat)} {k : Schedule} {lead : Nat}
    (released : ReleasedAt t keys k) (ahead : later now t = false) : ReleasedAt t keys (firmPass now lead k) := by
  intro x member
  obtain ⟨e, placed, up, key, fixed, time⟩ := released x member
  refine ⟨firmed now (timePlus now lead) e, (firmPass_perm now lead k).symm.subset (List.mem_map_of_mem placed), ?_⟩
  unfold firmed
  split
  · refine ⟨up, key, fixed, ?_⟩
    show timeMax e.time now = t
    rw [time]
    unfold timeMax
    rw [ahead]
    rfl
  · exact ⟨up, key, fixed, time⟩

theorem ReleasedAt.retime {t : Time} {keys : List (Voice × Division × Nat)} (released : ReleasedAt t keys s.keys)
    (ahead : later s.now t = false) : ReleasedAt t keys (retime s).keys := by
  refine ReleasedAt.firmPass (k := { s.keys with events := s.keys.events.map (retimeEvent s.follow s.organ) }) (fun x member => ?_) ahead
  obtain ⟨e, placed, up, key, fixed, time⟩ := released x member
  refine ⟨retimeEvent s.follow s.organ e, List.mem_map_of_mem placed, ?_⟩
  have stays : retimeEvent s.follow s.organ e = e := by
    unfold retimeEvent
    rw [fixed]
    exact ite_self e
  rw [stays]
  exact ⟨up, key, fixed, time⟩

theorem length_firmPass (now : Time) (lead : Nat) (k : Schedule) :
    (firmPass now lead k).events.length = k.events.length := by
  rw [(firmPass_perm now lead k).length_eq, List.length_map]

theorem length_retime : (retime s).keys.events.length = s.keys.events.length :=
  (length_firmPass _ _ _).trans (List.length_map _)

/-- A release request that the schedule has places for. -/
theorem handRelease_placed {q : ReleaseRequest} (places : q.keys.length ≤ 256 - s.keys.events.length)
    (ahead : later s.now q.time = false) :
    (handRelease q s).2 = true
      ∧ (handRelease q s).1.player = updateStep q.sec q.index (fun w => { w with released := true }) s.player
      ∧ ReleasedAt q.time q.keys (handRelease q s).1.keys
      ∧ (handRelease q s).1.keys.events.length = s.keys.events.length + q.keys.length
      ∧ (handRelease q s).1.follow = s.follow := by
  have fits : (q.keys.map (fun k => draftFixed k.1 k.2.1 k.2.2 q.time)).length ≤ freePlaces s.keys := by
    rw [List.length_map]
    exact places
  have placed : placeOrRefuse s q.sec q.index (q.keys.map (fun k => draftFixed k.1 k.2.1 k.2.2 q.time))
      = (placeAll s q.sec (some q.index) (q.keys.map (fun k => draftFixed k.1 k.2.1 k.2.2 q.time)), true) := if_pos fits
  have handed : handRelease q s = ({ placeAll s q.sec (some q.index) (q.keys.map (fun k => draftFixed k.1 k.2.1 k.2.2 q.time)) with
      player := updateStep q.sec q.index (fun w => { w with released := true }) s.player }, true) := by
    unfold handRelease
    rw [placed]
    rfl
  rw [handed]
  refine ⟨rfl, rfl, ReleasedAt.firmPass (releasedAt_placeFixed q.keys s.keys) ahead, ?_, rfl⟩
  refine (length_firmPass _ _ _).trans ?_
  rw [length_placeDrafts, List.length_map]

/-! ### What the decision of a release leaves (R104) -/

/-- The steps ahead are the same but for their marks, and the fence. -/
structure SameSteps (p q : Player) : Prop where
  window : ∃ f, (∀ x, stepFields (f x) = stepFields x) ∧ q.window = p.window.map f
  readAhead : q.readAhead = p.readAhead
  fence : q.fence = p.fence

theorem SameSteps.refl (p : Player) : SameSteps p p := ⟨⟨id, fun _ => rfl, (List.map_id _).symm⟩, rfl, rfl⟩

theorem SameSteps.trans {p q r : Player} (first : SameSteps p q) (second : SameSteps q r) : SameSteps p r := by
  obtain ⟨⟨f, fieldsF, windowF⟩, readF, fenceF⟩ := first
  obtain ⟨⟨g, fieldsG, windowG⟩, readG, fenceG⟩ := second
  refine ⟨⟨g ∘ f, fun x => (fieldsG (f x)).trans (fieldsF x), ?_⟩, readG.trans readF, fenceG.trans fenceF⟩
  rw [windowG, windowF, List.map_map]

theorem Hands.sameSteps {p q : Player} (hands : Hands p q) : SameSteps p q := by
  obtain ⟨f, held, window⟩ := hands.held
  exact ⟨⟨f, fun x => (held x).fields, window⟩, hands.readAhead, hands.fence⟩

theorem sameSteps_updateStep {f : WindowStep → WindowStep} (sec i : Nat) (p : Player)
    (fields : ∀ w, stepFields (f w) = stepFields w) : SameSteps p (updateStep sec i f p) := by
  refine ⟨⟨fun w => if sameStep sec i w then f w else w, fun w => ?_, rfl⟩, rfl, rfl⟩
  dsimp only
  split
  · exact fields w
  · rfl

theorem sameSteps_handRelease (q : ReleaseRequest) : SameSteps s.player (handRelease q s).1.player := by
  unfold handRelease
  dsimp only
  split
  · dsimp only
    rw [placeOrRefuse_player]
    exact sameSteps_updateStep _ _ _ fun _ => rfl
  · rw [placeOrRefuse_player]
    exact .refl _

theorem sameSteps_decideRelease (w : WindowStep) (t : Time) : SameSteps s.player (decideRelease w t s).player := by
  let s1 : State := { s with player := updateStep w.sec w.index (fun x => { x with release := some t }) s.player }
  have decided : SameSteps s.player s1.player := sameSteps_updateStep _ _ _ fun _ => rfl
  have handed (q : ReleaseRequest) := decided.trans (sameSteps_handRelease (s := s1) q)
  unfold decideRelease
  dsimp only
  split
  · exact decided
  · split
    · split
      · exact handed _
      · exact ⟨(handed _).window, (handed _).readAhead, (handed _).fence⟩
    · exact decided.trans (hands_handIfFirst (s := s1) _ _).sameSteps

theorem SameSteps.stepPos {p q : Player} (same : SameSteps p q) : ∀ x ∈ q.window, ∃ y ∈ p.window, stepPos y = stepPos x := by
  obtain ⟨f, fields, window⟩ := same.window
  intro x member
  rw [window] at member
  obtain ⟨y, old, rfl⟩ := List.mem_map.mp member
  exact ⟨y, old, (congrArg Prod.fst (fields y)).symm⟩

/-- The release of a planned fermata step that stands alone, with places for its key-ups. -/
theorem decideRelease_alone {w : WindowStep} {t : Time} (alone : s.player.window = [w]) (planned : w.planned = true)
    (places : (stepKeys s w).length ≤ 256 - s.keys.events.length) (ahead : later s.now t = false) :
    (decideRelease w t s).player.window = [{ w with release := some t, released := true }]
      ∧ ReleasedAt t (stepKeys s w) (decideRelease w t s).keys
      ∧ (decideRelease w t s).keys.events.length = s.keys.events.length + (stepKeys s w).length := by
  have own : ∀ x : WindowStep, x.sec = w.sec → x.index = w.index → sameStep w.sec w.index x = true := by
    intro x sec index
    simp [sameStep, sec, index]
  let x : WindowStep := { w with release := some t }
  let s1 : State := { s with player := updateStep w.sec w.index (fun x => { x with release := some t }) s.player }
  have window : s1.player.window = [x] := by
    show s.player.window.map _ = _
    rw [alone, List.map_singleton, if_pos (own w rfl rfl)]
  have found : s1.player.window.find? (sameStep w.sec w.index) = some x := by
    rw [window, List.find?_cons, own x rfl rfl]
  have keys : stepKeys s1 x = stepKeys s w := rfl
  let q : ReleaseRequest := ⟨w.sec, w.index, t, stepKeys s w⟩
  obtain ⟨placed, player, released, length, -⟩ := handRelease_placed (s := s1) (q := q) places ahead
  have decides : decideRelease w t s = (handRelease q s1).1 := by
    have shape : decideRelease w t s = match s1.player.window.find? (sameStep w.sec w.index) with
      | none => s1
      | some x =>
        if x.planned then
          let q : ReleaseRequest := ⟨w.sec, w.index, t, stepKeys s1 x⟩
          let r := handRelease q s1
          if r.2 then r.1
          else { r.1 with player := { r.1.player with releases := r.1.player.releases ++ [q] } }
        else handIfFirst w.sec w.index s1 := rfl
    rw [shape, found]
    dsimp only
    rw [if_pos (show x.planned = true from planned), keys, if_pos placed]
  rw [decides]
  refine ⟨?_, released, length⟩
  rw [player]
  show s1.player.window.map _ = _
  rw [window, List.map_singleton, if_pos (own x rfl rfl)]

/-! ### The event in which the Follower rests (R65, R68, R98) -/

theorem admitSteps_of_fenced (fenced : ∀ r, s.player.readAhead = some r → fenceAdmits s.player.fence ⟨r.sec, r.pos⟩ = false) :
    admitSteps Config.cascadeBound s = (s, false) := by
  have waits (v : State) (ahead : v.player.readAhead = s.player.readAhead) (fence : v.player.fence = s.player.fence) :
      entryDue v = none := by
    cases due_ : entryDue v with
    | none => rfl
    | some r =>
      obtain ⟨read, -, admits, -⟩ := entryDue_spec due_
      rw [fence, fenced r (ahead.symm.trans read)] at admits
      cases admits
  have enters : enterDueSteps (Config.windowPlaces + 1) s = (s, false) := by
    rw [show Config.windowPlaces + 1 = 16 + 1 from rfl, enterDueSteps, waits s rfl rfl]
  unfold Config.cascadeBound admitSteps
  rw [enters]
  dsimp only
  rw [waits (leaveFirst s) rfl rfl]
  rfl

/-- A look that finds no step to make a window for. -/
theorem lookForWindow_of_unused (unused : s.follow.window = none → s.follow.state ≠ .OFF → ∀ x ∈ s.player.window, ¬ MayBeUsed s x) :
    ∃ b, lookForWindow false s = (s, b) ∧ atOnce s b = none := by
  unfold lookForWindow
  cases held : s.follow.window with
  | some m => exact ⟨false, rfl, rfl⟩
  | none =>
    have seeks : seekWindow s = s := by
      by_cases off : s.follow.state = .OFF
      · exact seek_stays (.inl off) _
      · refine seek_none (List.find?_eq_none.mpr fun x member used => ?_) _
        exact unused held off x member ((usable_iff s x).mp used)
    refine ⟨true, by rw [seeks], ?_⟩
    unfold atOnce
    rw [held]
    rfl

/-- An event in which the Follower rests admits its steps and lets its steps leave. -/
theorem settle_of_rests (rests : FollowerRests s) :
    settle s = leaveWindow (admitSteps Config.cascadeBound s).1 := by
  obtain ⟨-, m, stands, phase⟩ | ⟨fenced, unused⟩ := rests
  · have quiet : Quiet s := .inl ⟨m, stands, phase⟩
    have stands' : (admitSteps Config.cascadeBound s).1.follow.window = some m := by
      rw [(walks_admitSteps _ s).follow]
      exact stands
    rw [settle_of_quiet quiet, lookForWindow_of_standing stands' _ (.inl phase)]
  · obtain ⟨b, looks, none_⟩ := lookForWindow_of_unused unused
    rw [settle_quiet (t := s) (b := b) (by rw [admitSteps_of_fenced fenced]; exact looks) none_, admitSteps_of_fenced fenced]

theorem settle_rests (rests : FollowerRests s) : Walks s (settle s) := by
  rw [settle_of_rests rests]
  exact (walks_admitSteps _ s).trans walks_leaveWindow

/-- The Follower rests at another Player whose steps ahead and whose plan are the same. -/
theorem FollowerRests.of_sameSteps (rests : FollowerRests s) (follow : t.follow = s.follow) (same : SameSteps s.player t.player)
    (plan : t.player.plan = s.player.plan) : FollowerRests t := by
  obtain stands | ⟨fenced, unused⟩ := rests
  · exact .inl (follow ▸ stands)
  · refine .inr ⟨fun r read => ?_, fun none_ on x member used => ?_⟩
    · rw [same.fence]
      exact fenced r (same.readAhead.symm.trans read)
    · obtain ⟨f, fields, window⟩ := same.window
      rw [follow] at none_ on
      rw [window] at member
      obtain ⟨y, old, rfl⟩ := List.mem_map.mp member
      have parts := fields y
      simp only [stepFields, Prod.mk.injEq, HymnPos.mk.injEq] at parts
      obtain ⟨⟨sec, pos⟩, -, -, point, -⟩ := parts
      refine unused none_ on y old ?_
      obtain ⟨⟨follows_, first, other⟩, behind⟩ := used
      rw [point] at follows_
      rw [sec] at first other
      rw [follow, sec, pos] at behind
      refine ⟨⟨follows_, first, fun away e entry => other away e ?_⟩, behind⟩
      rw [← entry]
      unfold planEntry
      rw [plan]

end Sys2Proof.Proofs
end

section
/-! PROOFS. What the entry to a gap fixes: the OMIT verses passed over and the next verse latched (R91, R92, R95), and the
section that follows (R90, R101). -/

namespace Sys2Proof.Proofs

open Sys2Proof.Machine Sys2Proof.Laws Sys2Proof.Claims

variable {s t u : State}

/-! ### The passing over, with its reservation (R92) -/

/-- A plan entry once the OMIT verses below section `k` are passed over. -/
def passedEntry (k : Nat) (e : PlanEntry) : PlanEntry :=
  if e.verse < k ∧ e.mode = .OMIT then { e with latched := true } else e

theorem passedEntry_verse (k : Nat) (e : PlanEntry) : (passedEntry k e).verse = e.verse := by
  unfold passedEntry
  split_ifs <;> rfl

theorem overPassed_spec (k : Nat) (pl : Plan) (s : State) : ∃ r f, overPassed k pl s = { s with
      player := { s.player with reservation := r, plan := some { pl with entries := pl.entries.map (passedEntry k) } },
      flags := f }
    ∧ (RaisesCanonical s.flags → RaisesCanonical f)
    ∧ ((∃ e ∈ pl.entries, s.player.reservation = .HELD e.verse ∧ e.latched = false ∧ e.verse < k ∧ e.mode = .OMIT) →
        r = .LOST ∧ (RaisesCanonical s.flags → flagUp f .RESERVATION_LOST = true))
    ∧ ((¬ ∃ e ∈ pl.entries, s.player.reservation = .HELD e.verse ∧ e.latched = false ∧ e.verse < k ∧ e.mode = .OMIT) →
        r = s.player.reservation) := by
  have other (held : ∀ v, s.player.reservation ≠ .HELD v) :
      ¬ ∃ e ∈ pl.entries, s.player.reservation = .HELD e.verse ∧ e.latched = false ∧ e.verse < k ∧ e.mode = .OMIT :=
    fun ⟨e, _, names, _⟩ => held _ names
  unfold overPassed
  cases held : s.player.reservation with
  | NONE | LOST =>
    rw [held] at other
    exact ⟨_, s.flags, rfl, id, fun lost => absurd lost (other fun _ => nofun), fun _ => rfl⟩
  | HELD r =>
    dsimp only
    split_ifs with names
    · refine ⟨.LOST, _, rfl, raisesCanonical_raiseFlags s.now _, fun _ => ⟨rfl, fun canonical => ?_⟩, fun kept => ?_⟩
      · exact flagUp_raise_self (s := s) (.reservationLost r) canonical
      · obtain ⟨e, member, rfl, below, mode, unlatched⟩ := names
        exact absurd ⟨e, member, rfl, unlatched, below, mode⟩ kept
    · refine ⟨.HELD r, s.flags, rfl, id, fun lost => ?_, fun _ => rfl⟩
      obtain ⟨e, member, same, unlatched, below, mode⟩ := lost
      cases same
      exact absurd ⟨e, member, rfl, below, mode, unlatched⟩ names

/-! ### The passing over and the latch (R91, R95) -/

/-- A HELD reservation names a verse that is passed over or latched before section `k`. -/
def NamedBefore (k : Nat) (pl : Plan) (s : State) : Prop :=
  ∃ e ∈ pl.entries, s.player.reservation = .HELD e.verse ∧ e.latched = false
    ∧ (e.verse = k ∨ (e.verse < k ∧ e.mode = .OMIT))

/-- What a latch and a passing over write: the registration in force, the channels, the reservation, the plan, the Stop
Queue and the flags. -/
structure Fixed (k : Nat) (pl : Plan) (s t : State) : Prop where
  eq : ∃ r c v q f, t = { s with
    player := { s.player with
      registration := r, channels := c, reservation := v,
      plan := some { pl with entries := pl.entries.map (passedOrLatched k (r.map (·.1))) } },
    keyline := q, flags := f }
  canonical : RaisesCanonical s.flags → RaisesCanonical t.flags
  latched : ∀ e ∈ pl.entries, e.verse = k → e.latched = false → ∀ r, applies s.organ e.registration k = some r →
    t.player.registration = some r ∧ t.player.channels = channelsOf r.2 e.transposition
  stood : (∀ e ∈ pl.entries, e.verse = k → e.latched = true) →
    t.player.registration = s.player.registration ∧ t.player.channels = s.player.channels
  lost : NamedBefore k pl s → t.player.reservation = .LOST
    ∧ (s.flags.raised.wf none = true → flagUp t.flags .RESERVATION_LOST = true)
  kept : ¬ NamedBefore k pl s → t.player.reservation = s.player.reservation

theorem find_passed {pl : Plan} (k : Nat) : (pl.entries.map (passedEntry k)).find? (fun e => e.verse == k)
    = pl.entries.find? (fun e => e.verse == k) := by
  induction pl.entries with
  | nil => rfl
  | cons e rest ih =>
    rw [List.map_cons, List.find?_cons, List.find?_cons, passedEntry_verse]
    by_cases here : e.verse = k
    · have same : passedEntry k e = e := if_neg (by omega)
      simp only [here, beq_self_eq_true, same]
    · simp only [beq_eq_false_iff_ne.mpr here, ih]

/-- Verse `k` is latched already, or has no entry. -/
theorem fixed_of_latched {k : Nat} {pl : Plan} (done : ∀ e ∈ pl.entries, e.verse = k → e.latched = true) :
    Fixed k pl s (overPassed k pl s) := by
  obtain ⟨r, f, passed, canonical, lost, kept⟩ := overPassed_spec k pl s
  have entries (i : Option Nat) : pl.entries.map (passedEntry k) = pl.entries.map (passedOrLatched k i) := by
    refine List.map_congr_left fun e member => ?_
    unfold passedEntry passedOrLatched
    by_cases here : e.verse = k
    · rw [if_neg (by omega), if_pos here, if_pos (done e member here)]
    · rw [if_neg here]
  have named : NamedBefore k pl s ↔ ∃ e ∈ pl.entries, s.player.reservation = .HELD e.verse ∧ e.latched = false
      ∧ e.verse < k ∧ e.mode = .OMIT := by
    refine exists_congr fun e => and_congr_right fun member => and_congr_right fun _ => and_congr_right fun unlatched => ?_
    exact or_iff_right fun here => by rw [done e member here] at unlatched; cases unlatched
  refine ⟨⟨s.player.registration, s.player.channels, r, s.keyline, f, ?_⟩, ?_, fun e member here unlatched => ?_, fun _ => ?_,
    fun named_ => ?_, fun other => ?_⟩
  · rw [passed, entries]
  · rw [passed]
    exact canonical
  · rw [done e member here] at unlatched
    cases unlatched
  · rw [passed]
    exact ⟨rfl, rfl⟩
  · rw [passed]
    exact lost (named.mp named_)
  · rw [passed]
    exact kept (mt named.mpr other)

/-- Verse `k` is latched with the passing over. -/
theorem fixed_of_unlatched {sec k : Nat} {pl : Plan} {e : PlanEntry} (numbered : PlanNumbered pl) (member : e ∈ pl.entries)
    (here : e.verse = k) (unlatched : e.latched = false) :
    Fixed k pl s (loseReservation k (latchedPart sec k e { pl with entries := pl.entries.map (passedEntry k) }
      (overPassed k pl s))) := by
  obtain ⟨r, f, passed, canonical, lost, kept⟩ := overPassed_spec k pl s
  let v : State := { s with
    player := { s.player with reservation := r, plan := some { pl with entries := pl.entries.map (passedEntry k) } },
    flags := f }
  have passed_ : overPassed k pl s = v := passed
  have force : registrationFor v e = registrationFor s e := rfl
  have entries : (pl.entries.map (passedEntry k)).map (latchMark k ((registrationFor s e).map (·.1)))
      = pl.entries.map (passedOrLatched k ((registrationFor s e).map (·.1))) := by
    rw [List.map_map]
    refine List.map_congr_left fun x old => ?_
    unfold passedOrLatched
    by_cases same : x.verse = k
    · have first : passedEntry k x = x := if_neg (by omega)
      have unmarked : x.latched = false := eq_of_verse numbered member old (here.trans same.symm) ▸ unlatched
      rw [Function.comp_apply, first, latchMark, if_pos same, if_pos same, unmarked]
      rfl
    · rw [Function.comp_apply, if_neg same, latchMark, if_neg (by rwa [passedEntry_verse])]
      rfl
  have choice : (∃ x, applies s.organ e.registration k = some x) → registrationFor s e = applies s.organ e.registration k := by
    rintro ⟨x, found⟩
    unfold registrationFor
    rw [here, found]
  have named : NamedBefore k pl s ↔ s.player.reservation = .HELD k
      ∨ ∃ e ∈ pl.entries, s.player.reservation = .HELD e.verse ∧ e.latched = false ∧ e.verse < k ∧ e.mode = .OMIT := by
    constructor
    · rintro ⟨x, old, held, open_, same | below⟩
      · exact .inl (same ▸ held)
      · exact .inr ⟨x, old, held, open_, below⟩
    · rintro (held | ⟨x, old, held, open_, below⟩)
      · exact ⟨e, member, here ▸ held, unlatched, .inl here⟩
      · exact ⟨x, old, held, open_, .inr below⟩
  have before : s.player.reservation = .HELD k → r = .HELD k := by
    intro held
    refine (kept ?_).trans held
    rintro ⟨x, old, held', open_, below, -⟩
    cases held.symm.trans held'
    omega
  have only : r = .HELD k → s.player.reservation = .HELD k := by
    intro held
    by_cases gone : ∃ e ∈ pl.entries, s.player.reservation = .HELD e.verse ∧ e.latched = false ∧ e.verse < k ∧ e.mode = .OMIT
    · cases held.symm.trans (lost gone).1
    · exact (kept gone).symm.trans held
  rw [passed_]
  let w : State := latchedPart sec k e { pl with entries := pl.entries.map (passedEntry k) } v
  have shape : w = { s with
      player := { s.player with
        registration := registrationFor s e,
        channels := ((registrationFor s e).map (fun x => channelsOf x.2 e.transposition)).getD s.player.channels,
        reservation := r,
        plan := some { pl with entries := pl.entries.map (passedOrLatched k ((registrationFor s e).map (·.1))) } },
      keyline := w.keyline, flags := f } := by
    show latchedPart sec k e { pl with entries := pl.entries.map (passedEntry k) } v = _
    unfold latchedPart
    dsimp only
    rw [force, entries]
    rfl
  have common : ∀ z f', (RaisesCanonical s.flags → RaisesCanonical f') →
      (NamedBefore k pl s → z = .LOST ∧ (s.flags.raised.wf none = true → flagUp f' .RESERVATION_LOST = true)) →
      (¬ NamedBefore k pl s → z = s.player.reservation) →
      Fixed k pl s { w with player := { w.player with reservation := z }, flags := f' } := by
    intro z f' canonical' lost' kept'
    rw [shape]
    refine ⟨⟨_, _, _, _, _, rfl⟩, canonical', fun x old same open_ y found => ?_, fun all => ?_, lost', kept'⟩
    · cases eq_of_verse numbered member old (here.trans same.symm)
      dsimp only
      rw [choice ⟨y, found⟩, found]
      exact ⟨rfl, rfl⟩
    · have marked := all e member here
      rw [unlatched] at marked
      cases marked
  by_cases held : r = .HELD k
  · have own := loseReservation_held (s := w) (v := k) held
    rw [own]
    refine common .LOST _ (fun clean => raisesCanonical_raiseFlags _ _ (canonical clean)) (fun _ => ⟨rfl, fun clean => ?_⟩)
      (fun other => absurd (named.mpr (.inl (only held))) other)
    exact flagUp_raise_self (s := { w with player := { w.player with reservation := .LOST } }) (.reservationLost k) (canonical clean)
  · have stays := loseReservation_other (s := w) (v := k) held
    rw [stays]
    have named' : NamedBefore k pl s ↔ ∃ e ∈ pl.entries, s.player.reservation = .HELD e.verse ∧ e.latched = false
        ∧ e.verse < k ∧ e.mode = .OMIT := named.trans (or_iff_right fun own => held (before own))
    exact common r f canonical (fun n => lost (named'.mp n)) fun n => kept (mt named'.mpr n)

/-- R91, R92, R95: what the entry to the gap before section `k` fixes. -/
theorem fixed_fixSection {k : Nat} {pl : Plan} (plan : s.player.plan = some pl) (numbered : PlanNumbered pl) :
    Fixed k pl s (fixSection k s) := by
  have entry : planEntry (overPassed k pl s).player k = pl.entries.find? (fun e => e.verse == k) := by
    obtain ⟨r, f, passed, -⟩ := overPassed_spec k pl s
    rw [passed]
    exact find_passed k
  unfold fixSection
  rw [passOverBelow_eq k plan numbered]
  dsimp only
  cases found : pl.entries.find? (fun e => e.verse == k) with
  | none =>
    rw [entry, found]
    refine fixed_of_latched fun e member here => ?_
    exact absurd (beq_iff_eq.mpr here) (List.find?_eq_none.mp found e member)
  | some e =>
    have member := List.mem_of_find?_eq_some found
    have here : e.verse = k := by simpa using List.find?_some found
    rw [entry, found]
    dsimp only
    by_cases latched_ : e.latched = true
    · rw [if_pos latched_]
      refine fixed_of_latched fun x old same => ?_
      rw [eq_of_verse numbered old member (same.trans here.symm)]
      exact latched_
    · rw [if_neg latched_, latch_eq (pl := { pl with entries := pl.entries.map (passedEntry k) }) ?_ (entry.trans found)]
      · exact fixed_of_unlatched numbered member here (by simpa using latched_)
      · obtain ⟨r, f, passed, -⟩ := overPassed_spec k pl s
        rw [passed]

/-! ### The section that follows (R90, R101) -/

/-- The first entry of a plan with a property of its verse and mode is its lowest. -/
theorem verses_sorted {pl : Plan} (numbered : PlanNumbered pl) : pl.entries.Pairwise (fun a b => a.verse < b.verse) := by
  have sorted : (pl.entries.map (·.verse)).Pairwise (· < ·) := by
    rw [numbered.1]
    exact List.pairwise_lt_range.map _ fun a b below => Nat.succ_lt_succ below
  exact List.pairwise_map.mp sorted

theorem find_lowest {l : List PlanEntry} {p : PlanEntry → Bool} (sorted : l.Pairwise (fun a b => a.verse < b.verse))
    {e : PlanEntry} (member : e ∈ l) (holds : p e = true) (lowest : ∀ x ∈ l, p x = true → e.verse ≤ x.verse) :
    l.find? p = some e := by
  induction l with
  | nil => exact absurd member List.not_mem_nil
  | cons x rest ih =>
    obtain ⟨first, rest_sorted⟩ := List.pairwise_cons.mp sorted
    obtain rfl | later_ := List.mem_cons.mp member
    · rw [List.find?_cons, holds]
    · have other : p x = false := by
        rw [Bool.eq_false_iff]
        intro also
        have := lowest x List.mem_cons_self also
        have := first e later_
        omega
      rw [List.find?_cons, other]
      exact ih rest_sorted later_ fun y old => lowest y (List.mem_cons_of_mem x old)

theorem nextSection_of_after {introGap n k : Nat} {pl : Plan} {g : Gap} (numbered : PlanNumbered pl)
    (after_ : SectionAfter introGap pl n k g) : nextSection introGap pl n = some (k, g) := by
  obtain ⟨below, ⟨e, member, rfl, behind, mode, lowest, gap⟩ | ⟨rfl, amen, rfl, omits⟩⟩ := after_
  · have found : pl.entries.find? (fun e => decide (n < e.verse) && e.mode != .OMIT) = some e := by
      refine find_lowest (verses_sorted numbered) member (by simp [behind, mode]) fun x old also => ?_
      obtain ⟨further, sung⟩ := Bool.and_eq_true_iff.mp also
      exact lowest x old (of_decide_eq_true further) (by simpa using sung)
    unfold nextSection
    rw [if_neg (by show n ≠ 13; omega), found]
    dsimp only
    obtain ⟨rfl, rfl⟩ | ⟨x, old, rfl, positive, rfl⟩ := gap
    · rfl
    · have own : pl.entries.find? (fun y => y.verse == x.verse) = some x := by
        refine find_lowest (verses_sorted numbered) old (beq_self_eq_true _) fun y _ same => ?_
        exact (beq_iff_eq.mp same).ge
      rw [if_neg (by omega), own]
  · have none_ : pl.entries.find? (fun e => decide (n < e.verse) && e.mode != .OMIT) = none := by
      refine List.find?_eq_none.mpr fun e member => ?_
      simpa using omits e member
    unfold nextSection
    rw [if_neg (by show n ≠ 13; omega), none_, amen]
    rfl

end Sys2Proof.Proofs
end

section
/-! PROOFS. How the pauses begin and end (O46). -/

namespace Sys2Proof.Proofs

open Sys2Proof.Machine Sys2Proof.Laws Sys2Proof.Claims

variable {s t u : State}

/-! ### Fermatas, gaps and breaths end (R102, R105, R109) -/

theorem pausesReturn : PausesReturn := by
  intro dt n s live now back
  refine ⟨fun sec due_ nothing => ?_, fun k due_ nothing => ?_, fun w stands breath due_ => ?_⟩
  · refine (onService_live dt fermataBackNow s live).trans (congrArg _ ?_)
    have returns : returnFromFermata now = back := by
      unfold returnFromFermata
      rw [show now.player.sec = some n from sec]
      rfl
    exact (if_pos due_).trans ((congrArg follows returns).trans
      (follows_of_none (nextAtOnce_of_nothingDue (inSection_stateOfSection n) nothing)))
  · refine (onService_live dt gapEndNow s live).trans (congrArg _ ?_)
    unfold gapEndNow
    rw [due_]
    exact follows_of_none (nextAtOnce_sectionEntered nothing)
  · have ends : exec (.breathEnd dt) s = .next (follows (endBreath w now)) := by
      refine (onService_live dt breathEndNow s live).trans (congrArg _ ?_)
      have inBreath : waitIn now.player .BREATH = some w := waitIn_eq_some_iff.mpr ⟨stands, breath⟩
      unfold breathEndNow
      rw [show waitIn (elapse dt s).player .BREATH = some w from inBreath]
      exact if_pos due_
    refine ⟨fun fermata sec nothing => ends.trans (congrArg _ ?_), fun other nothing => ends.trans (congrArg _ ?_)⟩
    · rw [endBreath_fermata (s := now) fermata sec]
      exact follows_of_none (nextAtOnce_backInSection nothing)
    · rw [endBreath_section other]
      exact follows_of_none (nextAtOnce_sectionEntered nothing)

/-! ### The end of a wait's minimum (R107) -/

theorem exec_minimumEnd {dt : Nat} {w : Wait} (live : InService s) (stands : s.player.wait = some w) (phase : w.phase = .MINIMUM)
    (now : w.minimumEnd = s.now + BitVec.ofNat 32 dt) :
    exec (.minimumEnd dt) s = .next (follows (endMinimum w (elapse dt s))) := by
  refine (onService_live dt minimumEndNow s live).trans (congrArg _ ?_)
  have inMinimum : waitIn (elapse dt s).player .MINIMUM = some w := waitIn_eq_some_iff.mpr ⟨stands, phase⟩
  unfold minimumEndNow
  rw [inMinimum]
  exact if_pos (due_now (s := elapse dt s) now)

/-- With the Go latch clear the wait enters WAITING; with it set the wait is void. -/
theorem endMinimum_eq (w : Wait) (s : State) : endMinimum w s
    = if (releaseAtMinimum w s).player.goLatch = true then
        resumeWait w (timePlus (releaseAtMinimum w s).now (releaseAtMinimum w s).params.breath) false (nowVoid w (releaseAtMinimum w s))
      else nowWaiting w (releaseAtMinimum w s) := rfl

theorem releaseAtMinimum_other {w : Wait} (other : w.kind ≠ .fermata) : releaseAtMinimum w s = s := by
  unfold releaseAtMinimum
  cases s.player.fermata with
  | none => rfl
  | some f => exact if_neg other

/-- In a gap, and in a CUED fermata, a wait that is WAITING brings nothing at once. -/
theorem nextAtOnce_of_waiting {w : Wait} (stands : s.player.wait = some w) (phase : w.phase = .WAITING)
    (pauses : (s.player.state = .GAP ∧ ∃ k, s.player.gap = some ⟨k, none⟩)
      ∨ (s.player.state = .FERMATA ∧ ∃ f, s.player.fermata = some f ∧ f.kind = .CUED)) : nextAtOnce s = none := by
  have waits : ∀ x, s.player.wait = some x → (x.phase = .MINIMUM → due s x.minimumEnd = false)
      ∧ (x.phase = .BREATH → due s x.breathEnd = false) := by
    intro x held
    cases stands.symm.trans held
    constructor <;> intro other <;> cases phase.symm.trans other
  obtain ⟨state, k, gap⟩ | ⟨state, f, fermata, cued⟩ := pauses
  · have outside : inSection s.player = false := by simp [inSection, state]
    exact nextAtOnce_eq_none (idleDue_of_state (by rw [state]; nofun) (by rw [state]; nofun)) waits (gapDue_of_cued gap)
      (fermataBackDue_of_state (by rw [state]; nofun)) (fermataDue_of_outside outside) (sectionEndDue_of_outside outside)
  · have outside : inSection s.player = false := by simp [inSection, state]
    exact nextAtOnce_eq_none (idleDue_of_state (by rw [state]; nofun) (by rw [state]; nofun)) waits
      (gapDue_of_state (by rw [state]; nofun)) (fermataBackDue_of_cued fermata cued) (fermataDue_of_outside outside)
      (sectionEndDue_of_outside outside)

theorem rises_resumed (w : Wait) (t : Time) (b : Bool) : Rises s (resumed w t b s) :=
  ((rises_player _).trans (rises_player _)).trans (rises_rebase _ _)

theorem rises_resumeWait (w : Wait) (t : Time) (b : Bool) : Rises s (resumeWait w t b s) := by
  refine (rises_resumed w t b).trans (Rises.trans ?_ rises_settle)
  split
  · exact .refl _
  · exact rises_beginWalk _

/-- A void wait says so, and its flag stays up through the resume. -/
theorem wait_up_of_void {w : Wait} (canonical : u.flags.raised.wf none = true) (t : Time) :
    flagUp (resumeWait w t false (nowVoid w u)).flags .WAIT = true := by
  let v : State := { u with player := { u.player with goLatch := false, lastOutcome := some .void } }
  have up : flagUp (nowVoid w u).flags .WAIT = true := flagUp_raise_self (s := v) (.wait .void w.kind w.resume) canonical
  have clean : (nowVoid w u).flags.raised.wf none = true := raisesCanonical_raiseFlags u.now (.wait .void w.kind w.resume) canonical
  exact (rises_resumeWait w t false).stays clean up

/-- A void wait of a gap resumes, and its event goes on from there. -/
theorem voidGap {w : Wait} {now : Time} {b m : Nat} {ends : State → Prop} (time : u.now = now) (breath : u.params.breath = b)
    (policy : u.params.finishVerse = false) (other : w.kind ≠ .fermata) (high : b ≤ 10000) (state : u.player.state = .GAP)
    (follows_ : ends (chain (m + 1) (resumeWait w (timePlus now b) false (nowVoid w u)))) :
    ResumedSection now w (nowVoid w u) (resumeWait w (timePlus now b) false (nowVoid w u))
      ∧ GoesOn b w (resumeWait w (timePlus now b) false (nowVoid w u)) ends := by
  subst time breath
  have resumed_ : ResumedSection u.now w (nowVoid w u) _ := resumedSection (s := nowVoid w u) (w := w) policy other high
  refine ⟨resumed_, ?_⟩
  have still_ := (rises_resumeWait w (timePlus u.now u.params.breath) false (s := nowVoid w u)).still
  have same : (resumeWait w (timePlus u.now u.params.breath) false (nowVoid w u)).now = u.now := still_.frame.now
  obtain ⟨state', -, -, -, -, -, -, -, -, -, wait, -⟩ := resumed_
  have gap : (resumeWait w (timePlus u.now u.params.breath) false (nowVoid w u)).player.state = .GAP := state'.trans state
  refine goesOn (by rw [gap]; nofun) (by rw [gap]; nofun) ?_ high follows_
  rw [same]
  exact wait

/-- A void wait of a fermata resumes, and its event goes on from there. -/
theorem voidFermata {w : Wait} {now : Time} {b m : Nat} {ends : State → Prop} (time : u.now = now) (breath : u.params.breath = b)
    (policy : u.params.finishVerse = false) (fermata : w.kind = .fermata) (high : b ≤ 10000) (state : u.player.state = .FERMATA)
    (follows_ : ends (chain (m + 1) (resumeWait w (timePlus now b) false (nowVoid w u)))) :
    ResumedBehindFermata now w (nowVoid w u) (resumeWait w (timePlus now b) false (nowVoid w u))
      ∧ GoesOn b w (resumeWait w (timePlus now b) false (nowVoid w u)) ends := by
  subst time breath
  have resumed_ : ResumedBehindFermata u.now w (nowVoid w u) _ :=
    resumedBehindFermata (s := nowVoid w u) (w := w) policy fermata state high
  refine ⟨resumed_, ?_⟩
  have still_ := (rises_resumeWait w (timePlus u.now u.params.breath) false (s := nowVoid w u)).still
  have same : (resumeWait w (timePlus u.now u.params.breath) false (nowVoid w u)).now = u.now := still_.frame.now
  obtain ⟨inFermata, -, -, -, -, -, -, -, -, -, wait, -⟩ := resumed_
  have state' : (resumeWait w (timePlus u.now u.params.breath) false (nowVoid w u)).player.state = .FERMATA := inFermata
  refine goesOn (by rw [state']; nofun) (by rw [state']; nofun) ?_ high follows_
  rw [same]
  exact wait

theorem gapMinimumEnds : GapMinimumEnds := by
  intro dt k w s live state gap stands kind phase time now ends
  have other : w.kind ≠ .fermata := by rw [kind]; nofun
  have ended := exec_minimumEnd live stands phase time
  rw [endMinimum_eq, releaseAtMinimum_other other] at ended
  refine ⟨?_, ?_⟩
  · intro clear
    rw [if_neg (by rw [show (elapse dt s).player.goLatch = false from clear]; nofun)] at ended
    exact ended.trans (congrArg _ (follows_of_none (nextAtOnce_of_waiting rfl rfl (.inl ⟨state, k, gap⟩))))
  · intro set_ policy high v r
    rw [if_pos (show (elapse dt s).player.goLatch = true from set_)] at ended
    obtain ⟨resumes, goes⟩ := voidGap (u := elapse dt s) (now := now) (m := 255) (ends := ends) rfl rfl policy other high state ended
    exact ⟨resumes, goes, fun canonical => wait_up_of_void (u := elapse dt s) canonical _⟩

/-! ### The end of a fermata's minimum (R106, R107) -/

section
variable {w : Wait} {f : FermataRecord}

theorem releaseAtMinimum_fermata (held : s.player.fermata = some f) (kind : w.kind = .fermata) :
    releaseAtMinimum w s = settle (decideRelease f.step w.minimumEnd s) := by
  unfold releaseAtMinimum
  rw [held]
  exact if_pos kind

theorem rises_releaseAtMinimum (w : Wait) (s : State) : Rises s (releaseAtMinimum w s) := by
  unfold releaseAtMinimum
  split
  · split
    · exact (rises_decideRelease _ _).trans rises_settle
    · exact .refl s
  · exact .refl s

/-- With nothing ahead a fermata's resume retimes the schedule and plans nothing. -/
theorem resumeWait_released {keys : List (Voice × Division × Nat)} {now : Time} (fermata : w.kind = .fermata)
    (empty : u.player.window = []) (unread : u.player.readAhead = none) (same : u.now = now)
    (released : ReleasedAt now keys u.keys) (t : Time) :
    (resumeWait w t false u).player.window = [] ∧ ReleasedAt now keys (resumeWait w t false u).keys := by
  rw [resumeWait_of_nothing fermata ⟨empty, unread⟩, resumed_player]
  refine ⟨empty, ?_⟩
  unfold resumed liftAndRebase rebase
  split
  · exact released
  · exact ReleasedAt.retime released (by rw [← same]; exact later_self u.now)

theorem passes_releaseAtMinimum (held : s.player.fermata = some f) (kind : w.kind = .fermata)
    (policy : s.params.finishVerse = false) : Passes s (releaseAtMinimum w s) := by
  have decided := (walks_decideRelease f.step w.minimumEnd (s := s)).passes
  rw [releaseAtMinimum_fermata held kind]
  exact decided.trans (passes_settle (by rw [decided.still.frame.params]; exact policy))

/-- Where the Follower rests, the release of a fermata leaves it and the Listening Unit. -/
theorem releaseAtMinimum_rests (held : s.player.fermata = some f) (kind : w.kind = .fermata) (rests : FollowerRests s) :
    FollowerRests (decideRelease f.step w.minimumEnd s)
      ∧ Walks s (releaseAtMinimum w s) := by
  have decided := walks_decideRelease f.step w.minimumEnd (s := s)
  obtain ⟨-, -, -, plan, -⟩ := of_offWalk decided.player
  have still_ := FollowerRests.of_sameSteps rests decided.follow (sameSteps_decideRelease f.step w.minimumEnd) plan
  rw [releaseAtMinimum_fermata held kind]
  exact ⟨still_, decided.trans (settle_rests still_)⟩

/-- Where the Follower rests and the fermata step stands alone, it leaves with its key-ups at now. -/
theorem releaseAtMinimum_alone (held : s.player.fermata = some f) (kind : w.kind = .fermata) (rests : FollowerRests s)
    (time : w.minimumEnd = s.now) (alone : s.player.window = [f.step]) (unread : s.player.readAhead = none)
    (planned : f.step.planned = true) (places : (stepKeys s f.step).length ≤ 256 - s.keys.events.length) :
    (releaseAtMinimum w s).player.window = [] ∧ (releaseAtMinimum w s).player.readAhead = none
      ∧ ReleasedAt s.now (stepKeys s f.step) (releaseAtMinimum w s).keys := by
  obtain ⟨window, released, -⟩ := decideRelease_alone (t := w.minimumEnd) alone planned places
    (by rw [time]; exact later_self s.now)
  have ahead : (decideRelease f.step w.minimumEnd s).player.readAhead = none :=
    (sameSteps_decideRelease f.step w.minimumEnd).readAhead.trans unread
  rw [releaseAtMinimum_fermata held kind, settle_of_rests (releaseAtMinimum_rests held kind rests).1, admitSteps_of_nothing ahead]
  refine ⟨?_, ahead, time ▸ released⟩
  unfold leaveWindow
  dsimp only
  rw [window]
  simp [leaves, soundArrived, planned]

end

theorem fermataMinimumEnds : FermataMinimumEnds := by
  intro dt w f s live state held cued stands kind phase time policy now m ends released
  have ended := exec_minimumEnd live stands phase time
  rw [endMinimum_eq] at ended
  have passes : Passes (elapse dt s) m := passes_releaseAtMinimum (s := elapse dt s) held kind policy
  obtain ⟨state', sec, -, -, -, -, latch_, -, wait, fermata, -, -⟩ := of_offWalk passes.player
  have inFermata : m.player.state = .FERMATA := state'.trans state
  have record : m.player.fermata = some f := fermata.trans held
  have rested (rests : FollowerRests s) := releaseAtMinimum_rests (s := elapse dt s) held kind rests
  have alone (rests : FollowerRests s) (window : s.player.window = [f.step]) (unread : s.player.readAhead = none)
      (planned : f.step.planned = true) (places : (stepKeys s f.step).length ≤ 256 - s.keys.events.length) :=
    releaseAtMinimum_alone (s := elapse dt s) held kind rests time window unread planned places
  refine ⟨inFermata, sec, record, wait.trans stands, latch_, passes.still.map, passes.still.frame.params, fun rests => ?_,
    ?_, ?_⟩
  · obtain ⟨-, walks⟩ := rested rests
    refine ⟨walks.follow, walks.listen, fun window unread planned places => ?_⟩
    obtain ⟨empty, -, ups⟩ := alone rests window unread planned places
    exact ⟨empty, ups⟩
  · intro clear
    rw [if_neg (by rw [show (releaseAtMinimum w (elapse dt s)).player.goLatch = false from latch_.trans clear]; nofun)] at ended
    exact ended.trans (congrArg _ (follows_of_none (nextAtOnce_of_waiting rfl rfl (.inr ⟨inFermata, f, record, cued⟩))))
  · intro set_ high r
    have breath : m.params.breath = s.params.breath := by rw [passes.still.frame.params]; rfl
    have same : m.now = now := passes.still.frame.now
    have policy' : m.params.finishVerse = false := by
      rw [passes.still.frame.params]
      exact policy
    have follows_ : ends (chain (255 + 1) (resumeWait w (timePlus now s.params.breath) false (nowVoid w m))) := by
      rw [if_pos (show (releaseAtMinimum w (elapse dt s)).player.goLatch = true from latch_.trans set_)] at ended
      show exec (.minimumEnd dt) s = _
      rw [ended, ← same, ← breath]
      rfl
    obtain ⟨resumes, goes⟩ := voidFermata same breath policy' kind high inFermata follows_
    refine ⟨resumes, goes, fun rests window unread planned places => ?_, fun canonical => ?_⟩
    · obtain ⟨empty, none_, ups⟩ := alone rests window unread planned places
      exact resumeWait_released (u := nowVoid w m) kind empty none_ same ups _
    · exact wait_up_of_void ((rises_releaseAtMinimum w (elapse dt s)).up canonical).1 _

end Sys2Proof.Proofs
end

section
/-! PROOFS. The entry to a gap and to a TIMED fermata, and the whole of O46. -/

namespace Sys2Proof.Proofs

open Sys2Proof.Machine Sys2Proof.Laws Sys2Proof.Claims

variable {s t u : State}

/-! ### The fence lifted with its rebase (R83, R98) -/

/-- The fence lifted with its rebase writes the fence, the Follower and the key events alone. -/
theorem liftAndRebase_eq (t : Time) (p : HymnPos) (s : State) : ∃ f k, liftAndRebase t p s
      = { s with player := { s.player with fence := .NONE }, follow := f, keys := k }
    ∧ (s.follow.state ≠ .OFF → f = rebasedFollow t p s.follow) := by
  unfold liftAndRebase rebase
  by_cases off : s.follow.state = .OFF
  · exact ⟨s.follow, s.keys, if_pos off, fun on => absurd off on⟩
  · exact ⟨_, _, if_neg off, fun _ => rfl⟩

theorem rises_liftAndRebase (t : Time) (p : HymnPos) : Rises s (liftAndRebase t p s) :=
  (rises_player _).trans (rises_rebase _ _)

/-! ### The gap entered (R102, R107) -/

/-- The part in the gap before section `k`, its wait or its rebase still to come. -/
def inGap (k : Nat) (timedEnd : Option Time) (s : State) : State :=
  { s with player := { s.player with state := .GAP, gap := some ⟨k, timedEnd⟩ } }

theorem enterGap_cued {g : Gap} (cued : g.cued = true) (k : Nat) (s : State) :
    enterGap k g s = beginWait .gap ⟨k, 0⟩ (gapUnits s.follow.period g.length) (inGap k none s) := by
  unfold enterGap
  rw [cued]
  rfl

/-- The part in a TIMED gap, its walking begun. -/
def gapBegun (k : Nat) (stop : Time) (s : State) : State := beginWalk k (liftAndRebase stop ⟨k, 0⟩ (inGap k (some stop) s))

theorem enterGap_timed {g : Gap} (timed : g.cued = false) (k : Nat) (s : State) :
    enterGap k g s = settle (gapBegun k (timePlus s.now (gapUnits s.follow.period g.length)) s) := by
  unfold enterGap
  rw [timed]
  rfl

theorem rises_gapBegun {k : Nat} {stop : Time} : Rises s (gapBegun k stop s) :=
  ((rises_player _ : Rises s (inGap k (some stop) s)).trans (rises_liftAndRebase _ _)).trans (rises_beginWalk _)

theorem rises_enterGap (k : Nat) (g : Gap) (s : State) : Rises s (enterGap k g s) := by
  cases kind : g.cued with
  | true =>
    rw [enterGap_cued kind]
    exact (rises_player _ : Rises s (inGap k none s)).trans (rises_player _)
  | false =>
    rw [enterGap_timed kind]
    exact rises_gapBegun.trans rises_settle

theorem gapBegun_player (k : Nat) (stop : Time) (s : State) : (gapBegun k stop s).player
      = { (inGap k (some stop) s).player with fence := .NONE, readAhead := (gapBegun k stop s).player.readAhead }
    ∧ ∀ r, (gapBegun k stop s).player.readAhead = some r → s.player.readAhead = some r ∨ (r.sec = k ∧ r.pos ≤ 65535) := by
  obtain ⟨f, x, lifted, -⟩ := liftAndRebase_eq stop ⟨k, 0⟩ (inGap k (some stop) s)
  obtain ⟨player, read⟩ := beginWalk_player k (liftAndRebase stop ⟨k, 0⟩ (inGap k (some stop) s))
  have player' : (liftAndRebase stop ⟨k, 0⟩ (inGap k (some stop) s)).player
      = { (inGap k (some stop) s).player with fence := .NONE } := by rw [lifted]
  rw [player'] at player read
  exact ⟨player, read⟩

/-- A TIMED gap leaves the map, the parameters and the time, and of the Player all but its walk. -/
theorem enterGap_passes {k : Nat} {g : Gap} (timed : g.cued = false) (policy : s.params.finishVerse = false) :
    (enterGap k g s).map = s.map ∧ (enterGap k g s).now = s.now ∧ (enterGap k g s).params = s.params
      ∧ offWalk (enterGap k g s).player
        = offWalk (inGap k (some (timePlus s.now (gapUnits s.follow.period g.length))) s).player := by
  have still_ := (rises_enterGap k g s).still
  refine ⟨still_.map, still_.frame.now, still_.frame.params, ?_⟩
  rw [enterGap_timed timed]
  refine (passes_settle (by rw [rises_gapBegun.still.frame.params]; exact policy)).player.trans ?_
  rw [(gapBegun_player k _ s).1]
  rfl

/-- A step read ahead in section `k`, whatever its index. -/
theorem enterGap_readAhead {k : Nat} {g : Gap} (timed : g.cued = false) (policy : s.params.finishVerse = false)
    (unread : s.player.readAhead = none) : ∀ r, (enterGap k g s).player.readAhead = some r → r.sec = k := by
  rw [enterGap_timed timed]
  generalize timePlus s.now (gapUnits s.follow.period g.length) = stop
  have first : AheadFrom k 0 (gapBegun k stop s).player.readAhead := by
    intro r held
    obtain old | ⟨sec, -⟩ := (gapBegun_player k stop s).2 r held
    · rw [unread] at old
      cases old
    · exact ⟨sec, Nat.zero_le _⟩
  have policy' : (gapBegun k stop s).params.finishVerse = false := by rw [rises_gapBegun.still.frame.params]; exact policy
  have read := settle_walked (Q := fun p => AheadFrom k 0 p.readAhead) (.inl policy') (walked_aheadFrom k 0)
    (fun _ _ _ _ h => h) first
  exact fun r held => (read r held).1

theorem enterGap_fence {k n : Nat} {g : Gap} {sl : Slot} (timed : g.cued = false) (policy : s.params.finishVerse = false)
    (slot : s.player.slot = some n) (held : slotRec s.store n = some sl) :
    FenceLifted k (sectionSteps sl.header k).1 (enterGap k g s) := by
  obtain ⟨f, x, lifted, -⟩ := liftAndRebase_eq (timePlus s.now (gapUnits s.follow.period g.length)) ⟨k, 0⟩
    (inGap k (some (timePlus s.now (gapUnits s.follow.period g.length))) s)
  rw [enterGap_timed timed]
  refine (fenceOpen_settle (.inl (by rw [rises_gapBegun.still.frame.params]; exact policy)) ?_).lifted
  unfold gapBegun
  rw [lifted]
  exact fenceOpen_beginWalk slot held rfl

/-- At QuietAt of its first position a TIMED gap leaves the Follower rebased, and its first step is read, or has
entered. -/
theorem enterGap_quiet {k : Nat} {g : Gap} (timed : g.cued = false)
    (bound : gapUnits s.follow.period g.length ≤ 1000000) (low : 0 ≤ gapUnits s.follow.period g.length)
    (quiet : QuietAt ⟨k, 0⟩ s) :
    RebasedTo (timePlus s.now (gapUnits s.follow.period g.length)) ⟨k, 0⟩ s.follow (enterGap k g s).follow
      ∧ (enterGap k g s).listen = s.listen
      ∧ (0 < gapUnits s.follow.period g.length → FirstStepRead k s (enterGap k g s)) := by
  rw [enterGap_timed timed]
  generalize gapUnits s.follow.period g.length = units at bound low
  obtain ⟨f, x, lifted, rebased⟩ := liftAndRebase_eq (timePlus s.now units) ⟨k, 0⟩ (inGap k (some (timePlus s.now units)) s)
  have follow := rebased (quietAt_on quiet)
  subst follow
  have walks := walks_beginWalk k (s := liftAndRebase (timePlus s.now units) ⟨k, 0⟩ (inGap k (some (timePlus s.now units)) s))
  have follow' : (gapBegun k (timePlus s.now units) s).follow = rebasedFollow (timePlus s.now units) ⟨k, 0⟩ s.follow := by
    unfold gapBegun
    rw [walks.follow, lifted]
    rfl
  have frame := (rises_gapBegun (k := k) (stop := timePlus s.now units) (s := s)).still.frame
  have rests : Quiet (gapBegun k (timePlus s.now units) s) := by
    refine quiet_of_quietAt (t := timePlus s.now units) quiet follow' frame.params (fun x member => ⟨x, ?_, rfl⟩)
      (gapBegun_player k _ s).2 ⟨units, by rw [frame.now], by omega, bound⟩
    rw [(gapBegun_player k _ s).1] at member
    exact member
  obtain ⟨rebased_, listen⟩ := rebasedTo_settle (t := timePlus s.now units) (p := ⟨k, 0⟩) (f := s.follow) rests
    (by rw [follow']; exact rebasedTo_rebasedFollow _ _ _)
  refine ⟨rebased_, listen.trans ?_, fun positive => ?_⟩
  · unfold gapBegun
    rw [walks.listen, lifted]
    rfl
  · refine firstStepRead (f := s.follow) (d := units)
      (u := liftAndRebase (timePlus s.now units) ⟨k, 0⟩ (inGap k (some (timePlus s.now units)) s)) ?_ ?_ rfl ?_ positive bound rests
    all_goals rw [lifted]; rfl

theorem gapUnits_bounds {period length : Nat} (short : length ≤ 1536) (slow : period ≤ 1500000) :
    0 ≤ gapUnits period length ∧ gapUnits period length ≤ 120000 := by
  have product : length * period ≤ 1536 * 1500000 := Nat.mul_le_mul short slow
  unfold gapUnits roundDiv
  omega

/-! ### What follows the entry to a gap (R102, R107) -/

theorem nextAtOnce_of_minimumDue {w : Wait} (ending : s.player.state ≠ .ENDING) (stopping : s.player.state ≠ .STOPPING)
    (stands : s.player.wait = some w) (minimum : w.phase = .MINIMUM) (ends : due s w.minimumEnd = true) :
    nextAtOnce s = some (endMinimum w s) := by
  have inMinimum : waitIn s.player .MINIMUM = some w := waitIn_eq_some_iff.mpr ⟨stands, minimum⟩
  unfold nextAtOnce
  rw [idleDue_of_state ending stopping, inMinimum, if_neg Bool.false_ne_true]
  dsimp only
  rw [ends]
  rfl

theorem gapDue_of_timed {k : Nat} {stop : Time} (state : s.player.state = .GAP) (gap : s.player.gap = some ⟨k, some stop⟩) :
    gapDue s = if due s stop = true then some k else none := by
  unfold gapDue
  rw [state, gap]

theorem nextAtOnce_of_gapDue {k : Nat} {stop : Time} (state : s.player.state = .GAP) (noWait : s.player.wait = none)
    (gap : s.player.gap = some ⟨k, some stop⟩) (ends : due s stop = true) : nextAtOnce s = some (sectionEntered k s) := by
  have none_ (x : WaitPhase) : waitIn s.player x = none := by
    unfold waitIn
    rw [noWait]
  unfold nextAtOnce
  rw [idleDue_of_state (by rw [state]; nofun) (by rw [state]; nofun), none_, none_, gapDue_of_timed state gap, if_pos ends,
    if_neg Bool.false_ne_true]
  rfl

/-- A gap whose end or whose minimum lies ahead brings nothing at once. -/
theorem nextAtOnce_of_gapAhead {k : Nat} {e : Option Time} (state : s.player.state = .GAP) (gap : s.player.gap = some ⟨k, e⟩)
    (ahead : ∀ stop, e = some stop → due s stop = false)
    (waits : ∀ w, s.player.wait = some w → w.phase = .MINIMUM ∧ due s w.minimumEnd = false) : nextAtOnce s = none := by
  have outside : inSection s.player = false := by simp [inSection, state]
  have gapDue_ : gapDue s = none := by
    cases e with
    | none => exact gapDue_of_cued gap
    | some stop => rw [gapDue_of_timed state gap, if_neg (by rw [ahead stop rfl]; nofun)]
  refine nextAtOnce_eq_none (idleDue_of_state (by rw [state]; nofun) (by rw [state]; nofun)) (fun w stands => ?_) gapDue_
    (fermataBackDue_of_state (by rw [state]; nofun)) (fermataDue_of_outside outside) (sectionEndDue_of_outside outside)
  obtain ⟨minimum, runs⟩ := waits w stands
  exact ⟨fun _ => runs, fun breath => by cases minimum.symm.trans breath⟩

end Sys2Proof.Proofs
end

section
/-! PROOFS. The section ends in a gap, a TIMED fermata begins, and the whole of O46. -/

namespace Sys2Proof.Proofs

open Sys2Proof.Machine Sys2Proof.Laws Sys2Proof.Claims

variable {s t u v : State}

/-! ### The section end before a gap (R91, R92, R95, R96, R98, R101, R102, R107) -/

/-- What the entry to a gap of either kind leaves of the Player, and the gap record. -/
theorem enterGap_player {g : Gap} (k : Nat) (policy : s.params.finishVerse = false) :
    (enterGap k g s).player.state = .GAP ∧ (enterGap k g s).player.sec = s.player.sec
      ∧ (enterGap k g s).player.plan = s.player.plan ∧ (enterGap k g s).player.registration = s.player.registration
      ∧ (enterGap k g s).player.channels = s.player.channels ∧ (enterGap k g s).player.reservation = s.player.reservation
      ∧ (enterGap k g s).player.goLatch = s.player.goLatch
      ∧ (enterGap k g s).player.gap
        = some ⟨k, if g.cued then none else some (timePlus s.now (gapUnits s.follow.period g.length))⟩ := by
  cases kind : g.cued with
  | true =>
    rw [enterGap_cued kind]
    exact ⟨rfl, rfl, rfl, rfl, rfl, rfl, rfl, rfl⟩
  | false =>
    obtain ⟨-, -, -, player⟩ := enterGap_passes (k := k) kind policy
    obtain ⟨state, sec, -, plan, registration, channels, latch_, reservation, -, -, gap, -⟩ := of_offWalk player
    exact ⟨state, sec, plan, registration, channels, reservation, latch_, gap⟩

theorem quietAt_of_sub {p : HymnPos} (quiet : QuietAt p s) (follow : t.follow = s.follow) (params : t.params = s.params)
    (window : t.player.window ⊆ s.player.window) (readAhead : t.player.readAhead = s.player.readAhead) : QuietAt p t := by
  unfold QuietAt
  rw [follow, params, readAhead]
  exact quiet.imp_right fun ⟨on, period, lag, width, steps, reads⟩ =>
    ⟨on, period, lag, width, fun x member => steps x (window member), reads⟩

/-- The gap before section `k` as section `n` ends in it, `v` being the part once the verse is fixed. -/
theorem inGapBefore {n k : Nat} {pl : Plan} {g : Gap} (fixed : Fixed k pl (sectionLeft n s) v) (sec : s.player.sec = some n)
    (noWait : s.player.wait = none) (short : g.length ≤ 1536) (slow : s.follow.period ≤ 1500000)
    (policy : s.params.finishVerse = false) : InGapBefore s.now n k pl g s (enterGap k g v) := by
  obtain ⟨⟨r, c, x, q, f, shape⟩, canonical, latched, stood, lost, kept⟩ := fixed
  have now : v.now = s.now := by rw [shape]; rfl
  have follow : v.follow = s.follow := by rw [shape]; rfl
  have policy' : v.params.finishVerse = false := by rw [shape]; exact policy
  have unread : v.player.readAhead = none := by rw [shape]; rfl
  have window : v.player.window = s.player.window.filter (staysPastEnd n) := by rw [shape]; rfl
  obtain ⟨low, high⟩ := gapUnits_bounds short slow
  obtain ⟨state', sec', plan', registration, channels, reservation, latch_, gap⟩ := enterGap_player (g := g) k policy'
  have rises := rises_enterGap k g v
  refine ⟨state', sec'.trans (by rw [shape]; exact sec), rises.still.map.trans (by rw [shape]; rfl), ?_, ?_, ?_, ?_, ?_, ?_,
    fun cued => ?_, fun timed => ?_⟩
  · rw [plan', registration, shape]
  · intro e member here unlatched y found
    obtain ⟨first, second⟩ := latched e member here unlatched y found
    exact ⟨registration.trans first, channels.trans second⟩
  · intro all
    obtain ⟨first, second⟩ := stood all
    exact ⟨registration.trans first, channels.trans second⟩
  · intro named
    obtain ⟨gone, up⟩ := lost named
    exact ⟨reservation.trans gone, fun clean => rises.stays (canonical clean) (up clean)⟩
  · exact fun other => reservation.trans (kept other)
  · exact latch_.trans (by rw [shape]; rfl)
  · rw [cued, if_pos rfl] at gap
    refine ⟨gap, ?_⟩
    rw [enterGap_cued cued, ← follow]
    refine ⟨unread, ⟨_, rfl, rfl, rfl, rfl, ?_⟩, window, ?_, rfl, ?_⟩
    · exact congrArg (timePlus · (gapUnits v.follow.period g.length)) now
    all_goals
      show _ = _
      dsimp only [beginWait, inGap]
      rw [shape]
      rfl
  · rw [timed, if_neg nofun, now, follow] at gap
    obtain ⟨-, -, -, player⟩ := enterGap_passes (k := k) timed policy'
    obtain ⟨-, -, -, -, -, -, -, -, wait, -⟩ := of_offWalk player
    refine ⟨gap, wait.trans (by rw [shape]; exact noWait), enterGap_readAhead timed policy' unread,
      fun m sl slot held => enterGap_fence timed policy' (by rw [shape]; exact slot) (by rw [shape]; exact held), fun quiet => ?_⟩
    have quiet' : QuietAt ⟨k, 0⟩ v := by
      refine quietAt_of_sub quiet follow (by rw [shape]; rfl) ?_ unread
      rw [window]
      exact List.filter_subset_self _
    have bounds : 0 ≤ gapUnits v.follow.period g.length ∧ gapUnits v.follow.period g.length ≤ 1000000 := by
      rw [follow]
      omega
    obtain ⟨rebased, listen, first⟩ := enterGap_quiet timed bounds.2 bounds.1 quiet'
    rw [now, follow] at rebased
    rw [follow] at first
    refine ⟨rebased, listen.trans (by rw [shape]; rfl), fun positive => ?_⟩
    have read := first positive
    generalize enterGap k g v = t at read
    rw [shape] at read
    exact read

/-- How the event of a section end before a gap ends, `t` being the part in the gap. -/
theorem gapGoesOn {n k dt : Nat} {pl : Plan} {g : Gap} (live : InService s) (sec : s.player.sec = some n)
    (due_ : sectionEndDue (elapse dt s) = true) (noWait : s.player.wait = none) (plan : s.player.plan = some pl)
    (numbered : PlanNumbered pl) (after_ : SectionAfter s.params.introGap pl n k g) (short : g.length ≤ 1536)
    (slow : s.follow.period ≤ 1500000) (policy : s.params.finishVerse = false) (ends : State → Prop)
    (own : ∀ x, ends x ↔ exec (.sectionEnd dt) s = .next x)
    (t : State) (entered : t = enterGap k g (fixSection k (sectionLeft n (elapse dt s)))) :
    (0 < gapUnits s.follow.period g.length → ends t)
      ∧ (gapUnits s.follow.period g.length = 0 → g.cued = false → NothingDue (sectionEntered k t) → ends (sectionEntered k t))
      ∧ (gapUnits s.follow.period g.length = 0 → g.cued = true → ∀ w, t.player.wait = some w →
          (s.player.goLatch = false → ends (nowWaiting w t))
          ∧ (s.player.goLatch = true → s.params.breath ≤ 10000 →
              let r := resumeWait w (timePlus (elapse dt s).now s.params.breath) false (nowVoid w t)
              ResumedSection (elapse dt s).now w (nowVoid w t) r ∧ GoesOn s.params.breath w r ends)) := by
  have ended := exec_sectionEnd live sec due_
  rw [endSection_of_next (s := elapse dt s) plan (nextSection_of_after numbered after_), ← entered] at ended
  obtain ⟨⟨r, c, x, q, f, shape⟩, -⟩ := fixed_fixSection (s := sectionLeft n (elapse dt s)) (k := k) plan numbered
  generalize fixSection k (sectionLeft n (elapse dt s)) = v at entered shape
  have policy' : v.params.finishVerse = false := by rw [shape]; exact policy
  have now : v.now = (elapse dt s).now := by rw [shape]; rfl
  have follow : v.follow = s.follow := by rw [shape]; rfl
  have rises := rises_enterGap k g v
  rw [← entered] at rises
  have now' : t.now = v.now := rises.still.frame.now
  obtain ⟨state, -, -, -, -, -, latch_, gap⟩ := enterGap_player (g := g) k policy'
  rw [← entered, follow] at gap
  rw [← entered] at state latch_
  obtain ⟨low, high⟩ := gapUnits_bounds short slow
  have at_ (now_ : gapUnits s.follow.period g.length = 0) : timePlus v.now (gapUnits s.follow.period g.length) = t.now := by
    rw [now_, now']
    exact timePlus_zero v.now
  have runs (positive : 0 < gapUnits s.follow.period g.length) :
      due t (timePlus v.now (gapUnits s.follow.period g.length)) = false := by
    rw [← now']
    exact due_timePlus positive (by omega)
  have waitCued (cued : g.cued = true) : ∃ w, t.player.wait = some w ∧ w.kind = .gap ∧ w.phase = .MINIMUM
      ∧ w.minimumEnd = timePlus v.now (gapUnits s.follow.period g.length) := by
    rw [entered, enterGap_cued cued, ← follow]
    exact ⟨_, rfl, rfl, rfl, rfl⟩
  have waitTimed (timed : g.cued = false) : t.player.wait = none := by
    obtain ⟨-, -, -, player⟩ := enterGap_passes (k := k) timed policy'
    obtain ⟨-, -, -, -, -, -, -, -, wait, -⟩ := of_offWalk player
    rw [entered]
    exact wait.trans (by rw [shape]; exact noWait)
  refine ⟨fun positive => ?_, fun now_ timed nothing => ?_, fun now_ cued w stands => ?_⟩
  · refine (own t).mpr (ended.trans (congrArg _ (follows_of_none (nextAtOnce_of_gapAhead state gap (fun stop same => ?_)
      (fun w stands => ?_)))))
    · cases kind : g.cued with
      | true => rw [kind] at same; cases same
      | false =>
        rw [kind] at same
        cases same
        exact runs positive
    · cases kind : g.cued with
      | false => cases stands.symm.trans (waitTimed kind)
      | true =>
        obtain ⟨w', stands', -, minimum, end_⟩ := waitCued kind
        cases stands.symm.trans stands'
        exact ⟨minimum, by rw [end_]; exact runs positive⟩
  · rw [timed, if_neg nofun] at gap
    have next := nextAtOnce_of_gapDue state (waitTimed timed) gap (due_now (at_ now_))
    exact (own _).mpr (ended.trans (congrArg _ (follows_of_once next (nextAtOnce_sectionEntered nothing))))
  · obtain ⟨w', stands', kind, minimum, end_⟩ := waitCued cued
    cases stands.symm.trans stands'
    have other : w.kind ≠ .fermata := by rw [kind]; nofun
    have next := nextAtOnce_of_minimumDue (by rw [state]; nofun) (by rw [state]; nofun) stands minimum
      (due_now (by rw [end_]; exact at_ now_))
    have chained : follows t = chain 255 (endMinimum w t) := chain_of_next next 255
    rw [chained, endMinimum_eq, releaseAtMinimum_other other] at ended
    have latch' : t.player.goLatch = s.player.goLatch := latch_.trans (by rw [shape]; rfl)
    have breath : t.params.breath = s.params.breath := by rw [rises.still.frame.params, shape]; rfl
    rw [cued, if_pos rfl] at gap
    refine ⟨fun clear => (own _).mpr ?_, fun set_ high => ?_⟩
    · rw [if_neg (by rw [latch', clear]; nofun)] at ended
      exact ended.trans (congrArg _ (chain_of_none (s := nowWaiting w t) (nextAtOnce_of_waiting rfl rfl (.inl ⟨state, k, gap⟩)) _))
    · rw [if_pos (latch'.trans set_)] at ended
      have follows_ : ends (chain (254 + 1) (resumeWait w (timePlus (elapse dt s).now s.params.breath) false (nowVoid w t))) := by
        refine (own _).mpr ?_
        rw [ended, now', now, breath]
      exact voidGap (now'.trans now) breath (by rw [rises.still.frame.params]; exact policy') other high state follows_

theorem sectionEndsInGap : SectionEndsInGap := by
  intro dt n k pl g s live sec due_ noWait plan numbered after_ short slow policy now units t ends
  have fixed := fixed_fixSection (s := sectionLeft n (elapse dt s)) (k := k) plan numbered
  exact ⟨inGapBefore fixed sec noWait short slow policy,
    gapGoesOn live sec due_ noWait plan numbered after_ short slow policy ends (fun _ => Iff.rfl) t rfl⟩

/-! ### A TIMED fermata begins (R98, R104, R105, R145) -/

/-- The part in the TIMED fermata of step `w`, its release and its rebase still to come. -/
def inTimedFermata (w : WindowStep) (f : Fermata) (s : State) : State :=
  let h := holdOf s f.factor w.dur
  { s with
    player := { s.player with
      state := .FERMATA
      fermata := some { step := w, kind := .TIMED, sound := s.now, hold := h, back := timePlus s.now (h + s.params.breath) } },
    map := renewKeys (timePlus s.now s.params.cipherLimit) s.map }

/-- Its release decided and its rebase made. -/
def timedBegun (w : WindowStep) (f : Fermata) (s : State) : State :=
  let h := holdOf s f.factor w.dur
  liftAndRebase (timePlus s.now (h + s.params.breath)) (resumePosition s w.sec)
    (decideRelease w (timePlus s.now h) (inTimedFermata w f s))

theorem enterFermata_timed {w : WindowStep} {f : Fermata} (timed : f.kind = .TIMED) (s : State) :
    enterFermata w f s = settle (timedBegun w f s) := by
  unfold enterFermata
  dsimp only
  rw [timed]
  rfl

/-- The record of the TIMED fermata of step `w`. -/
def timedRecord (w : WindowStep) (f : Fermata) (s : State) : FermataRecord :=
  { step := w, kind := .TIMED, sound := s.now, hold := holdOf s f.factor w.dur,
    back := timePlus s.now (holdOf s f.factor w.dur + s.params.breath) }

section
variable {w : WindowStep} {f : Fermata}

/-- The Player, the map and the rest as the fermata's release is decided and its rebase made. -/
theorem timedBegun_spec (w : WindowStep) (f : Fermata) (s : State) :
    (timedBegun w f s).map = renewKeys (timePlus s.now s.params.cipherLimit) s.map
      ∧ (timedBegun w f s).now = s.now ∧ (timedBegun w f s).params = s.params ∧ (timedBegun w f s).listen = s.listen
      ∧ offWalk (timedBegun w f s).player = offWalk (inTimedFermata w f s).player
      ∧ (timedBegun w f s).player.fence = .NONE ∧ (timedBegun w f s).player.readAhead = s.player.readAhead
      ∧ (∀ x ∈ (timedBegun w f s).player.window, ∃ y ∈ s.player.window, stepPos y = stepPos x)
      ∧ (s.follow.state ≠ .OFF → (timedBegun w f s).follow
        = rebasedFollow (timedRecord w f s).back (resumePosition s w.sec) s.follow)
      ∧ (s.follow.state = .OFF → (timedBegun w f s).follow.state = .OFF) := by
  have walks := walks_decideRelease w (timePlus s.now (holdOf s f.factor w.dur)) (s := inTimedFermata w f s)
  have same := sameSteps_decideRelease w (timePlus s.now (holdOf s f.factor w.dur)) (s := inTimedFermata w f s)
  have frame := walks.still.frame
  obtain ⟨g, k, lifted, on⟩ := liftAndRebase_eq (timedRecord w f s).back (resumePosition s w.sec)
    (decideRelease w (timePlus s.now (holdOf s f.factor w.dur)) (inTimedFermata w f s))
  have shape : timedBegun w f s = _ := lifted
  rw [walks.follow] at on
  rw [shape]
  refine ⟨walks.still.map, frame.now, frame.params, walks.listen, walks.player, rfl, same.readAhead, same.stepPos, on, fun off => ?_⟩
  have rests : timedBegun w f s = { decideRelease w (timePlus s.now (holdOf s f.factor w.dur)) (inTimedFermata w f s) with
      player := { (decideRelease w (timePlus s.now (holdOf s f.factor w.dur)) (inTimedFermata w f s)).player with
        fence := .NONE } } := by
    unfold timedBegun liftAndRebase rebase
    refine if_pos ?_
    show (decideRelease w (timePlus s.now (holdOf s f.factor w.dur)) (inTimedFermata w f s)).follow.state = .OFF
    rw [walks.follow]
    exact off
  rw [shape] at rests
  have follow := congrArg State.follow rests
  dsimp only at follow
  show g.state = .OFF
  rw [follow, walks.follow]
  exact off

theorem beforeAmen_timedBegun : beforeAmen (timedBegun w f s).player = false := by
  obtain ⟨-, -, -, -, player, -⟩ := timedBegun_spec w f s
  obtain ⟨state, -⟩ := of_offWalk player
  unfold beforeAmen
  rw [state]
  rfl

/-- The Player in the fermata, the map and the time, whatever the event walks. -/
theorem enterTimed_player (timed : f.kind = .TIMED) :
    (enterFermata w f s).player.state = .FERMATA ∧ (enterFermata w f s).player.sec = s.player.sec
      ∧ (enterFermata w f s).player.wait = s.player.wait ∧ (enterFermata w f s).player.fermata = some (timedRecord w f s)
      ∧ (enterFermata w f s).map = renewKeys (timePlus s.now s.params.cipherLimit) s.map ∧ (enterFermata w f s).now = s.now := by
  obtain ⟨map, now, -, -, player, -⟩ := timedBegun_spec w f s
  obtain ⟨state, sec, -, -, -, -, -, -, wait, fermata, -⟩ := of_offWalk player
  rw [enterFermata_timed timed]
  have still_ := (rises_settle (s := timedBegun w f s)).still
  have kept := settle_walked (s := timedBegun w f s)
    (Q := fun p => p.state = .FERMATA ∧ p.sec = s.player.sec ∧ p.wait = s.player.wait ∧ p.fermata = some (timedRecord w f s))
    (.inr beforeAmen_timedBegun) (walked_offWalk (Q := fun p => p.state = .FERMATA ∧ p.sec = s.player.sec ∧ p.wait = s.player.wait
      ∧ p.fermata = some (timedRecord w f s)) fun p q same held => by
      obtain ⟨state, sec, -, -, -, -, -, -, wait, fermata, -⟩ := of_offWalk same
      rw [state, sec, wait, fermata]
      exact held) (fun _ _ _ _ held => held) ⟨state, sec, wait, fermata⟩
  obtain ⟨state, sec, wait, fermata⟩ := kept
  exact ⟨state, sec, wait, fermata, still_.map.trans map, still_.frame.now.trans now⟩

/-- At QuietAt of its resume position a TIMED fermata leaves the Follower rebased. -/
theorem enterTimed_quiet (timed : f.kind = .TIMED) (low : 0 < holdOf s f.factor w.dur) (cap : s.params.fermataCap ≤ 290000)
    (high : s.params.breath ≤ 10000) (quiet : QuietAt (resumePosition s w.sec) s) :
    RebasedTo (timedRecord w f s).back (resumePosition s w.sec) s.follow (enterFermata w f s).follow
      ∧ (enterFermata w f s).listen = s.listen := by
  obtain ⟨-, now, params, listen, -, -, readAhead, window, follow, -⟩ := timedBegun_spec w f s
  have on := quietAt_on quiet
  have held : holdOf s f.factor w.dur ≤ s.params.fermataCap := min_le_right _ _
  have rests : Quiet (timedBegun w f s) := by
    refine quiet_of_quietAt (t := (timedRecord w f s).back) quiet (follow on) params window
      (fun r read => .inl (readAhead ▸ read)) ⟨holdOf s f.factor w.dur + s.params.breath, ?_, by omega, by omega⟩
    rw [now]
    rfl
  obtain ⟨rebased, listen'⟩ := rebasedTo_settle (t := (timedRecord w f s).back) (p := resumePosition s w.sec) (f := s.follow) rests
    (by rw [follow on]; exact rebasedTo_rebasedFollow _ _ _)
  rw [enterFermata_timed timed]
  exact ⟨rebased, listen'.trans listen⟩

theorem enterTimed_fence (timed : f.kind = .TIMED) :
    UnreadOrLifted s.player.readAhead (enterFermata w f s).player
      ∧ ∀ r, s.player.readAhead = some r → FenceLifted r.sec r.index (enterFermata w f s) := by
  obtain ⟨-, -, -, -, -, fence, readAhead, -⟩ := timedBegun_spec w f s
  rw [enterFermata_timed timed]
  refine ⟨settle_walked (.inr beforeAmen_timedBegun) (walked_unreadOrLifted _) (fun _ _ _ _ h => h) (.inl ⟨readAhead, fence⟩),
    fun r read => (fenceOpen_settle (.inr beforeAmen_timedBegun) ⟨fun r' held => ?_, .inl fence⟩).lifted⟩
  rw [readAhead, read] at held
  cases held
  exact ⟨rfl, le_rfl⟩

/-- The keys of a fence lifted with its rebase: retimed, or as they were. -/
theorem liftAndRebase_keys (back : Time) (p : HymnPos) {t : Time} {keys : List (Voice × Division × Nat)}
    (released : ReleasedAt t keys s.keys) (ahead : later s.now t = false) :
    ReleasedAt t keys (liftAndRebase back p s).keys
      ∧ (liftAndRebase back p s).keys.events.length = s.keys.events.length := by
  unfold liftAndRebase rebase
  split
  · exact ⟨released, rfl⟩
  · exact ⟨ReleasedAt.retime released ahead, length_retime⟩

/-- A planned fermata step that stands alone leaves with its key-ups at the end of the hold. -/
theorem enterTimed_alone (timed : f.kind = .TIMED) (low : 0 < holdOf s f.factor w.dur) (cap : s.params.fermataCap ≤ 290000)
    (alone : s.player.window = [w]) (unread : s.player.readAhead = none) (planned : w.planned = true)
    (before : w.pos < (resumePosition s w.sec).pos) (sec : (resumePosition s w.sec).sec = w.sec)
    (places : (stepKeys s w).length ≤ 256 - s.keys.events.length) :
    (enterFermata w f s).player.window = [] ∧ (enterFermata w f s).player.fence = .NONE
      ∧ ReleasedAt (timePlus s.now (holdOf s f.factor w.dur)) (stepKeys s w) (enterFermata w f s).keys
      ∧ (enterFermata w f s).keys.events.length = s.keys.events.length + (stepKeys s w).length
      ∧ (s.follow.state ≠ .OFF → RebasedTo (timedRecord w f s).back (resumePosition s w.sec) s.follow
          (enterFermata w f s).follow) := by
  obtain ⟨-, -, -, -, -, fence, readAhead, -, follow, off⟩ := timedBegun_spec w f s
  have held : holdOf s f.factor w.dur ≤ s.params.fermataCap := min_le_right _ _
  have ahead : later s.now (timePlus s.now (holdOf s f.factor w.dur)) = false := by
    have behind := later_timePlus (a := 0) (b := holdOf s f.factor w.dur) s.now (by omega) (by omega)
    rw [timePlus_zero] at behind
    rw [behind]
    exact decide_eq_false (by omega)
  obtain ⟨window, released, length⟩ := decideRelease_alone (s := inTimedFermata w f s)
    (t := timePlus s.now (holdOf s f.factor w.dur)) alone planned places ahead
  have frame := (walks_decideRelease w (timePlus s.now (holdOf s f.factor w.dur)) (s := inTimedFermata w f s)).still.frame
  obtain ⟨ups, count⟩ := liftAndRebase_keys (timedRecord w f s).back (resumePosition s w.sec) released
    (by rw [frame.now]; exact ahead)
  have window' : (timedBegun w f s).player.window
      = [{ w with release := some (timePlus s.now (holdOf s f.factor w.dur)), released := true }] := by
    obtain ⟨g, k, lifted, -⟩ := liftAndRebase_eq (timedRecord w f s).back (resumePosition s w.sec)
      (decideRelease w (timePlus s.now (holdOf s f.factor w.dur)) (inTimedFermata w f s))
    rw [show timedBegun w f s = _ from lifted]
    exact window
  obtain ⟨b, looks, none_⟩ := lookForWindow_of_unused (s := timedBegun w f s) fun _ on x member used => by
    rw [window'] at member
    have behind := used.2
    rw [List.mem_singleton.mp member, follow fun o => on (off o)] at behind
    rw [Bool.eq_false_iff, ne_eq, posBefore_iff] at behind
    exact behind (.inr ⟨sec.symm, before⟩)
  have admits : admitSteps Config.cascadeBound (timedBegun w f s) = (timedBegun w f s, false) :=
    admitSteps_of_nothing (readAhead.trans unread)
  rw [enterFermata_timed timed, settle_quiet (t := timedBegun w f s) (b := b) (by rw [admits]; exact looks) none_]
  refine ⟨?_, fence, ups, count.trans length, fun on => ?_⟩
  · unfold leaveWindow
    dsimp only
    rw [window']
    simp [leaves, soundArrived, planned]
  · show RebasedTo _ _ _ (timedBegun w f s).follow
    rw [follow on]
    exact rebasedTo_rebasedFollow _ _ _

end

theorem timedFermataBegins : TimedFermataBegins := by
  intro dt w f s live due_ own timed noWait cap high now hold back last low
  let z := elapse dt s
  have same : holdOf z f.factor w.dur = hold := rfl
  obtain ⟨state, sec, wait, fermata, map, time⟩ := enterTimed_player (s := z) (w := w) timed
  obtain ⟨unreadOrLifted, lifted⟩ := enterTimed_fence (s := z) (w := w) timed
  have rests : nextAtOnce (enterFermata w f z) = none := by
    have outside : inSection (enterFermata w f z).player = false := by simp [inSection, state]
    refine nextAtOnce_eq_none (idleDue_of_state (by rw [state]; nofun) (by rw [state]; nofun))
      (fun x stands => ?_) (gapDue_of_state (by rw [state]; nofun)) ?_ (fermataDue_of_outside outside)
      (sectionEndDue_of_outside outside)
    · rw [wait, show z.player.wait = none from noWait] at stands
      cases stands
    · have held : holdOf z f.factor w.dur ≤ s.params.fermataCap := min_le_right _ _
      have runs : due (enterFermata w f z) (timedRecord w f z).back = false := by
        show due _ (timePlus z.now _) = false
        rw [← time]
        exact due_timePlus (by omega) (by show holdOf z f.factor w.dur + (s.params.breath : Int) < _; omega)
      unfold fermataBackDue
      rw [state, fermata]
      exact runs
  refine ⟨enterFermata w f z, (onService_live dt fermataNow s live).trans (congrArg _ ?_), state, sec, wait.trans noWait,
    ⟨_, fermata, rfl, rfl, rfl, rfl, rfl⟩, fun d k => ?_, fun d k down => ?_, fun r read here => ?_, fun unread => ?_,
    fun alone unread planned before places => ?_⟩
  · unfold fermataNow
    rw [due_]
    dsimp only
    rw [own]
    exact follows_of_none rests
  · rw [map]
    exact (congrArg KeyEntry.holders (keyEntry_renewKeys _ s.map d k)).trans (renewed_holders _ _)
  · rw [map]
    exact (congrArg KeyEntry.deadline (keyEntry_renewKeys _ s.map d k)).trans (renewed_deadline down)
  · have position : resumePosition z w.sec = ⟨w.sec, r.pos⟩ := by
      unfold resumePosition
      rw [show z.player.readAhead = some r from read]
      exact if_pos here
    refine ⟨here ▸ lifted r read, fun stays => UnreadOrLifted.fence unreadOrLifted (stays.trans read.symm), fun quiet => ?_⟩
    have rebased := enterTimed_quiet (s := z) (w := w) timed low cap high (by rw [position]; exact quiet)
    rw [position] at rebased
    exact rebased
  · have position : resumePosition z w.sec = last := by
      unfold resumePosition
      rw [show z.player.readAhead = none from unread]
      rfl
    refine ⟨?_, fun quiet => ?_⟩
    · obtain ⟨-, fence⟩ | ⟨r, read, -⟩ := unreadOrLifted
      · exact fence
      · rw [show z.player.readAhead = none from unread] at read
        cases read
    · have rebased := enterTimed_quiet (s := z) (w := w) timed low cap high (by rw [position]; exact quiet)
      rw [position] at rebased
      exact rebased
  · have position : resumePosition z w.sec = last := by
      unfold resumePosition
      rw [show z.player.readAhead = none from unread]
      rfl
    have left := enterTimed_alone (s := z) (w := w) timed low cap alone unread planned (by rw [position]; exact before)
      (by rw [position]) places
    rw [position] at left
    exact left

/-- Settles O46: each pause by its entry, what it leaves, and what follows at once. -/
theorem pausesBeginAndEnd : Obligations.PausesBeginAndEnd :=
  ⟨timedFermataBegins, sectionEndsInGap, pausesReturn, gapMinimumEnds, fermataMinimumEnds⟩

end Sys2Proof.Proofs
end

section
/-! PROOFS. START_HYMN: its first tests, and what an accepted one opens (R79, R88, R89, R91). -/

namespace Sys2Proof.Proofs

open Sys2Proof.Machine Sys2Proof.Laws Sys2Proof.Claims

variable {s t u v : State}

/-! ### The tests (R88) -/

theorem readySlot_of_ready {n : Nat} {sl : Slot} (held : slotRec s.store n = some sl) (ready : sl.state = .READY) :
    readySlot s.store n = some sl := by
  unfold readySlot
  rw [held]
  exact if_pos ready

theorem readySlot_none {n : Nat} (other : ∀ sl, slotRec s.store n = some sl → sl.state ≠ .READY) :
    readySlot s.store n = none := by
  unfold readySlot
  cases held : slotRec s.store n with
  | none => rfl
  | some sl => exact if_neg (other sl held)

/-- The first five tests of START_HYMN. -/
theorem answerStartHymn_refused (f : StartFields) (s : State) :
    (32 ≤ f.slot → answerStartHymn f s = refuse s .BAD_FIELD)
      ∧ (f.slot < 32 → s.player.state ≠ .IDLE → answerStartHymn f s = refuse s .WRONG_STATE)
      ∧ (f.slot < 32 → s.player.state = .IDLE → s.keyline.state = .OFF → answerStartHymn f s = refuse s .WRONG_STATE)
      ∧ (f.slot < 32 → s.player.state = .IDLE → s.keyline.state ≠ .OFF → s.store.clearEnd ≠ none →
          answerStartHymn f s = refuse s .BUSY)
      ∧ (f.slot < 32 → s.player.state = .IDLE → s.keyline.state ≠ .OFF → s.store.clearEnd = none →
          (∀ sl, slotRec s.store f.slot = some sl → sl.state ≠ .READY) → answerStartHymn f s = refuse s .NOT_FOUND) := by
  have within (low : f.slot < 32) : ¬ ¬ f.slot < Config.slotCount := not_not.mpr low
  unfold answerStartHymn
  refine ⟨fun high => if_pos (by show ¬ f.slot < 32; omega), fun low busy => ?_, fun low idle off => ?_,
    fun low idle on clearing => ?_, fun low idle on clear other => ?_⟩
  · rw [if_neg (within low), if_pos busy]
  · rw [if_neg (within low), if_neg (not_not.mpr idle), if_pos off]
  · rw [if_neg (within low), if_neg (not_not.mpr idle), if_neg on, if_pos (Option.isSome_iff_ne_none.mpr clearing)]
  · rw [if_neg (within low), if_neg (not_not.mpr idle), if_neg on, clear, if_neg (by exact Bool.false_ne_true),
      readySlot_none other]

/-- A START_HYMN that passes every test starts the hymn. -/
theorem answerStartHymn_started {f : StartFields} {sl : Slot} {es : List PlanEntry} {e : PlanEntry} {r : Nat × Registration}
    (startable : Startable f s sl es e r) : answerStartHymn f s
      = ⟨.OK, ((startHymn f.slot sl.header (buildPlan f es) e.verse s).player.plan.map planBytes).getD [],
          startHymn f.slot sl.header (buildPlan f es) e.verse s⟩ := by
  obtain ⟨low, idle, on, clear, held, ready, good, entries, intro_, amen, opening, chosen⟩ := startable
  have noIntro : ¬ ((buildPlan f es).intro && sl.header.intro.isNone) = true := by
    rw [Bool.and_eq_true, Option.isNone_iff_eq_none]
    rintro ⟨asked, none_⟩
    exact intro_ (beq_iff_eq.mp asked) none_
  have noAmen : ¬ ((buildPlan f es).amen && sl.header.amenSteps == 0) = true := by
    rw [Bool.and_eq_true, beq_iff_eq]
    rintro ⟨asked, none_⟩
    have := amen (beq_iff_eq.mp asked)
    omega
  unfold answerStartHymn
  rw [if_neg (not_not.mpr (show f.slot < Config.slotCount from low)), if_neg (not_not.mpr idle), if_neg on, clear,
    if_neg (by exact Bool.false_ne_true), readySlot_of_ready held ready, good, entries]
  dsimp only
  rw [if_neg noIntro, if_neg noAmen, opening]
  dsimp only
  rw [chosen]

/-! ### The opening verse (R89, R91) -/

theorem unlatched_of_asEntries : ∀ {l : List EntryFields} {es : List PlanEntry}, asEntries l = some es → ∀ e ∈ es, e.latched = false
  | [], _, given, e, member => by cases given; exact absurd member List.not_mem_nil
  | x :: rest, es, given, e, member => by
    unfold asEntries at given
    split at given
    next p ps first further =>
      cases given
      obtain rfl | old := List.mem_cons.mp member
      · unfold asEntry at first
        split at first
        · split at first
          · cases first
            rfl
          · cases first
        · cases first
      · exact unlatched_of_asEntries further e old
    next => cases given

theorem unlatched_buildPlan {f : StartFields} {es : List PlanEntry} (entries : asEntries f.overrides = some es)
    {e : PlanEntry} (member : e ∈ (buildPlan f es).entries) : e.latched = false := by
  obtain ⟨v, -, rfl⟩ := List.mem_map.mp member
  unfold chosenEntry
  cases found : es.find? (fun e => e.verse == v) with
  | none => rfl
  | some x => exact unlatched_of_asEntries entries x (List.mem_of_find?_eq_some found)

/-- The Player as hymn and opening verse are latched: the plan `pl`, the verse's registration and its channels. -/
def openedPlayer (n : Nat) (pl : Plan) (e : PlanEntry) (r : Nat × Registration) : Player :=
  { playerAfterReset with
    slot := some n
    plan := some { pl with entries := pl.entries.map (passedOrLatched e.verse (some r.1)) }
    registration := some r
    channels := channelsOf r.2 e.transposition }

/-- The hymn opened: the slot PLAYING, the opening verse latched, and beside the Stop Queue and the flags nothing else. -/
theorem opened_eq {n : Nat} {pl : Plan} {e : PlanEntry} {r : Nat × Registration} (numbered : PlanNumbered pl)
    (member : e ∈ pl.entries) (unlatched : e.latched = false) (chosen : applies s.organ e.registration e.verse = some r) :
    ∃ q f, opened n pl e.verse s = { s with
        player := openedPlayer n pl e r, keyline := q, flags := f, store := setSlotState n .PLAYING s.store }
      ∧ (RaisesCanonical s.flags → RaisesCanonical f) := by
  let begun : State := { s with player := { playerAfterReset with plan := some pl, slot := some n } }
  have plan : begun.player.plan = some pl := rfl
  have own : planEntry (overPassed e.verse pl begun).player e.verse = some e := by
    obtain ⟨x, f, passed, -⟩ := overPassed_spec e.verse pl begun
    rw [passed]
    refine (find_passed e.verse).trans (find_lowest (verses_sorted numbered) member (beq_self_eq_true _) fun y _ same => ?_)
    exact (beq_iff_eq.mp same).ge
  have latched_ : latch (hymnStart pl e.verse).sec e.verse (passOverBelow e.verse begun)
      = loseReservation e.verse (latchedPart (hymnStart pl e.verse).sec e.verse e
        { pl with entries := pl.entries.map (passedEntry e.verse) } (overPassed e.verse pl begun)) := by
    rw [passOverBelow_eq e.verse plan numbered]
    refine latch_eq ?_ own
    obtain ⟨x, f, passed, -⟩ := overPassed_spec e.verse pl begun
    rw [passed]
  obtain ⟨⟨x, c, z, q, f, shape⟩, canonical, latched, -, -, kept⟩ :=
    fixed_of_unlatched (s := begun) (sec := (hymnStart pl e.verse).sec) numbered member rfl unlatched
  obtain ⟨registration, channels⟩ := latched e member rfl unlatched r chosen
  have unheld : ¬ NamedBefore e.verse pl begun := fun ⟨_, _, held, _⟩ => by cases held
  have reservation := kept unheld
  rw [← latched_] at shape canonical registration channels reservation
  rw [shape] at registration channels reservation canonical
  dsimp only at registration channels reservation
  subst registration channels
  refine ⟨q, f, ?_, canonical⟩
  show ({ latch (hymnStart pl e.verse).sec e.verse (passOverBelow e.verse begun) with store := _ } : State) = _
  rw [shape, reservation]
  rfl

/-- The Follower as a hymn starts (R79). -/
def leadFrom (p : HymnPos) (nominal : Nat) (s : State) : Follow :=
  { followAfterReset with
    state := .LEAD
    anchorTime := timePlus s.now (s.params.firmLead + largestSpeech s.organ)
    anchor := p
    period := nominal
    lastMatch := timePlus s.now (s.params.firmLead + largestSpeech s.organ)
    cursor := p }

/-- The schedule as a hymn starts: retimed by the first anchor (R63, R127). -/
def startKeys (p : HymnPos) (nominal : Nat) (s : State) : Schedule := (retime { s with follow := leadFrom p nominal s }).keys

/-- What an accepted START_HYMN sets before the start kind is judged (R89). -/
theorem openHymn_eq {n : Nat} {pl : Plan} {e : PlanEntry} {r : Nat × Registration} (h : Header) (numbered : PlanNumbered pl)
    (member : e ∈ pl.entries) (unlatched : e.latched = false) (chosen : applies s.organ e.registration e.verse = some r) :
    ∃ q f, openHymn n h pl e.verse s = { s with
        player := openedPlayer n pl e r, keyline := q, flags := f, store := setSlotState n .PLAYING s.store,
        follow := leadFrom (hymnStart pl e.verse) h.nominal s, keys := startKeys (hymnStart pl e.verse) h.nominal s }
      ∧ (RaisesCanonical s.flags → RaisesCanonical f ∧ flagUp f .HYMN = true) := by
  obtain ⟨q, f, opened_, canonical⟩ := opened_eq (n := n) numbered member unlatched chosen
  have shape : openHymn n h pl e.verse s
      = raise (.hymn .started n h.number) (retime (startFollow (hymnStart pl e.verse) h.nominal (opened n pl e.verse s))) := rfl
  rw [shape, opened_]
  refine ⟨q, _, rfl, fun clean => ⟨raisesCanonical_raiseFlags _ _ (canonical clean), ?_⟩⟩
  exact flagUp_raise_self (s := { s with flags := f }) (.hymn .started n h.number) (canonical clean)

theorem startKeys_spec (p : HymnPos) (nominal : Nat) (s : State) :
    (startKeys p nominal s).boundary = timePlus s.now s.params.firmLead ∧ (startKeys p nominal s).counter = s.keys.counter
      ∧ (startKeys p nominal s).events.Perm (s.keys.events.map (fun x =>
          firmed s.now (startKeys p nominal s).boundary (retimed (leadFrom p nominal s) s.organ x))) := by
  refine ⟨rfl, rfl, ?_⟩
  have perm := firmPass_perm s.now s.params.firmLead
    { s.keys with events := s.keys.events.map (retimeEvent (leadFrom p nominal s) s.organ) }
  rw [List.map_map] at perm
  refine perm.trans (List.Perm.of_eq (List.map_congr_left fun x _ => ?_))
  rw [Function.comp_apply, retimeEvent_eq]
  rfl

theorem hymnStart_eq (f : StartFields) (es : List PlanEntry) (e : PlanEntry) :
    hymnStart (buildPlan f es) e.verse = startPosition f e := by
  unfold hymnStart startPosition
  by_cases intro_ : f.intro = 1
  · rw [if_pos intro_, if_pos (show (buildPlan f es).intro = true from beq_iff_eq.mpr intro_)]
  · rw [if_neg intro_, if_neg (show ¬ (buildPlan f es).intro = true from fun asked => intro_ (beq_iff_eq.mp asked))]

/-! ### A CUED start (R107, R110) -/

/-- The part in START_WAIT, its wait WAITING. -/
theorem startHymn_cued {n : Nat} {pl : Plan} {h : Header} {opening : Nat} (cued : pl.cued = true) :
    let t := openHymn n h pl opening s
    let w : Wait :=
      { kind := .start, phase := .MINIMUM, resume := hymnStart pl opening, minimumEnd := timePlus t.now 0, start := t.now,
        breathEnd := t.now, began := t.now, byOnset := false }
    t.player.goLatch = false → t.player.fermata = none →
    startHymn n h pl opening s = nowWaiting w { t with player := { t.player with
      state := .START_WAIT, fence := .CLOSED, wait := some w } } := by
  intro t w clear none_
  let u : State := { t with player := { t.player with state := .START_WAIT, fence := .CLOSED, wait := some w } }
  have starts : startHymn n h pl opening s = follows u := by
    unfold startHymn
    exact if_pos cued
  have next : nextAtOnce u = some (endMinimum w u) :=
    nextAtOnce_of_minimumDue nofun nofun rfl rfl (due_now (s := u) (timePlus_zero t.now))
  have ends : endMinimum w u = nowWaiting w u := by
    rw [endMinimum_eq, releaseAtMinimum_other (show WaitKind.start ≠ .fermata from nofun), if_neg (by show ¬ t.player.goLatch = true; rw [clear]; nofun)]
  rw [ends] at next
  have rests : nextAtOnce (nowWaiting w u) = none := by
    refine nextAtOnce_eq_none (idleDue_of_state nofun nofun) (fun x stands => ?_) (gapDue_of_state nofun)
      (fermataBackDue_of_state nofun) (fermataDue_of_outside rfl) (sectionEndDue_of_outside rfl)
    cases stands
    constructor <;> intro other <;> cases other
  rw [starts]
  exact follows_of_once next rests

end Sys2Proof.Proofs
end

section
/-! PROOFS. An immediate start, and the whole of O29 (R79, R89, R91, R100). -/

namespace Sys2Proof.Proofs

open Sys2Proof.Machine Sys2Proof.Laws Sys2Proof.Claims

variable {s t u v : State}

/-! ### What the walk leaves of the slots (R20) -/

/-- What the walking of a hymn reads of a slot's record, its state with it. -/
def slotWalk (x : Slot) : SlotState × Option Ends := (x.state, x.ends)

/-- The slots keep their states and their section ends. -/
def SlotsStay (s t : State) : Prop :=
  s.store.slots.wf none = true →
    t.store.slots.wf none = true ∧ ∀ m, (slotRec t.store m).map slotWalk = (slotRec s.store m).map slotWalk

theorem SlotsStay.refl (s : State) : SlotsStay s s := fun canonical => ⟨canonical, fun _ => rfl⟩

theorem SlotsStay.trans (first : SlotsStay s t) (second : SlotsStay t u) : SlotsStay s u := by
  intro canonical
  obtain ⟨canonical, same⟩ := first canonical
  obtain ⟨canonical, same'⟩ := second canonical
  exact ⟨canonical, fun m => (same' m).trans (same m)⟩

theorem slotsStay_of_store (store : t.store = s.store) : SlotsStay s t := by
  intro canonical
  rw [store]
  exact ⟨canonical, fun _ => rfl⟩

theorem slotsStay_noteFault (n i : Nat) (r : Reader) : SlotsStay s (noteFault n i r s) := by
  intro canonical
  refine ⟨(noteFaultIn_slots canonical n i).1, fun m => ?_⟩
  show (slotRec (noteFaultIn n i s.store) m).map slotWalk = _
  rw [slotRec_noteFaultIn canonical]
  split
  next here =>
    rw [here, Option.map_map]
    rfl
  next => rfl

theorem slotsStay_readGood (n : Nat) (sl : Slot) :
    ∀ (left i : Nat) (run : Bool) (s : State), SlotsStay s (readGood n sl left i run s).1
  | 0, _, _, s => .refl s
  | left + 1, i, run, s => by
    unfold readGood
    split
    · exact .refl s
    · exact (slotsStay_noteFault n i .player).trans (slotsStay_readGood n sl left _ _ _)

theorem slotsStay_readAheadFrom (sec i : Nat) : SlotsStay s (readAheadFrom sec i s).1 := by
  unfold readAheadFrom
  split
  · exact slotsStay_of_store rfl
  · exact (slotsStay_readGood _ _ _ _ _ s).trans (slotsStay_of_store rfl)

theorem slotsStay_beginWalk (sec : Nat) : SlotsStay s (beginWalk sec s) := by
  unfold beginWalk
  split
  · exact slotsStay_readAheadFrom _ _
  · exact .refl s

theorem placeOrRefuse_store (sec i : Nat) (d : List Draft) : (placeOrRefuse s sec i d).1.store = s.store := by
  unfold placeOrRefuse
  split <;> rfl

theorem handIfFirst_store (sec i : Nat) : (handIfFirst sec i s).store = s.store := by
  have handed (w : WindowStep) : (handStep w s).1.store = s.store := by
    have placed := placeOrRefuse_store (s := s) w.sec w.index (stepDrafts (planContext s w) s.organ s.player.channels w)
    unfold handStep
    dsimp only
    generalize placeOrRefuse s w.sec w.index (stepDrafts (planContext s w) s.organ s.player.channels w) = r at placed
    split <;> exact placed
  unfold handIfFirst
  split
  · split
    · exact handed _
    · rfl
  · rfl

theorem attachSuccessor_store (sec i : Nat) (run : Bool) : (attachSuccessor sec i run s).store = s.store := by
  have extended (w : WindowStep) (e : Nat) (u : State) : (extendStep w e u).store = u.store := by
    unfold extendStep
    dsimp only
    split
    · split <;> rfl
    · rfl
  unfold attachSuccessor
  dsimp only
  split
  · split
    · exact extended _ _ _
    · rfl
  · rfl

theorem slotsStay_enterStep (r : ReadAhead) : SlotsStay s (enterStep r s) := by
  let pushed : State := { s with player := { s.player with window := s.player.window ++ [windowStepOf r] } }
  have read : SlotsStay s (readAheadFrom r.sec (r.index + 1) pushed).1 :=
    (slotsStay_of_store rfl : SlotsStay s pushed).trans (slotsStay_readAheadFrom _ _)
  refine read.trans (slotsStay_of_store ?_)
  exact (handIfFirst_store _ _).trans (attachSuccessor_store _ _ _)

/-! ### The quiet settling of a start -/

/-- The Follower but for the search. -/
def offSearch (f : Follow) : Follow := { f with window := none, prevUsed := none, cursor := ⟨0, 0⟩ }

/-- The steps ahead are of section `sec`, within the range of positions. -/
def StepsWithin (sec : Nat) (p : Player) : Prop :=
  (∀ x ∈ p.window, x.sec = sec ∧ x.pos ≤ 65535) ∧ ∀ r, p.readAhead = some r → r.sec = sec ∧ r.pos ≤ 65535

theorem walked_stepsWithin (sec : Nat) : Walked fun u => StepsWithin sec u.player where
  enter u r within due_ := by
    obtain ⟨window, ahead⟩ := within
    obtain ⟨same, pos⟩ := ahead r (entryDue_spec due_).1
    obtain ⟨⟨f, held, entered⟩, next, -⟩ := enterStep_spec r u
    refine ⟨fun x member => ?_, fun r' read => ?_⟩
    · rw [entered] at member
      obtain ⟨y, old, rfl⟩ := List.mem_map.mp member
      obtain ⟨at_, -, -⟩ := (held y).parts
      rw [show (f y).sec = y.sec from congrArg HymnPos.sec at_, show (f y).pos = y.pos from congrArg HymnPos.pos at_]
      obtain before | new := List.mem_append.mp old
      · exact window y before
      · rw [List.mem_singleton.mp new]
        exact ⟨same, pos⟩
    · obtain ⟨sec', -, pos'⟩ := next r' read
      exact ⟨sec'.trans same, pos'⟩
  leave u l within sub _ := ⟨fun x member => within.1 x (sub.subset member), within.2⟩

/-- A quiet event's walking: what it keeps of the part. -/
theorem settle_quiet_spec (quiet : Quiet u) : Passes u (settle u) ∧ (settle u).listen = u.listen
    ∧ offSearch (settle u).follow = offSearch u.follow ∧ SlotsStay u (settle u)
    ∧ ∀ sec, StepsWithin sec u.player → StepsWithin sec (settle u).player := by
  refine ⟨?_, ?_, ?_, ?_, fun sec within => ?_⟩
  · rw [settle_of_quiet quiet]
    exact ((walks_admitSteps _ u).passes.trans (onlySeeks_lookForWindow _ _).passes).trans walks_leaveWindow.passes
  · refine settle_quiet_keeps (P := fun v => v.listen = u.listen) quiet ⟨fun v r h _ => ?_, fun v l h _ _ => h⟩ (fun v w seeks h => ?_) rfl
    · exact (walks_enterStep r).listen.trans h
    · rw [seeks.eq]
      exact h
  · refine settle_quiet_keeps (P := fun v => offSearch v.follow = offSearch u.follow) quiet ⟨fun v r h _ => ?_, fun v l h _ _ => h⟩
      (fun v w seeks h => ?_) rfl
    · rw [(walks_enterStep r).follow]
      exact h
    · rw [seeks.eq]
      exact h
  · refine settle_quiet_keeps (P := fun v => SlotsStay u v) quiet ⟨fun v r h _ => h.trans (slotsStay_enterStep r), fun v l h _ _ => ?_⟩
      (fun v w seeks h => ?_) (.refl u)
    · exact h.trans (slotsStay_of_store rfl)
    · refine h.trans (slotsStay_of_store ?_)
      rw [seeks.eq]
  · refine settle_quiet_keeps (P := fun v => StepsWithin sec v.player) quiet (walked_stepsWithin sec) (fun v w seeks h => ?_) within
    rw [seeks.eq]
    exact h

/-! ### Nothing is due behind an immediate start (R100) -/

/-- A position behind the anchor sounds later than now where the anchor does. -/
theorem not_due_ahead {f : Follow} {pos : Nat} {d : Int} (anchor : f.anchorTime = timePlus s.now d) (low : 0 < d) (high : d ≤ 1000000)
    (period : f.period ≤ 1500000) (behind : f.anchor.pos ≤ pos) (bound : pos ≤ 131070) : due s (predict f pos) = false := by
  have product : (pos - f.anchor.pos) * f.period ≤ 131070 * 1500000 := Nat.mul_le_mul (by omega) period
  have cast : ((pos : Int) - f.anchor.pos) * f.period = (((pos - f.anchor.pos) * f.period : Nat) : Int) := by
    push_cast [Nat.cast_sub behind]
    rfl
  unfold predict
  rw [cast, anchor, timePlus_timePlus]
  refine due_timePlus ?_ ?_ <;> unfold roundDiv <;> omega

theorem sectionEndOf_le {sl : Slot} (bounded : EndsBounded sl) (sec : Nat) : sectionEndOf sl sec ≤ 131070 := by
  unfold sectionEndOf
  cases ends : sl.ends with
  | none => exact Nat.zero_le _
  | some e =>
    obtain ⟨verse, amen, intro_⟩ := bounded e ends
    dsimp only
    split_ifs <;> assumption

/-- Nothing is due while the anchor, at the beginning of its section, lies ahead. -/
theorem nothingDue_of_ahead {sec : Nat} {d : Int} (noWait : s.player.wait = none) (own : s.player.sec = some sec)
    (anchor : s.follow.anchor = ⟨sec, 0⟩) (time : s.follow.anchorTime = timePlus s.now d) (low : 0 < d) (high : d ≤ 1000000)
    (period : s.follow.period ≤ 1500000) (within : StepsWithin sec s.player) (ends : endPosition s sec ≤ 131070) :
    NothingDue s := by
  have ahead (pos : Nat) (bound : pos ≤ 131070) : due s (predict s.follow pos) = false :=
    not_due_ahead time low high period (by rw [anchor]; exact Nat.zero_le _) bound
  refine ⟨noWait, ?_, ?_⟩
  · unfold fermataDue
    split
    · refine List.find?_eq_none.mpr fun x member holds => ?_
      simp only [Bool.and_eq_true, Option.isNone_iff_eq_none] at holds
      obtain ⟨⟨⟨-, open_⟩, -⟩, arrived_⟩ := holds
      obtain ⟨same, bound⟩ := within.1 x member
      unfold soundArrived at arrived_
      rw [open_, anchor, if_neg (by exact Bool.false_ne_true), if_pos same, ahead x.pos (by omega)] at arrived_
      cases arrived_
    · rfl
  · unfold sectionEndDue
    rw [own]
    dsimp only
    rw [ahead _ ends, Bool.and_false, Bool.and_false]

end Sys2Proof.Proofs
end

section
/-! PROOFS. START_HYMN of either start kind (O29). -/

namespace Sys2Proof.Proofs

open Sys2Proof.Machine Sys2Proof.Laws Sys2Proof.Claims

variable {s t u v : State}

section
variable {f : StartFields} {sl : Slot} {es : List PlanEntry} {e : PlanEntry} {i : Nat} {r : Registration}

/-- The part once an accepted START_HYMN has opened the hymn, with Stop Queue `q` and flags `fl`. -/
def hymnOpened (f : StartFields) (sl : Slot) (es : List PlanEntry) (e : PlanEntry) (r : Nat × Registration) (q : Keyline)
    (fl : Flags) (s : State) : State :=
  { s with
    player := openedPlayer f.slot (buildPlan f es) e r, keyline := q, flags := fl,
    store := setSlotState f.slot .PLAYING s.store, follow := leadFrom (startPosition f e) sl.header.nominal s,
    keys := startKeys (startPosition f e) sl.header.nominal s }

theorem openHymn_startable {r : Nat × Registration} (startable : Startable f s sl es e r) : ∃ q fl,
    openHymn f.slot sl.header (buildPlan f es) e.verse s = hymnOpened f sl es e r q fl s
      ∧ (RaisesCanonical s.flags → RaisesCanonical fl ∧ flagUp fl .HYMN = true) := by
  obtain ⟨-, -, -, -, -, -, good, entries, -, -, opening, chosen⟩ := startable
  have member := List.mem_of_find?_eq_some opening
  obtain ⟨q, fl, opened_, flags⟩ := openHymn_eq (n := f.slot) sl.header (planNumbered_buildPlan es good) member
    (unlatched_buildPlan entries member) chosen
  refine ⟨q, fl, ?_, flags⟩
  rw [opened_, hymnStart_eq]
  rfl

theorem slotRec_hymnOpened {n : Nat} (held : slotRec s.store n = some sl) (canonical : s.store.slots.wf none = true) :
    (setSlotState n .PLAYING s.store).slots.wf none = true
      ∧ slotRec (setSlotState n .PLAYING s.store) n = some { sl with state := .PLAYING } :=
  ⟨((sameTunes_setSlotState n .PLAYING s.store).slots canonical).1, (setSlotState_spec .PLAYING held canonical).1⟩

/-- The exchange of an accepted START_HYMN. -/
theorem exec_startHymn {dt : Nat} {tag : Byte} {r : Nat × Registration} (idle : LinkIdle s) (startable : Startable f s sl es e r) :
    let u := withQueued (.startHymn f) tag (elapse dt s)
    let t := startHymn f.slot sl.header (buildPlan f es) e.verse u
    (∃ fields, exec (.startHymn dt tag f) s = .next (replied (.startHymn f) tag .OK fields { t with link := s.link }))
      ∧ t.organ = s.organ ∧ t.params = s.params ∧ t.store.pool = s.store.pool := by
  intro u t
  have startable' : Startable f u sl es e r := startable
  obtain ⟨-, still_, -, -, -, -, good, -⟩ := startable
  have keeps := keeps_startHymn f.slot sl.header e.verse (s := u) still_ (planNumbered_buildPlan es good)
  refine ⟨⟨_, onService_request_answered (r := .startHymn f) idle (answerStartHymn_started startable') keeps.link⟩,
    keeps.organ, keeps.params, keeps.pool⟩

/-! ### A CUED start -/

theorem startHymn_waits (startable : Startable f s sl es e (i, r)) (cued : f.startKind = 1) : ∃ q fl w,
    startHymn f.slot sl.header (buildPlan f es) e.verse s = nowWaiting w
        { hymnOpened f sl es e (i, r) q fl s with player := { openedPlayer f.slot (buildPlan f es) e (i, r) with
          state := .START_WAIT, fence := .CLOSED, wait := some w } }
      ∧ w.kind = .start ∧ w.resume = startPosition f e
      ∧ (RaisesCanonical s.flags → RaisesCanonical fl ∧ flagUp fl .HYMN = true) := by
  obtain ⟨q, fl, opened_, flags⟩ := openHymn_startable startable
  have waits := startHymn_cued (s := s) (n := f.slot) (h := sl.header) (pl := buildPlan f es) (opening := e.verse)
    (beq_iff_eq.mpr cued)
  rw [opened_] at waits
  exact ⟨q, fl, _, waits rfl rfl, rfl, hymnStart_eq f es e, flags⟩

/-! ### An immediate start -/

/-- The part as the opening section is entered and its walking begins. -/
def sectionBegun (f : StartFields) (sl : Slot) (es : List PlanEntry) (e : PlanEntry) (r : Nat × Registration) (q : Keyline)
    (fl : Flags) (s : State) : State :=
  beginWalk (startPosition f e).sec (enterSection (startPosition f e).sec (hymnOpened f sl es e r q fl s))

variable {q : Keyline} {fl : Flags}

theorem sectionBegun_walks : Walks (enterSection (startPosition f e).sec (hymnOpened f sl es e (i, r) q fl s))
    (sectionBegun f sl es e (i, r) q fl s) := walks_beginWalk _

theorem stepsWithin_sectionBegun :
    StepsWithin (startPosition f e).sec (sectionBegun f sl es e (i, r) q fl s).player := by
  obtain ⟨player, ahead⟩ := beginWalk_player (startPosition f e).sec
    (enterSection (startPosition f e).sec (hymnOpened f sl es e (i, r) q fl s))
  refine ⟨fun x member => ?_, fun x read => (ahead x read).resolve_left nofun⟩
  unfold sectionBegun at member
  rw [player] at member
  exact absurd member List.not_mem_nil

theorem quiet_sectionBegun (nominal : sl.header.nominal ≤ 1500000) (low : 0 < s.params.firmLead + largestSpeech s.organ)
    (high : s.params.firmLead + largestSpeech s.organ ≤ 10000) (lag : s.params.choirLag ≤ 4000)
    (width : s.params.halfWidth ≤ 2500) : Quiet (sectionBegun f sl es e (i, r) q fl s) := by
  have walks := sectionBegun_walks (f := f) (sl := sl) (es := es) (e := e) (i := i) (r := r) (q := q) (fl := fl) (s := s)
  have follow : (sectionBegun f sl es e (i, r) q fl s).follow = leadFrom (startPosition f e) sl.header.nominal s := walks.follow
  have params : (sectionBegun f sl es e (i, r) q fl s).params = s.params := walks.still.frame.params
  have now : (sectionBegun f sl es e (i, r) q fl s).now = s.now := walks.still.frame.now
  obtain ⟨window, ahead⟩ := stepsWithin_sectionBegun (f := f) (sl := sl) (es := es) (e := e) (i := i) (r := r) (q := q) (fl := fl) (s := s)
  refine .inr ⟨?_, ?_, ?_, ?_, ⟨(s.params.firmLead + largestSpeech s.organ : Nat), ?_, ?_, ?_⟩, ?_, fun x member => ?_, fun x read => ?_⟩
  · rw [follow]; rfl
  · rw [follow]; exact nominal
  · rw [params]; exact lag
  · rw [params]; exact width
  · rw [follow, now]; rfl
  · omega
  · omega
  · rw [follow]; simp [leadFrom, posBefore]
  · rw [follow]; exact .inr (window x member)
  · rw [follow]; exact ahead x read

theorem startHymn_enters (startable : Startable f s sl es e (i, r)) (immediate : f.startKind = 0)
    (canonical : s.store.slots.wf none = true) (bounded : EndsBounded sl) (nominal : sl.header.nominal ≤ 1500000)
    (low : 0 < s.params.firmLead + largestSpeech s.organ) (high : s.params.firmLead + largestSpeech s.organ ≤ 10000)
    (lag : s.params.choirLag ≤ 4000) (width : s.params.halfWidth ≤ 2500) : ∃ q fl,
    startHymn f.slot sl.header (buildPlan f es) e.verse s = settle (sectionBegun f sl es e (i, r) q fl s)
      ∧ (RaisesCanonical s.flags → RaisesCanonical fl ∧ flagUp fl .HYMN = true) := by
  obtain ⟨q, fl, opened_, flags⟩ := openHymn_startable startable
  obtain ⟨-, -, -, -, held, -⟩ := startable
  refine ⟨q, fl, ?_, flags⟩
  have other : ¬ (buildPlan f es).cued = true := by
    show ¬ (f.startKind == 1) = true
    rw [immediate]
    nofun
  have starts : startHymn f.slot sl.header (buildPlan f es) e.verse s = follows (settle (sectionBegun f sl es e (i, r) q fl s)) := by
    unfold startHymn
    dsimp only
    rw [if_neg other, opened_, hymnStart_eq]
    rfl
  have quiet := quiet_sectionBegun (f := f) (sl := sl) (es := es) (e := e) (i := i) (r := r) (q := q) (fl := fl) nominal low high lag width
  have walks := sectionBegun_walks (f := f) (sl := sl) (es := es) (e := e) (i := i) (r := r) (q := q) (fl := fl) (s := s)
  have within := stepsWithin_sectionBegun (f := f) (sl := sl) (es := es) (e := e) (i := i) (r := r) (q := q) (fl := fl) (s := s)
  have slots := slotsStay_beginWalk (startPosition f e).sec
    (s := enterSection (startPosition f e).sec (hymnOpened f sl es e (i, r) q fl s))
  obtain ⟨passes, -, follow, slots', within'⟩ := settle_quiet_spec quiet
  obtain ⟨state, sec, slot, -, -, -, -, -, wait, -⟩ := of_offWalk (passes.player.trans walks.player)
  have follow' : offSearch (settle (sectionBegun f sl es e (i, r) q fl s)).follow
      = offSearch (leadFrom (startPosition f e) sl.header.nominal s) := follow.trans (congrArg offSearch walks.follow)
  have now : (settle (sectionBegun f sl es e (i, r) q fl s)).now = s.now := passes.still.frame.now.trans walks.still.frame.now
  obtain ⟨clean, playing⟩ := slotRec_hymnOpened held canonical
  have recorded := ((SlotsStay.trans slots slots') clean).2 f.slot
  have ends : endPosition (settle (sectionBegun f sl es e (i, r) q fl s)) (startPosition f e).sec ≤ 131070 := by
    rw [show slotRec (enterSection (startPosition f e).sec (hymnOpened f sl es e (i, r) q fl s)).store f.slot
      = some { sl with state := .PLAYING } from playing] at recorded
    obtain ⟨x, stands, same⟩ := Option.map_eq_some_iff.mp recorded
    have bounded' : EndsBounded x := by
      have ends : x.ends = sl.ends := congrArg Prod.snd same
      unfold EndsBounded
      rw [ends]
      exact bounded
    unfold endPosition
    rw [playingSlot_eq (slot.trans rfl) stands]
    exact sectionEndOf_le bounded' _
  have nothing : NothingDue (settle (sectionBegun f sl es e (i, r) q fl s)) := by
    refine nothingDue_of_ahead (sec := (startPosition f e).sec) (d := (s.params.firmLead + largestSpeech s.organ : Nat)) wait sec
      ?_ ?_ (by omega) (by omega) ?_ (within' _ within) ends
    · exact congrArg Follow.anchor follow'
    · rw [now]
      exact congrArg Follow.anchorTime follow'
    · rw [show (settle (sectionBegun f sl es e (i, r) q fl s)).follow.period = sl.header.nominal from congrArg Follow.period follow']
      exact nominal
  rw [starts]
  refine follows_of_none (nextAtOnce_of_nothingDue ?_ nothing)
  unfold inSection
  rw [state]
  exact inSection_stateOfSection _

end

theorem immediateStartEntersTheSection : ImmediateStartEntersTheSection := by
  intro dt f tag s sl es e i r idle startable immediate canonical clean bounded _ nominal low high lag width now first start
  let u := withQueued (.startHymn f) tag (elapse dt s)
  have startable' : Startable f u sl es e (i, r) := startable
  obtain ⟨⟨fields, answered⟩, organ, params, pool⟩ := exec_startHymn (dt := dt) (tag := tag) idle startable
  obtain ⟨q, fl, starts, flags⟩ := startHymn_enters startable' immediate canonical bounded nominal low high lag width
  obtain ⟨flags, hymn⟩ := flags clean
  obtain ⟨-, -, -, -, held, -⟩ := startable
  have quiet := quiet_sectionBegun (f := f) (sl := sl) (es := es) (e := e) (i := i) (r := r) (q := q) (fl := fl) (s := u)
    nominal low high lag width
  have walks := sectionBegun_walks (f := f) (sl := sl) (es := es) (e := e) (i := i) (r := r) (q := q) (fl := fl) (s := u)
  have slots := slotsStay_beginWalk start.sec (s := enterSection start.sec (hymnOpened f sl es e (i, r) q fl u))
  have begun : Rises (enterSection start.sec (hymnOpened f sl es e (i, r) q fl u)) (settle (sectionBegun f sl es e (i, r) q fl u)) :=
    Rises.trans (rises_beginWalk _) rises_settle
  obtain ⟨passes, listen, follow, slots', -⟩ := settle_quiet_spec quiet
  obtain ⟨state, sec, slot, plan, registration, channels, latch_, reservation, wait, fermata, gap, -⟩ :=
    of_offWalk (passes.player.trans walks.player)
  have follow' : offSearch (settle (sectionBegun f sl es e (i, r) q fl u)).follow = offSearch (leadFrom start sl.header.nominal u) :=
    follow.trans (congrArg offSearch walks.follow)
  obtain ⟨wf, playing⟩ := slotRec_hymnOpened (s := u) held canonical
  have recorded := ((SlotsStay.trans slots slots') wf).2 f.slot
  rw [show slotRec (enterSection start.sec (hymnOpened f sl es e (i, r) q fl u)).store f.slot
    = some { sl with state := .PLAYING } from playing] at recorded
  obtain ⟨x, stands, same⟩ := Option.map_eq_some_iff.mp recorded
  rw [starts] at answered organ params pool
  have up : flagUp (enterSection start.sec (hymnOpened f sl es e (i, r) q fl u)).flags .VERSE = true :=
    flagUp_raise_self (s := { hymnOpened f sl es e (i, r) q fl u with player := _ }) (.verse start.sec _ _) flags
  have hymn' : flagUp (enterSection start.sec (hymnOpened f sl es e (i, r) q fl u)).flags .HYMN = true :=
    flagUp_raise (s := { hymnOpened f sl es e (i, r) q fl u with player := _ }) (.verse start.sec _ _) flags hymn
  have raised : (enterSection start.sec (hymnOpened f sl es e (i, r) q fl u)).flags.raised.wf none = true :=
    raisesCanonical_raiseFlags u.now (.verse start.sec _ _) flags
  refine ⟨fields, _, answered, state, sec, slot, wait, gap, fermata, latch_, reservation, registration, channels, plan, ?_,
    congrArg Follow.state follow', congrArg Follow.anchorTime follow', congrArg Follow.anchor follow',
    congrArg Follow.period follow', congrArg Follow.lastMatch follow', congrArg Follow.rebased follow',
    congrArg Follow.matched follow', congrArg Follow.missed follow', congrArg Follow.lost follow',
    congrArg Follow.lastDecision follow', begun.stays raised hymn', begun.stays raised up, begun.boundary rfl,
    passes.still.map.trans walks.still.map, passes.still.frame.leak.trans walks.still.frame.leak, listen.trans walks.listen,
    organ, params, pool⟩
  show (slotRec _ f.slot).map (·.state) = _
  rw [stands]
  exact congrArg some (congrArg Prod.fst same)

/-- Settles O29: the tests in their order, the hymn opened, and behind it the wait or the section's walking. -/
theorem startHymnStartsOrIsRefused : Obligations.StartHymnStartsOrIsRefused := by
  refine ⟨fun dt f tag s idle => ?_, fun dt f tag s sl es e i r idle startable cued canonical clean => ?_,
    fun dt f tag s sl es e r idle startable => ?_, immediateStartEntersTheSection⟩
  · intro refused
    obtain ⟨slot, state, off, busy, ready⟩ := answerStartHymn_refused f (withQueued (.startHymn f) tag (elapse dt s))
    have sent {x : Result} (h : answerStartHymn f (withQueued (.startHymn f) tag (elapse dt s)) = refuse _ x) : refused x :=
      onService_request_replied (r := .startHymn f) idle h
    exact ⟨fun a => sent (slot a), fun a b => sent (state a b), fun a b c => sent (off a b c),
      fun a b c d => sent (busy a b c d), fun a b c d e => sent (ready a b c d e)⟩
  · intro now first
    let u := withQueued (.startHymn f) tag (elapse dt s)
    have startable' : Startable f u sl es e (i, r) := startable
    obtain ⟨⟨fields, answered⟩, organ, params, -⟩ := exec_startHymn (dt := dt) (tag := tag) idle startable
    obtain ⟨q, fl, w, waits, kind, resume, flags⟩ := startHymn_waits startable' cued
    obtain ⟨flags, hymn⟩ := flags clean
    obtain ⟨-, -, -, -, held, -⟩ := startable
    obtain ⟨-, playing⟩ := slotRec_hymnOpened (s := u) held canonical
    obtain ⟨boundary, counter, events⟩ := startKeys_spec (startPosition f e) sl.header.nominal u
    rw [waits] at answered
    have up := flagUp_raise_self (s := { u with flags := fl }) (.wait .waiting w.kind w.resume) flags
    have hymn' := flagUp_raise (s := { u with flags := fl }) (.wait .waiting w.kind w.resume) flags hymn
    refine ⟨fields, _, answered, rfl, rfl, rfl, rfl, rfl, rfl, rfl, rfl, rfl, rfl, ⟨_, rfl, kind, rfl, resume, rfl⟩, ?_,
      rfl, rfl, rfl, rfl, rfl, rfl, rfl, rfl, rfl, rfl, rfl, rfl, hymn', up, boundary, counter, events, rfl, rfl, rfl, rfl⟩
    exact congrArg (Option.map (·.state)) playing
  · obtain ⟨⟨fields, answered⟩, organ, params, pool⟩ := exec_startHymn (dt := dt) (tag := tag) idle startable
    exact ⟨fields, _, answered, organ, params, pool⟩

end Sys2Proof.Proofs
end

section
/-! PROOFS. When an onset is declared, accepted and queued, and the cued wait that it ends (O37). -/

namespace Sys2Proof.Proofs

open Sys2Proof.Machine Sys2Proof.Laws Sys2Proof.Claims

variable {s t u : State}

/-! ### The record of an onset (R48 to R51) -/

/-- The dominant class is the lowest of the highest level. -/
theorem dominantClass_spec {profile : List Nat} (twelve : profile.length = 12) :
    dominantClass profile < 12 ∧ (∀ k, k < 12 → profile.getD k 0 ≤ profile.getD (dominantClass profile) 0)
      ∧ ∀ k, k < dominantClass profile → profile.getD k 0 < profile.getD (dominantClass profile) 0 := by
  obtain ⟨top, top_⟩ : ∃ top, top = profile.foldl max 0 := ⟨_, rfl⟩
  have most : ∀ x ∈ profile, x ≤ top := top_ ▸ (le_foldl_max profile 0).2
  have nonempty : profile ≠ [] := by
    intro empty
    rw [empty] at twelve
    cases twelve
  have attained : top ∈ profile := by
    obtain zero | held := foldl_max_mem profile 0
    · obtain ⟨x, member⟩ := List.exists_mem_of_ne_nil profile nonempty
      have x0 : x = top := Nat.le_antisymm (most x member) (by rw [top_, zero]; exact Nat.zero_le _)
      exact x0 ▸ member
    · exact top_ ▸ held
  obtain ⟨d, found⟩ : ∃ d, profile.findIdx? (fun l => l == top) = some d :=
    Option.isSome_iff_exists.mp (by rw [List.findIdx?_isSome]; exact List.any_eq_true.mpr ⟨top, attained, beq_self_eq_true _⟩)
  have dominant : dominantClass profile = d := by
    unfold dominantClass
    rw [← top_, found]
    rfl
  obtain ⟨below, holds, first⟩ := List.findIdx?_eq_some_iff_getElem.mp found
  have level : profile.getD d 0 = top := by
    rw [List.getD_eq_getElem _ _ below]
    exact beq_iff_eq.mp holds
  have bounded (k : Nat) (small : k < profile.length) : profile.getD k 0 ≤ top := by
    rw [List.getD_eq_getElem _ _ small]
    exact most _ (List.getElem_mem small)
  rw [dominant, level]
  refine ⟨twelve ▸ below, fun k small => bounded k (twelve ▸ small), fun k ahead => ?_⟩
  have small : k < profile.length := ahead.trans below
  refine lt_of_le_of_ne (bounded k small) fun same => first k ahead ?_
  rw [List.getD_eq_getElem _ _ small] at same
  exact beq_iff_eq.mpr same

/-- The share is that of the masked classes' levels. -/
theorem leakShare_eq (l : Table LeakEntry) (t : Time) (profile : List Nat) : leakShare l t profile
    = 255 * (((List.range 12).filter (masked l t)).map (fun k => profile.getD k 0)).sum / profile.sum := by
  have part : ((List.range 12).map (fun c => if masked l t c then profile.getD c 0 else 0)).sum
      = (((List.range 12).filter (masked l t)).map (fun k => profile.getD k 0)).sum := by
    induction List.range 12 with
    | nil => rfl
    | cons c rest ih =>
      rw [List.map_cons, List.sum_cons, ih, List.filter_cons]
      split
      · rw [List.map_cons, List.sum_cons]
      · rw [Nat.zero_add]
  unfold leakShare
  rw [part]
  dsimp only
  split
  next zero => rw [zero, Nat.div_zero]
  next => rfl

theorem recordOf_onsetOf {dt : Nat} {c : Hop} (twelve : c.profile.length = 12) :
    RecordOf (s.now + BitVec.ofNat 32 dt) s c (onsetOf (elapse dt s) c) := by
  obtain ⟨small, most, first⟩ := dominantClass_spec twelve
  obtain ⟨leak, mixed, -⟩ := onsetClassByShare s.params.leakLimit
    (leakShare s.leak (timePlus (s.now + BitVec.ofNat 32 dt) (-120)) c.profile)
    (freshClass s.leak (timePlus (s.now + BitVec.ofNat 32 dt) (-120)) (dominantClass c.profile))
  exact ⟨rfl, rfl, rfl, small, most, first, leakShare_eq _ _ _, leak, mixed, rfl, rfl⟩

/-! ### The filter (R52, R53) -/

theorem listeningOpen_iff (p : Player) : listeningOpen p = true ↔ Listening p := by
  have inWait : (∃ w pl, p.wait = some w ∧ (w.phase = .WAITING ∨ w.phase = .BREATH) ∧ p.plan = some pl ∧ pl.join = true)
      ↔ ∃ w, p.wait = some w ∧ (joinOn p && w.phase != .MINIMUM) = true := by
    have phases (w : Wait) : (w.phase = .WAITING ∨ w.phase = .BREATH) ↔ w.phase ≠ .MINIMUM := by cases w.phase <;> simp
    have joins : joinOn p = true ↔ ∃ pl, p.plan = some pl ∧ pl.join = true := by
      unfold joinOn
      cases p.plan <;> simp
    simp only [Bool.and_eq_true, bne_iff_ne, joins, phases]
    constructor
    · rintro ⟨w, pl, stands, phase, plan, join⟩
      exact ⟨w, stands, ⟨pl, plan, join⟩, phase⟩
    · rintro ⟨w, stands, ⟨pl, plan, join⟩, phase⟩
      exact ⟨w, pl, stands, phase, plan, join⟩
  have sung (e : PlanEntry) : (e.mode = .PLAY ∨ e.mode = .SILENT) ↔ e.mode ≠ .OMIT := by cases e.mode <;> simp
  unfold Listening
  rw [inWait]
  unfold listeningOpen
  cases state : p.state with
  | VERSE =>
    cases sec : p.sec with
    | none => simp
    | some v => cases entry : planEntry p v <;> simp [entry, sung]
  | FERMATA | GAP | START_WAIT => cases stands : p.wait <;> simp
  | AMEN | IDLE | INTRO | ENDING | STOPPING => simp

theorem accepted_iff (s : State) (o : Onset) : accepted s o = true ↔ Admitted s o := by
  unfold accepted Admitted
  simp only [Bool.and_eq_true, listeningOpen_iff, decide_eq_true_eq, bne_iff_ne, Bool.or_eq_true, Bool.not_eq_true', and_assoc]
  refine and_congr_right fun _ => and_congr_right fun _ => and_congr_right fun _ => and_congr_left fun _ => ?_
  exact ⟨fun h mixed => h.resolve_left (not_not.mpr mixed), fun h => or_iff_not_imp_left.mpr fun mixed => h (not_not.mp mixed)⟩

/-! ### The queue (R55, R56) -/

theorem onsetsJoin : OnsetsJoin := by
  intro o s
  refine ⟨fun room => ?_, fun old rest held full => ?_⟩
  · have joins : joinOnset o s = setOnsets (s.listen.queue ++ [o]) s := if_pos room
    rw [joins]
    exact backlogJudged (holding (s.listen.queue ++ [o]) s)
  · have joins : joinOnset o s = setOnsets (rest ++ [o]) (raise (.onsetOverrun old.time) s) := by
      unfold joinOnset
      rw [if_neg (by show ¬ _ < 32; omega), held]
    rw [joins]
    exact backlogJudged (holding (rest ++ [o]) (raise (.onsetOverrun old.time) s))

theorem setOnsets_queue (q : List Onset) (s : State) : (setOnsets q s).listen.queue = q := by
  obtain ⟨b, f, set_⟩ := setOnsets_eq q s
  rw [set_]

/-- An onset that joins writes the Listening Unit and the flags alone. -/
theorem joinOnset_eq (o : Onset) (s : State) : ∃ l f, joinOnset o s = { s with listen := l, flags := f } := by
  unfold joinOnset
  split
  · obtain ⟨b, f, set_⟩ := setOnsets_eq (s.listen.queue ++ [o]) s
    exact ⟨_, f, set_⟩
  · split
    · obtain ⟨b, f, set_⟩ := setOnsets_eq [o] s
      exact ⟨_, f, set_⟩
    next old rest _ =>
      obtain ⟨b, f, set_⟩ := setOnsets_eq (rest ++ [o]) (raise (.onsetOverrun old.time) s)
      exact ⟨_, f, set_⟩

theorem joinOnset_queue (o : Onset) (s : State) (canonical : s.flags.raised.wf none = true) :
    (s.listen.queue.length < 32 → (joinOnset o s).listen.queue = s.listen.queue ++ [o])
      ∧ (∀ old rest, s.listen.queue = old :: rest → 32 ≤ s.listen.queue.length →
          (joinOnset o s).listen.queue = rest ++ [o] ∧ flagUp (joinOnset o s).flags .ONSET_OVERRUN = true) := by
  refine ⟨fun room => ?_, fun old rest held full => ?_⟩
  · have joins : joinOnset o s = setOnsets (s.listen.queue ++ [o]) s := if_pos room
    rw [joins, setOnsets_queue]
  · have joins : joinOnset o s = setOnsets (rest ++ [o]) (raise (.onsetOverrun old.time) s) := by
      unfold joinOnset
      rw [if_neg (by show ¬ _ < 32; omega), held]
    have clean : (raise (.onsetOverrun old.time) s).flags.raised.wf none = true := raisesCanonical_raiseFlags s.now _ canonical
    rw [joins]
    exact ⟨setOnsets_queue _ _, (rises_setOnsets _).stays clean (flagUp_raise_self (.onsetOverrun old.time) canonical)⟩

/-! ### The wait that an onset ends (R108, R109) -/

section
variable {w w' : Wait} {o : Onset}

/-- The part as an onset wakes the wait `w`: resumed from WAITING, or its BREATH pulled earlier. -/
def woken (w : Wait) (resumed : Time) (s : State) : State :=
  if w.phase = .WAITING then resumeWait w resumed true s else pullBreath w resumed s

theorem knowOnset_of_none {t : Time} (none_ : ∀ w, s.player.wait = some w → joinOn s.player = true →
    waitEnded s.now t (timePlus t (-(s.params.choirLag : Int))) w = none) : knowOnset t s = (s, false) := by
  unfold knowOnset
  dsimp only
  cases join : joinOn s.player with
  | false => rfl
  | true =>
    rw [if_pos rfl]
    cases stands : s.player.wait with
    | none => rfl
    | some w =>
      have kept := none_ w stands join
      unfold waitEnded at kept
      cases phase : w.phase with
      | MINIMUM => simp only [phase]
      | WAITING =>
        rw [phase] at kept
        cases kept
      | BREATH =>
        rw [phase] at kept
        simp only [phase]
        refine if_neg fun ends => ?_
        simp only [Bool.and_eq_true, Bool.not_eq_true', and_assoc] at ends
        dsimp only at kept
        rw [if_pos ends] at kept
        cases kept

theorem knowOnset_of_ended {t : Time} (stands : s.player.wait = some w) (join : joinOn s.player = true)
    (ended : waitEnded s.now t (timePlus t (-(s.params.choirLag : Int))) w = some w') :
    knowOnset t s = (woken w (timePlus t (-(s.params.choirLag : Int))) s, true) := by
  unfold knowOnset woken
  dsimp only
  rw [if_pos join, stands]
  unfold waitEnded at ended
  cases phase : w.phase with
  | MINIMUM =>
    rw [phase] at ended
    cases ended
  | WAITING => simp only [phase, if_true]
  | BREATH =>
    rw [phase] at ended
    dsimp only at ended
    split at ended
    next ends =>
      simp only [phase]
      rw [if_pos (by simpa only [Bool.and_eq_true, Bool.not_eq_true', and_assoc] using ends), if_neg (by nofun)]
    next => cases ended

/-- The wait after an onset has ended it. -/
theorem waitEnded_spec {now t resumed : Time} (ended : waitEnded now t resumed w = some w') :
    w'.phase = .BREATH ∧ w'.breathEnd = resumed ∧ w'.kind = w.kind ∧ w'.resume = w.resume
      ∧ (w.phase = .WAITING → w' = { w with phase := .BREATH, breathEnd := resumed, began := now, byOnset := true })
      ∧ (w.phase ≠ .WAITING → w' = { w with breathEnd := resumed }) := by
  unfold waitEnded at ended
  cases phase : w.phase with
  | MINIMUM =>
    rw [phase] at ended
    cases ended
  | WAITING =>
    rw [phase] at ended
    cases ended
    exact ⟨rfl, rfl, rfl, rfl, fun _ => rfl, fun other => absurd rfl other⟩
  | BREATH =>
    rw [phase] at ended
    dsimp only at ended
    split at ended
    · cases ended
      exact ⟨rfl, rfl, rfl, rfl, nofun, fun _ => rfl⟩
    · cases ended

end

section
variable {w w' : Wait} {o : Onset} {resumed : Time}

theorem pullBreath_eq (w : Wait) (t : Time) (s : State) : pullBreath w t s
    = settle (rebase t w.resume { s with player := { s.player with wait := some { w with breathEnd := t } } }) := rfl

/-- A breath pulled earlier leaves what a resume leaves (R109). -/
theorem pullBreath_spec (policy : s.params.finishVerse = false) : Still s (pullBreath w resumed s)
    ∧ offWalk (pullBreath w resumed s).player = offWalk { s.player with wait := some { w with breathEnd := resumed } } := by
  have rises : Rises s (rebase resumed w.resume { s with player := { s.player with wait := some { w with breathEnd := resumed } } }) :=
    (rises_player _).trans (rises_rebase _ _)
  have settles := passes_settle (s := rebase resumed w.resume { s with player := { s.player with wait := some { w with breathEnd := resumed } } })
    (by rw [rises.still.frame.params]; exact policy)
  rw [pullBreath_eq]
  refine ⟨rises.still.trans settles.still, settles.player.trans ?_⟩
  rw [rebase_player]

theorem pullBreath_quiet (quiet : QuietAt w.resume s)
    (time : ∃ d : Int, resumed = timePlus s.now d ∧ 0 < d + s.params.choirLag + 160 ∧ d ≤ 1000000) :
    RebasedTo resumed w.resume s.follow (pullBreath w resumed s).follow ∧ (pullBreath w resumed s).listen = s.listen := by
  let v : State := { s with player := { s.player with wait := some { w with breathEnd := resumed } } }
  have on : v.follow.state ≠ .OFF := quietAt_on quiet
  have follow : (rebase resumed w.resume v).follow = rebasedFollow resumed w.resume s.follow := rebase_follow resumed w.resume on
  have player : (rebase resumed w.resume v).player = v.player := rebase_player _ _ _
  have frame := (rises_rebase resumed w.resume (s := v)).still.frame
  have listen : (rebase resumed w.resume v).listen = s.listen := by
    unfold rebase
    split <;> rfl
  have rests : Quiet (rebase resumed w.resume v) := by
    refine quiet_of_quietAt quiet follow frame.params (fun x member => ⟨x, ?_, rfl⟩) (fun r read => .inl ?_) ?_
    · rw [player] at member
      exact member
    · rw [player] at read
      exact read
    · rw [frame.now]
      exact time
  obtain ⟨rebased, listen'⟩ := rebasedTo_settle (t := resumed) (p := w.resume) (f := s.follow) rests
    (by rw [follow]; exact rebasedTo_rebasedFollow _ _ _)
  rw [pullBreath_eq]
  exact ⟨rebased, listen'.trans listen⟩

/-- Either way the Player waits in the BREATH of `w'`, and of the rest nothing but its walk has moved. -/
theorem woken_spec (policy : s.params.finishVerse = false) (ended : waitEnded s.now o.time resumed w = some w') :
    (woken w resumed s).map = s.map ∧ (woken w resumed s).now = s.now
      ∧ offWalk (woken w resumed s).player = offWalk { s.player with wait := some w' } := by
  obtain ⟨-, -, -, -, resumes, pulls⟩ := waitEnded_spec ended
  unfold woken
  by_cases waiting : w.phase = .WAITING
  · obtain ⟨still_, -, player⟩ := resumeWait_spec (w := w) (b := true) (t := resumed) policy
    rw [if_pos waiting, resumes waiting]
    exact ⟨still_.map, still_.frame.now, player⟩
  · obtain ⟨still_, player⟩ := pullBreath_spec (w := w) (resumed := resumed) policy
    rw [if_neg waiting, pulls waiting]
    exact ⟨still_.map, still_.frame.now, player⟩

theorem woken_quiet (quiet : QuietAt w.resume s)
    (time : ∃ d : Int, resumed = timePlus s.now d ∧ 0 < d + s.params.choirLag + 160 ∧ d ≤ 1000000) :
    (woken w resumed s).listen = s.listen ∧ RebasedTo resumed w.resume s.follow (woken w resumed s).follow := by
  unfold woken
  split
  · exact (rebasedTo_resumeWait quiet time).symm
  · exact (pullBreath_quiet quiet time).symm

theorem woken_fence (waiting : w.phase = .WAITING) (policy : s.params.finishVerse = false) :
    (NothingAhead s.player → w.kind = .fermata → (woken w resumed s).player.fence = .NONE)
      ∧ (w.kind = .fermata → ∀ r, s.player.readAhead = some r → FenceLifted r.sec r.index (woken w resumed s))
      ∧ (w.kind ≠ .fermata → ∀ n sl, s.player.slot = some n → slotRec s.store n = some sl →
          FenceLifted w.resume.sec (sectionSteps sl.header w.resume.sec).1 (woken w resumed s)) := by
  unfold woken
  rw [if_pos waiting]
  refine ⟨fun nothing fermata => ?_, fun fermata r read => fenceLifted_resumeWait_fermata policy fermata read,
    fun other n sl slot held => fenceLifted_resumeWait_section policy other slot held⟩
  rw [resumeWait_of_nothing fermata nothing, resumed_player]

/-- What follows at once where the breath of the woken wait is past. -/
theorem follows_woken {b : Wait} (standing : u.player.wait = some w') (breath : w'.phase = .BREATH) (past : due u w'.breathEnd = true)
    (state : u.player.state ≠ .ENDING ∧ u.player.state ≠ .STOPPING) (kind : w'.kind = b.kind) (resume : w'.resume = b.resume) :
    (∀ n, b.kind = .fermata → u.player.sec = some n → NothingDue (backInSection n u) → follows u = backInSection n u)
      ∧ (b.kind ≠ .fermata → NothingDue (sectionEntered b.resume.sec u) → follows u = sectionEntered b.resume.sec u) := by
  obtain ⟨fermata, other⟩ := chain_of_breathDue state.1 state.2 standing breath past 255
  rw [kind, resume] at other
  rw [kind] at fermata
  exact ⟨fun n own sec nothing => fermata own n sec nothing, other⟩

end

/-! ### A hop with a declared onset -/

theorem hearOnset_rejected {o : Onset} (rejected : ¬ Admitted s o) : hearOnset o s = s :=
  if_neg (mt (accepted_iff s o).mp rejected)

theorem hearOnset_unknown {o : Onset} (admitted : Admitted s o)
    (unknown : o.cls ≠ .CHOIR ∨ knowOnset o.time (joinOnset o s) = (joinOnset o s, false)) : hearOnset o s = joinOnset o s := by
  unfold hearOnset
  rw [if_pos ((accepted_iff s o).mpr admitted)]
  dsimp only
  by_cases choir : o.cls = .CHOIR
  · rw [if_pos choir, unknown.resolve_left (not_not.mpr choir)]
    rfl
  · exact if_neg choir

theorem hearOnset_known {o : Onset} (admitted : Admitted s o) (choir : o.cls = .CHOIR) {t : State}
    (known : knowOnset o.time (joinOnset o s) = (t, true)) : hearOnset o s = follows t := by
  unfold hearOnset
  rw [if_pos ((accepted_iff s o).mpr admitted)]
  dsimp only
  rw [if_pos choir, known]
  rfl

theorem exec_hopComplete {dt : Nat} {a b : HopInput} (live : InService s) (completes : HopCompletes dt a b s.listen s.now) :
    exec (.hopComplete dt a b) s = .next (completeHop a b (elapse dt s)) :=
  (onService_live dt (fun t => if hopDue a b t then completeHop a b t else t) s live).trans
    (congrArg _ (if_pos (hopDue_of_completes completes)))

theorem completeHop_eq {a b : HopInput} {c : Hop} (candidate : s.listen.candidate = some c) :
    (¬ Declared s.params s.listen c (measureHop s.listen a b).1.novelty → completeHop a b s = { s with listen := hopHeard a b s })
      ∧ (Declared s.params s.listen c (measureHop s.listen a b).1.novelty →
          completeHop a b s = hearOnset (onsetOf s c) { s with listen := hopHeard a b s }) := by
  have found := detect_fst a b s
  rw [candidate, Option.bind_some] at found
  unfold completeHop
  dsimp only
  refine ⟨fun undeclared => ?_, fun declared => ?_⟩
  · rw [if_neg (mt (declares_iff _ _ _ _).mp undeclared)] at found
    rw [found]
    rfl
  · rw [if_pos ((declares_iff _ _ _ _).mpr declared)] at found
    rw [found]
    rfl

theorem state_of_listening {p : Player} (open_ : Listening p) : p.state ≠ .ENDING ∧ p.state ≠ .STOPPING := by
  obtain ⟨state, -⟩ | state | ⟨state | state | state, -⟩ := open_ <;> simp [state]

theorem declaredOnsetsAreHeard : DeclaredOnsetsAreHeard := by
  intro dt a b c s live completes candidate twelve now
  obtain ⟨measured, heard⟩ := hopHeard_spec a b (elapse dt s)
  obtain ⟨undeclared, declared⟩ := completeHop_eq (s := elapse dt s) (a := a) (b := b) candidate
  have hop := exec_hopComplete live completes
  refine ⟨hopHeard a b (elapse dt s), _, measured, heard, fun not_ => hop.trans (congrArg _ (undeclared not_)), fun is_ => ?_⟩
  rw [declared is_] at hop
  refine ⟨onsetOf (elapse dt s) c, recordOf_onsetOf twelve, fun rejected => hop.trans (congrArg _ (hearOnset_rejected rejected)),
    fun admitted => ?_⟩
  generalize onset : onsetOf (elapse dt s) c = o at hop admitted ⊢
  have time : o.time = timePlus now (-120) := by rw [← onset]; rfl
  intro joined resumed
  obtain ⟨l, f, joins⟩ := joinOnset_eq o { elapse dt s with listen := hopHeard a b (elapse dt s) }
  have player : joined.player = s.player := by rw [show joined = _ from joins]; rfl
  have params : joined.params = s.params := by rw [show joined = _ from joins]; rfl
  have now_ : joined.now = now := by rw [show joined = _ from joins]; rfl
  have map : joined.map = s.map := by rw [show joined = _ from joins]; rfl
  have follow : joined.follow = s.follow := by rw [show joined = _ from joins]; rfl
  have store : joined.store = s.store := by rw [show joined = _ from joins]; rfl
  have at_ : timePlus o.time (-(joined.params.choirLag : Int)) = resumed := by rw [params]
  refine ⟨fun unknown => ?_, ?_⟩
  · refine hop.trans (congrArg _ (hearOnset_unknown admitted (unknown.imp_right fun kept => knowOnset_of_none fun w stands join => ?_)))
    rw [show joinOnset o _ = joined from rfl] at stands join ⊢
    rw [player] at stands join
    rw [at_, now_]
    exact kept w stands join
  · intro w w' choir join stands ended woken_
    have known : knowOnset o.time joined = (woken w resumed joined, true) := by
      rw [← at_]
      exact knowOnset_of_ended (by rw [player]; exact stands) (by rw [player]; exact join) (by rw [at_, now_]; exact ended)
    have ends : exec (.hopComplete dt a b) s = .next (follows woken_) := hop.trans (congrArg _
      (hearOnset_known (s := { elapse dt s with listen := hopHeard a b (elapse dt s) }) admitted choir known))
    refine ⟨ends, fun lag policy => ?_⟩
    have ended' : waitEnded joined.now o.time resumed w = some w' := by rw [now_]; exact ended
    have policy' : joined.params.finishVerse = false := by rw [params]; exact policy
    obtain ⟨map', now', walk⟩ := woken_spec policy' ended'
    obtain ⟨state, sec, -, plan, registration, -, -, -, wait, -⟩ := of_offWalk walk
    obtain ⟨breath, breathEnd, kind, resume, -⟩ := waitEnded_spec ended
    have back : resumed = timePlus joined.now (-120 - s.params.choirLag) := by
      show timePlus o.time _ = _
      rw [time, timePlus_timePlus, now_]
      congr 1
    have past : due (woken w resumed joined) w'.breathEnd = true := by
      rw [breathEnd, due_iff, now', back]
      have behind := later_timePlus (a := -120 - (s.params.choirLag : Int)) (b := 0) joined.now (by omega) (by omega)
      rw [timePlus_zero] at behind
      rw [behind]
      exact decide_eq_false (by omega)
    obtain ⟨fermata, other⟩ := follows_woken (b := w) wait breath past
      (by rw [state, player]; exact state_of_listening (p := s.player) admitted.1) kind resume
    have standing : woken_ = woken w resumed joined := rfl
    rw [standing] at ends ⊢
    refine ⟨wait, state.trans (by rw [player]), sec.trans (by rw [player]), plan.trans (by rw [player]),
      registration.trans (by rw [player]), map'.trans map, fun quiet => ?_, fun waiting => ?_, fun waiting => ?_, fun waiting => ?_,
      fun n own sec' nothing => ?_, fun own nothing => ?_⟩
    · have quiet' : QuietAt w.resume joined := by
        refine quietAt_of_sub quiet follow params ?_ ?_ <;> rw [player]
        exact fun x member => member
      rw [← follow]
      exact woken_quiet quiet' ⟨_, back, by rw [params]; omega, by omega⟩
    · have fence := (woken_fence (resumed := resumed) waiting policy').1
      rw [player] at fence
      exact fence
    · have fence := (woken_fence (resumed := resumed) waiting policy').2.1
      rw [player] at fence
      exact fence
    · have fence := (woken_fence (resumed := resumed) waiting policy').2.2
      rw [player, store] at fence
      exact fence
    · exact ends.trans (congrArg _ (fermata n own (sec.trans (by rw [player]; exact sec')) nothing))
    · exact ends.trans (congrArg _ (other own nothing))

/-- Settles O37: the declaration by its test, the queue by its fill, and the wait by what the onset makes of it. -/
theorem onsetsAreDeclaredAndQueued : Obligations.OnsetsAreDeclaredAndQueued :=
  ⟨declares_iff, onsetsJoin, fun o s canonical => joinOnset_queue o s canonical, declaredOnsetsAreHeard⟩

end Sys2Proof.Proofs
end

section
/-! PROOFS. Planning: the notes that sound, the events they ask for, and their placing (O51). -/

namespace Sys2Proof.Proofs

open Sys2Proof.Machine Sys2Proof.Laws Sys2Proof.Claims

variable {s t u : State}

/-! ### The notes that sound (R118, R119) -/

section
variable {o : Organ} {ch : PerVoice VoiceChannel}

/-- A sounding note as the planning routes it. -/
def routed (x : Note × Division × Nat) : RoutedNote := ⟨x.1.voice, x.2.1, x.2.2, x.1.pitch, x.1.tieOn⟩

theorem routeNote_eq (n : Note) : routeNote o ch n = (playedKey o ch n).map (fun x => routed (n, x)) := by
  unfold routeNote playedKey
  dsimp only
  cases (voiceGet ch n.voice).division with
  | none => rfl
  | some d =>
    dsimp only [Option.bind_some]
    cases foldPitch (divRec o d).lowest (divRec o d).keyCount (n.pitch + (voiceGet ch n.voice).transposition) <;> rfl

/-- The note has the voice and the key of `y`. -/
def playsAs (o : Organ) (ch : PerVoice VoiceChannel) (y : RoutedNote) (m : Note) : Bool :=
  m.voice == y.voice && playedKey o ch m == some (y.division, y.key)

/-- The note of a list's tail that sounds behind the notes `before`. -/
def soundsBehind (o : Organ) (ch : PerVoice VoiceChannel) (before : List Note) (n : Note) : Option (Note × Division × Nat) :=
  (playedKey o ch n).bind (fun x =>
    if before.any (fun m => m.voice == n.voice && playedKey o ch m == some x) then none else some (n, x.1, x.2))

/-- The sounding notes of a list behind the notes `before`. -/
def soundingFrom (o : Organ) (ch : PerVoice VoiceChannel) : List Note → List Note → List (Note × Division × Nat)
  | _, [] => []
  | before, n :: rest => (soundsBehind o ch before n).toList ++ soundingFrom o ch (before ++ [n]) rest

theorem soundingFrom_eq (rest before : List Note) : soundingFrom o ch before rest
    = (List.range rest.length).filterMap (fun i => rest[i]?.bind (fun n => soundsBehind o ch (before ++ rest.take i) n)) := by
  induction rest generalizing before with
  | nil => rfl
  | cons n rest ih =>
    have tail : (List.range rest.length).filterMap
          ((fun i => (n :: rest)[i]?.bind (fun m => soundsBehind o ch (before ++ (n :: rest).take i) m)) ∘ (· + 1))
        = soundingFrom o ch (before ++ [n]) rest := by
      rw [ih]
      refine List.filterMap_congr fun i _ => ?_
      simp only [Function.comp_apply, List.getElem?_cons_succ, List.take_succ_cons, List.append_assoc, List.singleton_append]
    have split_ : (List.range (n :: rest).length) = 0 :: (List.range rest.length).map (· + 1) := by
      rw [List.length_cons, List.range_succ_eq_map]
    rw [split_, List.filterMap_cons, List.filterMap_map, tail, soundingFrom]
    simp only [List.getElem?_cons_zero, Option.bind_some, List.take_zero, List.append_nil]
    cases soundsBehind o ch before n <;> rfl

theorem soundingNotes_eq (notes : List Note) : soundingNotes o ch notes = soundingFrom o ch [] notes :=
  (soundingFrom_eq notes []).symm

/-- The routed notes kept are those of the sounding notes, the notes seen standing for all the notes before. -/
theorem dropRepeats_eq (rest before : List Note) (seen : List RoutedNote)
    (same : ∀ y : RoutedNote, seen.any (sameKey y) = before.any (playsAs o ch y)) :
    dropRepeats seen (rest.filterMap (routeNote o ch)) = (soundingFrom o ch before rest).map routed := by
  induction rest generalizing before seen with
  | nil => rfl
  | cons n rest ih =>
    unfold soundingFrom soundsBehind
    rw [List.filterMap_cons, routeNote_eq]
    cases plays : playedKey o ch n with
    | none =>
      refine ih (before ++ [n]) seen fun y => ?_
      rw [List.any_append, same, List.any_cons, List.any_nil, Bool.or_false]
      simp [playsAs, plays]
    | some x =>
      have key : before.any (fun m => m.voice == n.voice && playedKey o ch m == some x)
          = seen.any (sameKey (routed (n, x))) := (same (routed (n, x))).symm
      have own (y : RoutedNote) : playsAs o ch y n = sameKey y (routed (n, x)) := by
        obtain ⟨v, d, k, p, t⟩ := y
        simp only [playsAs, sameKey, routed, plays]
        rw [Bool.beq_comm (a := n.voice), Bool.and_assoc]
        congr 1
        rw [Bool.eq_iff_iff, Bool.and_eq_true, beq_iff_eq, beq_iff_eq, beq_iff_eq, Option.some.injEq, Prod.ext_iff]
        exact ⟨fun h => ⟨h.1.symm, h.2.symm⟩, fun h => ⟨h.1.symm, h.2.symm⟩⟩
      dsimp only [Option.map_some, Option.bind_some]
      rw [key, dropRepeats]
      by_cases repeated : seen.any (sameKey (routed (n, x))) = true
      · rw [if_pos repeated, if_pos repeated]
        refine ih (before ++ [n]) seen fun y => ?_
        rw [List.any_append, ← same, List.any_cons, List.any_nil, Bool.or_false, own]
        cases match_ : sameKey y (routed (n, x)) with
        | false => rw [Bool.or_false]
        | true =>
          rw [Bool.or_true]
          obtain ⟨z, member, equal⟩ := List.any_eq_true.mp repeated
          refine List.any_eq_true.mpr ⟨z, member, ?_⟩
          simp only [sameKey, Bool.and_eq_true, beq_iff_eq] at match_ equal ⊢
          exact ⟨⟨match_.1.1.trans equal.1.1, match_.1.2.trans equal.1.2⟩, match_.2.trans equal.2⟩
      · rw [if_neg repeated, if_neg repeated]
        refine congrArg (routed (n, x) :: ·) (ih (before ++ [n]) (routed (n, x) :: seen) fun y => ?_)
        rw [List.any_append, List.any_cons, List.any_cons, List.any_nil, Bool.or_false, same, own, Bool.or_comm]

theorem routeNotes_play (notes : List Note) :
    routeNotes o ch .PLAY notes = (soundingNotes o ch notes).map routed := by
  rw [soundingNotes_eq]
  exact dropRepeats_eq notes [] [] fun _ => rfl

theorem routeNotes_other {mode : Mode} (other : mode ≠ .PLAY) (notes : List Note) : routeNotes o ch mode notes = [] :=
  if_neg other

end

/-! ### What a step asks for (R120 to R124) -/

theorem tieContinues_iff (w : WindowStep) (x : Note × Division × Nat) : tieContinues w (routed x) = true ↔ TieContinues w x.1 := by
  unfold tieContinues TieContinues
  rw [Bool.and_eq_true]
  refine and_congr_right fun _ => ?_
  cases w.next with
  | none => simp
  | some next => simp [routed]

theorem extendedEnd_eq (w : WindowStep) (sectionEnd : Nat) : extendedEnd w sectionEnd = (w.next.map (·.pos)).getD sectionEnd := by
  unfold extendedEnd
  cases w.next <;> rfl

theorem askedFor_drafts (c : PlanContext) (w : WindowStep) (x : Note × Division × Nat) :
    AskedFor c.tied c.lift c.sectionEnd w x (startDraft c w (routed x) :: endDrafts c w (routed x)) := by
  refine ⟨_, _, rfl, fun tied => ?_, fun untied => ?_, fun f fermata release => ?_, fun f t fermata release => ?_,
    fun plain ties => ?_, fun plain ties run => ?_, fun plain ties run => ?_⟩
  · exact congrArg (draftAt (routed x) · w.pos) (if_pos (List.contains_iff_mem.mpr tied))
  · exact congrArg (draftAt (routed x) · w.pos) (if_neg fun has => untied (List.contains_iff_mem.mp has))
  · simp [endDrafts, fermata, release]
  · simp [endDrafts, fermata, release, draftFixed, routed]
  · simp [endDrafts, plain, (tieContinues_iff w x).mpr ties]
  · have cut : tieContinues w (routed x) = false := by
      rw [Bool.eq_false_iff]
      exact mt (tieContinues_iff w x).mp ties
    simp only [endDrafts, plain, cut, run, extendedEnd_eq]
    rfl
  · have cut : tieContinues w (routed x) = false := by
      rw [Bool.eq_false_iff]
      exact mt (tieContinues_iff w x).mp ties
    simp only [endDrafts, plain, cut, run]
    rfl

theorem stepAsks_stepDrafts (s : State) (w : WindowStep) :
    StepAsks s w (stepDrafts (planContext s w) s.organ s.player.channels w) := by
  have lift : (planContext s w).lift = (s.player.registration.map (fun r => r.2.lift)).getD 0 := by
    unfold planContext
    cases s.player.registration <;> rfl
  have tied : (planContext s w).tied = (s.player.tied.filter (fun t => t.sec == w.sec)).elim [] (·.ties) := by
    unfold planContext
    cases s.player.tied with
    | none => rfl
    | some t =>
      dsimp only [Option.filter]
      by_cases same : t.sec = w.sec
      · rw [if_pos same, if_pos (beq_iff_eq.mpr same)]
        rfl
      · rw [if_neg same, if_neg (fun eq => same (beq_iff_eq.mp eq))]
        rfl
  have mode : (planContext s w).mode = sectionMode s.player w.sec := rfl
  unfold StepAsks stepDrafts
  dsimp only
  rw [mode, ← lift, ← tied]
  refine ⟨fun other => by rw [routeNotes_other other]; rfl, fun play => ?_⟩
  rw [play, routeNotes_play]
  refine ⟨_, List.flatMap_def .., ?_⟩
  rw [List.map_map, List.forall₂_map_right_iff, List.forall₂_same]
  exact fun x _ => askedFor_drafts (planContext s w) w x

theorem stepTies_eq (s : State) (w : WindowStep) : stepTies (sectionMode s.player w.sec) s.organ s.player.channels w
    = if w.fermata.isSome = true ∨ sectionMode s.player w.sec ≠ .PLAY then []
      else ((soundingNotes s.organ s.player.channels w.notes).filter (fun x => x.1.tieOn)).map (fun x => (x.1.voice, x.1.pitch)) := by
  unfold stepTies
  by_cases fermata : w.fermata.isSome = true
  · rw [if_pos fermata, if_pos (.inl fermata)]
  · rw [if_neg fermata]
    by_cases play : sectionMode s.player w.sec = .PLAY
    · rw [if_neg (by simp [fermata, play]), play, routeNotes_play, List.filter_map, List.map_map]
      rfl
    · rw [if_pos (.inr play), routeNotes_other play]
      rfl

/-! ### Placing (R115, R122) -/

theorem strikes_iff (u d : KeyEvent) : strikes u d = true ↔ StrikesAgain u d := by
  unfold strikes StrikesAgain
  simp only [Bool.and_eq_true, beq_iff_eq, bne_iff_ne, and_assoc]
  refine and_congr_right fun _ => and_congr_right fun _ => and_congr_right fun _ => and_congr_right fun _ =>
    and_congr_right fun _ => and_congr_right fun _ => ?_
  cases u.step with
  | none => simp
  | some i => cases d.step <;> simp

theorem takesStrike_tieToStrike (f : Follow) (o : Organ) (d u : KeyEvent) : TakesStrike f o d u (tieToStrike f o d u) := by
  refine ⟨fun p q x strikes_ unfirm basis strike late => ?_, fun stays => ?_⟩
  · unfold tieToStrike
    rw [basis, strike]
    dsimp only
    rw [if_pos (by rw [(strikes_iff u d).mpr strikes_, unfirm, late]; rfl)]
    rfl
  · unfold tieToStrike
    split
    next r q y basis strike =>
      refine if_neg fun ties => ?_
      simp only [Bool.and_eq_true, Bool.not_eq_true', strikes_iff] at ties
      obtain ⟨⟨strikes_, unfirm⟩, late⟩ := ties
      obtain other | firm | other | other | early := stays
      · exact other strikes_
      · exact absurd (unfirm.symm.trans firm) nofun
      · exact other r basis
      · exact other q y strike
      · exact absurd (early.symm.trans late) nofun
    next => rfl

/-- A time put off to the last of these UPs that comes later. -/
def putOff (struck : List KeyEvent) (t : Time) : Time := struck.foldl (fun t u => if later u.time t = true then u.time else t) t

/-- The DOWN put off to the last FIRM UP that it strikes. -/
theorem afterFirmUp_eq (events : List KeyEvent) (d : KeyEvent) :
    afterFirmUp events d = { d with time := putOff (events.filter (fun u => strikes u d && u.firm)) d.time } := by
  induction events generalizing d with
  | nil => rfl
  | cons u rest ih =>
    unfold afterFirmUp putOff at ih ⊢
    rw [List.foldl_cons, ih, List.filter_cons]
    by_cases hits : (strikes u d && u.firm) = true
    · rw [if_pos hits, List.foldl_cons]
      by_cases late : later u.time d.time = true
      · rw [if_pos (by rw [hits, late]; rfl), if_pos late]
        rfl
      · rw [if_neg (by rw [hits, Bool.true_and]; exact late), if_neg late]
    · rw [if_neg hits, if_neg (fun all => hits (Bool.and_eq_true_iff.mp all).1)]

/-- The UP takes the first DOWN that comes before it as its strike. -/
theorem foldl_tieToStrike_done {f : Follow} {o : Organ} {e : KeyEvent} (events : List KeyEvent)
    (done : ∀ p, e.basis ≠ .position p none) : events.foldl (fun u x => tieToStrike f o x u) e = e := by
  induction events with
  | nil => rfl
  | cons x rest ih =>
    rw [List.foldl_cons, (takesStrike_tieToStrike f o x e).2 (.inr (.inr (.inl done))), ih]

theorem foldl_tieToStrike_none {f : Follow} {o : Organ} {e : KeyEvent} (events : List KeyEvent)
    (none_ : ∀ x ∈ events, ¬ (StrikesAgain e x ∧ later e.time x.time = true ∧ ∃ q y, x.basis = .position q y)) :
    events.foldl (fun u x => tieToStrike f o x u) e = e := by
  induction events with
  | nil => rfl
  | cons x rest ih =>
    obtain ⟨first, others⟩ := List.forall_mem_cons.mp none_
    have stays : tieToStrike f o x e = e := by
      refine (takesStrike_tieToStrike f o x e).2 ?_
      by_cases strikes_ : StrikesAgain e x
      · by_cases late : later e.time x.time = true
        · exact .inr (.inr (.inr (.inl fun q y basis => first ⟨strikes_, late, q, y, basis⟩)))
        · exact .inr (.inr (.inr (.inr (by simpa using late))))
      · exact .inl strikes_
    rw [List.foldl_cons, stays, ih others]

theorem foldl_tieToStrike_first {f : Follow} {o : Organ} {e x : KeyEvent} {pre post : List KeyEvent} {p q : Nat} {y : Option Nat}
    (unfirm : e.firm = false) (basis : e.basis = .position p none)
    (none_ : ∀ x ∈ pre, ¬ (StrikesAgain e x ∧ later e.time x.time = true ∧ ∃ q y, x.basis = .position q y))
    (strikes_ : StrikesAgain e x) (late : later e.time x.time = true) (strike : x.basis = .position q y) :
    (pre ++ x :: post).foldl (fun u x => tieToStrike f o x u) e = { e with
      basis := .position p (some q),
      time := timeMin (timeAt f (divRec o e.division) .UP p) (timeAt f (divRec o e.division) .DOWN q) } := by
  rw [List.foldl_append, foldl_tieToStrike_none pre none_, List.foldl_cons,
    (takesStrike_tieToStrike f o x e).1 p q y strikes_ unfirm basis strike late]
  exact foldl_tieToStrike_done post nofun

theorem placeEvent_split (e : KeyEvent) (l : List KeyEvent) :
    ∃ before after, placeEvent e l = before ++ e :: after ∧ l = before ++ after := by
  induction l with
  | nil => exact ⟨[], [], rfl, rfl⟩
  | cons h rest ih =>
    unfold placeEvent
    split
    · exact ⟨[], h :: rest, rfl, rfl⟩
    · obtain ⟨before, after, placed, parts⟩ := ih
      exact ⟨h :: before, after, by rw [placed]; rfl, by rw [parts]; rfl⟩

/-- The event of a draft before the strikes are judged. -/
def draftEvent (f : Follow) (o : Organ) (sec step : Nat) (k : Schedule) (d : Draft) : KeyEvent :=
  ⟨d.kind, d.voice, d.division, d.key, sec, some step, d.basis,
    match d.basis with
    | .position p strike => positionTime f (divRec o d.division) d.kind p strike
    | .fixed => d.fixedTime,
    false, k.counter⟩

theorem placeDraft_eq (f : Follow) (o : Organ) (sec step : Nat) (k : Schedule) (d : Draft) :
    placeDraft f o sec (some step) k d = { k with counter := k.counter + 1, events := match d.kind with
      | .DOWN => placeEvent (afterFirmUp k.events (draftEvent f o sec step k d))
          (k.events.map (tieToStrike f o (afterFirmUp k.events (draftEvent f o sec step k d))))
      | .UP => placeEvent (k.events.foldl (fun u x => tieToStrike f o x u) (draftEvent f o sec step k d)) k.events
      | .RENEW => placeEvent (draftEvent f o sec step k d) k.events } := rfl

theorem draftEvent_time {f : Follow} {o : Organ} {sec step : Nat} {k : Schedule} {d : Draft} :
    (∀ p, d.basis = .position p none →
        (draftEvent f o sec step k d).time = timeAt f (divRec o d.division) d.kind p)
      ∧ (d.basis = .fixed → (draftEvent f o sec step k d).time = d.fixedTime) := by
  obtain ⟨kind, v, dv, key, basis, fixed⟩ := d
  refine ⟨fun p same => ?_, fun same => ?_⟩ <;> cases same
  · cases kind <;> rfl
  · rfl

theorem tieToStrike_eq (f : Follow) (o : Organ) (x z : KeyEvent) : ∃ basis time,
    tieToStrike f o x z = { z with basis := basis, time := time } ∧ (basis = .fixed ↔ z.basis = .fixed) := by
  unfold tieToStrike
  split
  next r q y basis strike =>
    split
    · exact ⟨_, _, rfl, by simp [basis]⟩
    · exact ⟨z.basis, z.time, rfl, Iff.rfl⟩
  next => exact ⟨z.basis, z.time, rfl, Iff.rfl⟩

/-- Of an UP the ties to its strikes write the basis and the time alone. -/
theorem foldl_tieToStrike_eq (f : Follow) (o : Organ) (l : List KeyEvent) (z : KeyEvent) : ∃ basis time,
    l.foldl (fun u x => tieToStrike f o x u) z = { z with basis := basis, time := time } ∧ (basis = .fixed ↔ z.basis = .fixed) := by
  induction l generalizing z with
  | nil => exact ⟨z.basis, z.time, rfl, Iff.rfl⟩
  | cons x rest ih =>
    obtain ⟨b, t, next, fixed⟩ := tieToStrike_eq f o x z
    obtain ⟨b', t', folded, fixed'⟩ := ih { z with basis := b, time := t }
    exact ⟨b', t', by rw [List.foldl_cons, next, folded], fixed'.trans fixed⟩

section
variable {f : Follow} {o : Organ} {sec step : Nat} {k : Schedule} {d : Draft}

theorem placed_renew (kind : d.kind = .RENEW) : Placed f o sec step k d (placeDraft f o sec (some step) k d) := by
  obtain ⟨timed, -⟩ := draftEvent_time (f := f) (o := o) (sec := sec) (step := step) (k := k) (d := d)
  obtain ⟨before, after, placed, parts⟩ := placeEvent_split (draftEvent f o sec step k d) k.events
  have events : (placeDraft f o sec (some step) k d).events = before ++ draftEvent f o sec step k d :: after := by
    rw [placeDraft_eq, kind]
    exact placed
  refine ⟨draftEvent f o sec step k d, before, after, k.events, events, parts, rfl, rfl, rfl, rfl, rfl, rfl, rfl, rfl, rfl, rfl,
    fun _ other => ?_, fun p basis => ⟨fun _ => ⟨rfl, ?_, rfl⟩, fun other => ?_, fun other => ?_⟩⟩
  · cases kind.symm.trans other
  · rw [timed p basis, kind]
  · cases kind.symm.trans other
  · cases kind.symm.trans other

theorem placed_down (kind : d.kind = .DOWN) : Placed f o sec step k d (placeDraft f o sec (some step) k d) := by
  obtain ⟨timed, -⟩ := draftEvent_time (f := f) (o := o) (sec := sec) (step := step) (k := k) (d := d)
  let e := draftEvent f o sec step k d
  let struck := k.events.filter (fun u => strikes u e && u.firm)
  let moved : KeyEvent := { e with time := putOff struck e.time }
  obtain ⟨before, after, placed, parts⟩ := placeEvent_split moved (k.events.map (tieToStrike f o moved))
  have events : (placeDraft f o sec (some step) k d).events = before ++ moved :: after := by
    rw [placeDraft_eq, kind]
    exact (congrArg (fun z => placeEvent z (k.events.map (tieToStrike f o z))) (afterFirmUp_eq k.events e)).trans placed
  refine ⟨moved, before, after, k.events.map (tieToStrike f o moved), events, parts, rfl, rfl, rfl, rfl, rfl, rfl, rfl, rfl, rfl, rfl,
    fun _ other => ?_, fun p basis => ⟨fun other => ?_, fun _ => ⟨rfl, ?_, struck, List.filter_sublist, fun u member => ?_, ?_⟩,
      fun other => ?_⟩⟩
  · cases kind.symm.trans other
  · cases kind.symm.trans other
  · rw [List.forall₂_map_right_iff, List.forall₂_same]
    exact fun u _ => takesStrike_tieToStrike f o moved u
  · rw [List.mem_filter, Bool.and_eq_true, show strikes u e = strikes u moved from rfl, strikes_iff]
    exact and_iff_right member
  · have own : e.time = timeAt f (divRec o d.division) .DOWN p := by rw [timed p basis, kind]
    show putOff struck e.time = _
    rw [own]
    rfl
  · cases kind.symm.trans other

theorem placed_up (kind : d.kind = .UP) : Placed f o sec step k d (placeDraft f o sec (some step) k d) := by
  obtain ⟨timed, fixedTime⟩ := draftEvent_time (f := f) (o := o) (sec := sec) (step := step) (k := k) (d := d)
  let e := draftEvent f o sec step k d
  obtain ⟨e', tied⟩ : ∃ e', e' = k.events.foldl (fun u x => tieToStrike f o x u) e := ⟨_, rfl⟩
  obtain ⟨basis', time', moved, kept⟩ := foldl_tieToStrike_eq f o k.events e
  rw [← tied] at moved
  have again (x : KeyEvent) : StrikesAgain e' x ↔ StrikesAgain e x := by
    rw [moved]
    unfold StrikesAgain
    dsimp only
    rw [ne_eq, ne_eq, kept]
  obtain ⟨before, after, placed, parts⟩ := placeEvent_split e' k.events
  have events : (placeDraft f o sec (some step) k d).events = before ++ e' :: after := by
    rw [placeDraft_eq, kind]
    exact (congrArg (placeEvent · k.events) tied.symm).trans placed
  refine ⟨e', before, after, k.events, events, parts, rfl, rfl, ?_, ?_, ?_, ?_, ?_, ?_, ?_, ?_, fun fixed _ => ?_,
    fun p basis => ⟨fun other => ?_, fun other => ?_, fun _ => ⟨rfl, fun none_ => ?_, fun pre x post q y cut ahead first strike => ?_⟩⟩⟩
  iterate 8 rw [moved]; rfl
  · have stays : e' = e := tied.trans (foldl_tieToStrike_done k.events fun p other => by cases fixed.symm.trans other)
    rw [stays]
    exact ⟨fixed, fixedTime fixed, rfl⟩
  · cases kind.symm.trans other
  · cases kind.symm.trans other
  · have own : e.time = timeAt f (divRec o d.division) .UP p := by rw [timed p basis, kind]
    have stays : e' = e := tied.trans (foldl_tieToStrike_none k.events fun x member comes => none_ x member
      ⟨(again x).mpr comes.1, own ▸ comes.2.1, comes.2.2⟩)
    rw [stays]
    exact ⟨rfl, own⟩
  · have own : e.time = timeAt f (divRec o d.division) .UP p := by rw [timed p basis, kind]
    obtain ⟨strikes_, late, -⟩ := first
    rw [again] at strikes_
    have takes : e' = { e with
        basis := .position p (some q),
        time := timeMin (timeAt f (divRec o e.division) .UP p) (timeAt f (divRec o e.division) .DOWN q) } := by
      rw [tied, cut]
      refine foldl_tieToStrike_first rfl basis (fun z member comes => ahead z member
        ⟨(again z).mpr comes.1, own ▸ comes.2.1, comes.2.2⟩) strikes_ (own ▸ late) strike
    rw [takes]
    exact ⟨rfl, rfl⟩

end

theorem placed_placeDraft (f : Follow) (o : Organ) (sec step : Nat) (k : Schedule) (d : Draft) :
    Placed f o sec step k d (placeDraft f o sec (some step) k d) := by
  cases kind : d.kind with
  | RENEW => exact placed_renew kind
  | DOWN => exact placed_down kind
  | UP => exact placed_up kind

/-! ### The planning of a step, whole or not at all (R117, R125) -/

theorem placedAll_foldl (f : Follow) (o : Organ) (sec step : Nat) : ∀ (drafts : List Draft) (k : Schedule),
    PlacedAll f o sec step k drafts (drafts.foldl (placeDraft f o sec (some step)) k)
  | [], _ => rfl
  | d :: rest, k => ⟨_, placed_placeDraft f o sec step k d, placedAll_foldl f o sec step rest _⟩

theorem plannedInto_placeAll (s : State) (sec step : Nat) (drafts : List Draft) :
    PlannedInto s sec step s.keys drafts (placeAll s sec (some step) drafts).keys :=
  ⟨_, placedAll_foldl s.follow s.organ sec step drafts s.keys, rfl, rfl, firmPass_perm _ _ _⟩

theorem placeOrRefuse_placed {sec step : Nat} {d : List Draft} (fits : d.length ≤ 256 - s.keys.events.length) :
    placeOrRefuse s sec step d = (placeAll s sec (some step) d, true) := if_pos fits

theorem placeOrRefuse_refused {sec step : Nat} {d : List Draft} (full : 256 - s.keys.events.length < d.length) :
    placeOrRefuse s sec step d = (raise (.scheduleFull sec step d.length (256 - s.keys.events.length)) s, false) :=
  if_neg (Nat.not_le.mpr full)

theorem planningMakesTheStepsEvents : PlanningMakesTheStepsEvents := by
  intro w s
  let asked := stepDrafts (planContext s w) s.organ s.player.channels w
  refine ⟨asked, stepAsks_stepDrafts s w, ?_⟩
  intro free r
  refine ⟨fun full => ?_, fun fits => ?_⟩
  · have refused := placeOrRefuse_refused (s := s) (sec := w.sec) (step := w.index) full
    show handStep w s = _
    unfold handStep
    dsimp only
    rw [refused]
    rfl
  · have placed := placeOrRefuse_placed (s := s) (sec := w.sec) (step := w.index) fits
    let marked : Player := { s.player with
      window := s.player.window.map (fun x =>
        if x.sec = w.sec ∧ x.index = w.index then
          { x with planned := true, released := x.fermata.isSome && x.release.isSome }
        else x),
      tied := some ⟨w.sec, stepTies (sectionMode s.player w.sec) s.organ s.player.channels w⟩ }
    have window : s.player.window.map (fun x => if sameStep w.sec w.index x then
          { x with planned := true, released := x.fermata.isSome && x.release.isSome } else x) = marked.window := by
      refine List.map_congr_left fun x _ => if_congr ?_ rfl rfl
      simp [sameStep]
    have handed : handStep w s = ({ placeAll s w.sec (some w.index) asked with player := marked }, true) := by
      unfold handStep
      dsimp only
      rw [placed, if_pos rfl]
      refine Prod.ext ?_ rfl
      show ({ placeAll s w.sec (some w.index) asked with player := _ } : State) = _
      unfold updateStep
      rw [show (placeAll s w.sec (some w.index) asked).player = s.player from rfl, window]
      rfl
    have planned := plannedInto_placeAll s w.sec w.index asked
    have result : r = ({ placeAll s w.sec (some w.index) asked with player := marked }, true) := handed
    rw [result]
    refine ⟨rfl, planned, ?_⟩
    rw [← stepTies_eq]
    rfl

/-- R124, second way. -/
theorem extensionReplacesTheUps : ExtensionReplacesTheUps := by
  intro w sectionEnd s ofStep ups free goodEnd t
  let drafts := ups.flatMap (extensionDrafts (extendedEnd w sectionEnd) (min (w.pos + w.dur) (extendedEnd w sectionEnd)))
  have length : drafts.length - ups.length = ups.length := by
    have double : drafts.length = 2 * ups.length := by
      show (ups.flatMap _).length = _
      induction ups with
      | nil => rfl
      | cons e rest ih =>
        rw [List.flatMap_cons, List.length_append, ih, List.length_cons]
        show 2 + _ = _
        omega
    omega
  have extends_ : t = if drafts.length - ups.length ≤ freePlaces s.keys then
      if ups.isEmpty then s
      else placeAll { s with keys := { s.keys with events := s.keys.events.filter (fun e => !ofStep e) } } w.sec (some w.index) drafts
    else raise (.scheduleFull w.sec w.index (drafts.length - ups.length) (freePlaces s.keys)) s := rfl
  rw [length] at extends_
  refine ⟨fun full => ?_, fun none_ => ?_, fun some_ fits => ?_⟩
  · exact extends_.trans (if_neg (Nat.not_le.mpr full))
  · rw [extends_, if_pos (by rw [none_]; exact Nat.zero_le _), none_]
    rfl
  · have placed : t = placeAll { s with keys := { s.keys with events := s.keys.events.filter (fun e => !ofStep e) } } w.sec
        (some w.index) drafts := by
      rw [extends_, if_pos (show ups.length ≤ freePlaces s.keys from fits), if_neg (by simpa using some_)]
    have same : drafts = ups.flatMap (fun e =>
        [⟨.UP, e.voice, e.division, e.key, .position goodEnd none, 0#32⟩,
         ⟨.RENEW, e.voice, e.division, e.key, .position (min (w.pos + w.dur) goodEnd) none, 0#32⟩]) := by
      show ups.flatMap _ = _
      rw [extendedEnd_eq]
      rfl
    rw [placed, ← same]
    exact ⟨rfl, plannedInto_placeAll { s with keys := { s.keys with events := s.keys.events.filter (fun e => !ofStep e) } }
      w.sec w.index drafts⟩

/-- Settles O51: the asked events note by note, each placing by its kind, and all of them or none. -/
theorem planningIsAllOrNone : Obligations.PlanningIsAllOrNone := by
  refine ⟨fun s sec step d => ⟨fun fits => ?_, fun full => placeOrRefuse_refused full⟩, planningMakesTheStepsEvents,
    extensionReplacesTheUps⟩
  rw [placeOrRefuse_placed fits]
  exact ⟨rfl, (length_firmPass _ _ _).trans (length_placeDrafts d s.keys), rfl⟩

end Sys2Proof.Proofs
end

section
/-! PROOFS. The due events of a composition, one by one (R134 to R136, R144, R154, R159). -/

namespace Sys2Proof.Proofs

open Sys2Proof.Machine Sys2Proof.Laws Sys2Proof.Claims

section
variable {f : Time} {s : State} {e : KeyEvent}

/-! ### What a taken event does to its key (R134, R135, R157) -/

theorem judgeWatch_map (e : KeyEvent) (s : State) : (judgeWatch e s).map = s.map := by
  unfold judgeWatch
  split
  · split
    · dsimp only
      split <;> rfl
    · rfl
  · rfl

theorem addVoice_ne_nil (v : Voice) (h : List Voice) : addVoice v h ≠ [] :=
  List.ne_nil_of_mem (mem_addVoice.mpr (.inl rfl))

/-- One key of the map written: the others stay, the stops and levels with them. -/
structure KeyWritten (m m' : SoundingMap) (d : Division) (k : Nat) (isDown : Bool) : Prop where
  canonical : m'.keys.wf noKey = true
  others : ∀ d' k', k' < 64 → ¬ (d' = d ∧ k' = k) → keyDown m' d' k' = keyDown m d' k'
  own : keyDown m' d k = isDown
  stops : m'.stops = m.stops
  expression : m'.expression = m.expression

theorem keyWritten_setKey {m : SoundingMap} {d : Division} {k : Nat} (x : KeyEntry) (canonical : m.keys.wf noKey = true)
    (below : k < 64) : KeyWritten m (setKey m d k x) d k (!x.holders.isEmpty) where
  canonical := Table.wf_set _ _ canonical
  others d' k' below' other := by
    rw [keyDown, otherKeysStay_setKey x canonical below d' k' below' (not_and_or.mp other)]
    rfl
  own := by rw [keyDown, keyEntry_setKey_same x canonical]
  stops := rfl
  expression := rfl

theorem keyWritten_self {m : SoundingMap} {d : Division} {k : Nat} (canonical : m.keys.wf noKey = true) :
    KeyWritten m m d k (keyDown m d k) :=
  ⟨canonical, fun _ _ _ _ => rfl, rfl, rfl, rfl⟩

theorem takeDown_writes (v : Voice) {d : Division} {k : Nat} (canonical : s.map.keys.wf noKey = true) (below : k < 64) :
    KeyWritten s.map (takeDown f v d k s).map d k true := by
  have written := keyWritten_setKey ⟨addVoice v (keyEntry s.map d k).holders, timePlus f s.params.cipherLimit⟩ canonical below
    (d := d)
  rwa [List.isEmpty_eq_false_iff.mpr (addVoice_ne_nil _ _)] at written

theorem takeUp_writes (v : Voice) {d : Division} {k : Nat} (canonical : s.map.keys.wf noKey = true) (below : k < 64) :
    KeyWritten s.map (takeUp f v d k s).map d k
      (if v ∈ (keyEntry s.map d k).holders then !(dropVoice v (keyEntry s.map d k).holders).isEmpty
        else keyDown s.map d k) := by
  split
  next holds =>
    rw [takeUp_map holds]
    exact keyWritten_setKey _ canonical below
  next ignored =>
    rw [takeUp_of_not_holder ignored]
    exact keyWritten_self canonical

theorem takeRenew_writes (v : Voice) {d : Division} {k : Nat} (canonical : s.map.keys.wf noKey = true) (below : k < 64) :
    KeyWritten s.map (takeRenew f v d k s).map d k (keyDown s.map d k) := by
  by_cases holds : v ∈ (keyEntry s.map d k).holders
  · rw [takeRenew_of_holder holds]
    exact keyWritten_setKey _ canonical below
  · rw [takeRenew_of_not_holder holds]
    exact keyWritten_self canonical

/-- What taking an event does to its key is what `keyChange` foretells. -/
theorem applyEvent_writes (f : Time) (canonical : s.map.keys.wf noKey = true) (below : e.key < 64) :
    KeyWritten s.map (applyEvent f e s).map e.division e.key
      ((keyChange s.map e).getD (keyDown s.map e.division e.key)) := by
  have watched := judgeWatch_map e s
  unfold applyEvent keyChange
  dsimp only
  generalize judgeWatch e s = t at watched
  rw [← watched] at canonical ⊢
  cases kind : e.kind with
  | DOWN =>
    have written := takeDown_writes (f := f) e.voice canonical below (d := e.division)
    cases silent : (keyEntry t.map e.division e.key).holders.isEmpty with
    | true => exact written
    | false => simpa [keyDown, silent] using written
  | UP =>
    have written := takeUp_writes (f := f) e.voice canonical below (d := e.division)
    by_cases holds : e.voice ∈ (keyEntry t.map e.division e.key).holders
    · rw [if_pos holds] at written
      have isDown : keyDown t.map e.division e.key = true := by
        simpa [keyDown] using List.ne_nil_of_mem holds
      cases last : (dropVoice e.voice (keyEntry t.map e.division e.key).holders).isEmpty with
      | true => simpa [holds, last] using written
      | false => simpa [holds, last, isDown] using written
    · rw [if_neg holds] at written
      simpa [holds] using written
  | RENEW => exact takeRenew_writes e.voice canonical below

/-- A foretold change is one: the key goes down from up, or up from down. -/
theorem keyDown_of_keyChange {m : SoundingMap} {b : Bool} (change : keyChange m e = some b) :
    keyDown m e.division e.key = !b := by
  unfold keyChange at change
  dsimp only at change
  split at change
  · split at change
    next silent =>
      cases change
      simpa [keyDown] using silent
    next => cases change
  · split at change
    next last =>
      cases change
      simp only [Bool.and_eq_true, List.contains_iff_mem] at last
      simpa [keyDown] using List.ne_nil_of_mem last.1
    next => cases change
  · cases change

theorem kind_of_goesDown {m : SoundingMap} (goes : keyChange m e = some true) : e.kind = .DOWN := by
  unfold keyChange at goes
  dsimp only at goes
  split at goes
  · assumption
  · split at goes <;> cases goes
  · cases goes

theorem goesDown_of_kind {m : SoundingMap} (down : e.kind = .DOWN) (up : keyDown m e.division e.key = false) :
    keyChange m e = some true := by
  unfold keyChange
  dsimp only
  rw [down]
  exact if_pos (by simpa [keyDown] using up)

theorem changes_iff (f : Time) (canonical : s.map.keys.wf noKey = true) (below : e.key < 64) :
    keyDown (applyEvent f e s).map e.division e.key ≠ keyDown s.map e.division e.key ↔ keyChange s.map e ≠ none := by
  rw [(applyEvent_writes f canonical below).own]
  cases change : keyChange s.map e with
  | none => simp
  | some b => simp [keyDown_of_keyChange change]

end

/-! ### What became of the events gone through -/

/-- An event of the key has met the fate `y`. -/
def Met (past : List (KeyEvent × Fate)) (d : Division) (k : Nat) (y : Fate) : Prop :=
  ∃ p ∈ past, p.2 = y ∧ p.1.division = d ∧ p.1.key = k

/-- A DOWN of the key has been taken. -/
def TookDown (past : List (KeyEvent × Fate)) (d : Division) (k : Nat) : Prop :=
  ∃ p ∈ past, (p.2 = .taken ∧ p.1.division = d ∧ p.1.key = k) ∧ p.1.kind = .DOWN

/-- Why the events of key `k` stay behind. -/
def blockOf (c : Comp) (d : Division) (k : Nat) : Option Bool :=
  (c.blocked.find? (fun b => b.1 == d && b.2.1 == k)).map (·.2.2)

/-- A composition that began in the map `m`, behind the events `past`: its notes agree with their fates. -/
structure Noted (m : SoundingMap) (past : List (KeyEvent × Fate)) (c : Comp) : Prop where
  canonical : c.state.map.keys.wf noKey = true
  risen : ∀ d k, k < 64 → keyDown c.state.map d k = true → keyDown m d k = true ∨ TookDown past d k
  wentUp : ∀ d k, k < 64 → ((d, k) ∈ c.wentUp ↔ keyDown c.state.map d k = false ∧ (keyDown m d k = true ∨ TookDown past d k))
  slipped : ∀ d k, blockOf c d k = some true ↔ Met past d k .slipped
  held : ∀ d k, blockOf c d k = some false ↔ Met past d k .held
  kept : c.kept = (past.filter (fun p => p.2 != .taken)).map Prod.fst
  slips : c.slipped = (past.filter (fun p => p.2 == .slipped)).map Prod.fst
  stops : c.state.map.stops = m.stops
  expression : c.state.map.expression = m.expression

section
variable {m : SoundingMap} {past : List (KeyEvent × Fate)} {c : Comp} {e : KeyEvent}

theorem met_append {x y : Fate} {d : Division} {k : Nat} :
    Met (past ++ [(e, x)]) d k y ↔ Met past d k y ∨ (x = y ∧ e.division = d ∧ e.key = k) := by
  simp [Met, or_and_right, exists_or]

theorem tookDown_append {x : Fate} {d : Division} {k : Nat} :
    TookDown (past ++ [(e, x)]) d k
      ↔ TookDown past d k ∨ ((x = .taken ∧ e.division = d ∧ e.key = k) ∧ e.kind = .DOWN) := by
  simp [TookDown, or_and_right, exists_or]

theorem blockOf_leaveEvent (slip : Bool) (d : Division) (k : Nat) :
    blockOf (leaveEvent e slip c) d k
      = (blockOf c d k).or (if e.division = d ∧ e.key = k then some slip else none) := by
  unfold blockOf leaveEvent
  dsimp only
  rw [List.find?_append]
  by_cases own : e.division = d ∧ e.key = k
  · cases c.blocked.find? (fun b => b.1 == d && b.2.1 == k) <;> simp [own]
  · have other : (e.division == d && e.key == k) = false := by
      simpa using own
    cases c.blocked.find? (fun b => b.1 == d && b.2.1 == k) <;> simp [own, other]

/-- The notes behind a taken event. -/
theorem Noted.take (noted : Noted m past c) (f : Time) (slots : List (Division × Nat)) (below : e.key < 64)
    (fresh : e.kind = .DOWN → (e.division, e.key) ∉ c.wentUp) :
    Noted m (past ++ [(e, .taken)]) (takeEvent f e slots c) := by
  have written := applyEvent_writes (s := c.state) f noted.canonical below
  have stays (change : keyChange c.state.map e = none) : keyDown (applyEvent f e c.state).map e.division e.key
      = keyDown c.state.map e.division e.key := by rw [written.own, change, Option.getD_none]
  refine ⟨written.canonical, fun d k small isDown => ?_, fun d k small => ?_, fun d k => ?_, fun d k => ?_, ?_, ?_,
    written.stops.trans noted.stops, written.expression.trans noted.expression⟩
  · rw [tookDown_append]
    by_cases own : d = e.division ∧ k = e.key
    · obtain ⟨rfl, rfl⟩ := own
      cases change : keyChange c.state.map e with
      | none => exact (noted.risen _ _ small ((stays change).symm.trans isDown)).imp_right .inl
      | some b =>
        have goes : b = true := by
          have goes : keyDown (applyEvent f e c.state).map e.division e.key = true := isDown
          rwa [written.own, change] at goes
        exact .inr (.inr ⟨⟨rfl, rfl, rfl⟩, kind_of_goesDown (goes ▸ change)⟩)
    · exact (noted.risen d k small ((written.others d k small own).symm.trans isDown)).imp_right .inl
  · rw [tookDown_append]
    by_cases own : d = e.division ∧ k = e.key
    · obtain ⟨rfl, rfl⟩ := own
      show _ ↔ keyDown (applyEvent f e c.state).map _ _ = false ∧ _
      have before := noted.wentUp e.division e.key small
      cases change : keyChange c.state.map e with
      | none =>
        have same : (takeEvent f e slots c).wentUp = c.wentUp := if_neg (by rw [change]; nofun)
        rw [same, before, stays change]
        refine and_congr_right fun up => or_congr_right (or_iff_left fun down => ?_).symm
        have goes := goesDown_of_kind down.2 up
        rw [change] at goes
        cases goes
      | some b =>
        rw [written.own, change]
        cases b with
        | true =>
          have same : (takeEvent f e slots c).wentUp = c.wentUp := if_neg (by rw [change]; nofun)
          rw [same]
          exact iff_of_false (fresh (kind_of_goesDown change)) fun away => nomatch away.1
        | false =>
          have noted_ : (takeEvent f e slots c).wentUp = (e.division, e.key) :: c.wentUp := if_pos change
          rw [noted_]
          exact iff_of_true List.mem_cons_self
            ⟨rfl, (noted.risen _ _ small (keyDown_of_keyChange change)).imp_right .inl⟩
    · have same : (d, k) ∈ (takeEvent f e slots c).wentUp ↔ (d, k) ∈ c.wentUp := by
        unfold takeEvent
        dsimp only
        split
        · rw [List.mem_cons, Prod.mk_inj]
          exact or_iff_right own
        · rfl
      have other : ¬ (e.division = d ∧ e.key = k) := fun here => own ⟨here.1.symm, here.2.symm⟩
      rw [same, noted.wentUp d k small, show keyDown (takeEvent f e slots c).state.map d k = _ from written.others d k small own]
      simp [other]
  · rw [met_append]
    exact (noted.slipped d k).trans (by simp)
  · rw [met_append]
    exact (noted.held d k).trans (by simp)
  · rw [List.filter_append, List.map_append]
    simpa [takeEvent] using noted.kept
  · rw [List.filter_append, List.map_append]
    simpa [takeEvent] using noted.slips

/-- The notes behind an event left: held back, or slipped, as those of its key before it were. -/
theorem Noted.leave (noted : Noted m past c) (slip : Bool)
    (agrees : blockOf c e.division e.key ≠ some !slip) :
    Noted m (past ++ [(e, if slip then .slipped else .held)]) (leaveEvent e slip c) := by
  have blocked (d : Division) (k : Nat) (b : Bool) : blockOf (leaveEvent e slip c) d k = some b
      ↔ blockOf c d k = some b ∨ (slip = b ∧ e.division = d ∧ e.key = k) := by
    rw [blockOf_leaveEvent]
    by_cases own : e.division = d ∧ e.key = k
    · obtain ⟨rfl, rfl⟩ := own
      generalize blockOf c e.division e.key = old at agrees
      cases old with
      | none => simp
      | some o => cases o <;> cases slip <;> cases b <;> simp at agrees ⊢
    · simp [own]
  have tookSame (d : Division) (k : Nat) : TookDown (past ++ [(e, if slip then .slipped else .held)]) d k ↔ TookDown past d k := by
    rw [tookDown_append]
    cases slip <;> simp
  refine ⟨noted.canonical, fun d k small isDown => ?_, fun d k small => ?_, fun d k => ?_, fun d k => ?_, ?_, ?_,
    noted.stops, noted.expression⟩
  · rw [tookSame]
    exact noted.risen d k small isDown
  · rw [tookSame]
    exact noted.wentUp d k small
  · rw [blocked, met_append, noted.slipped]
    cases slip <;> simp
  · rw [blocked, met_append, noted.held]
    cases slip <;> simp
  · rw [List.filter_append, List.map_append, ← noted.kept]
    cases slip <;> simp [leaveEvent]
  · rw [List.filter_append, List.map_append, ← noted.slips]
    cases slip <;> simp [leaveEvent]

/-! ### One due event (R136, R154, R159) -/

/-- The event's group has a change slot, or may have one. -/
def Roomy (limit : Option Nat) (slots : List (Division × Nat)) (e : KeyEvent) : Prop :=
  (e.division, e.key / 8) ∈ slots ∨ ∀ n, limit = some n → slots.length < n

/-- The slots behind a taken event: its group is among them where it changes its key and slots are limited. -/
def slotsBehind (limit : Option Nat) (c : Comp) (e : KeyEvent) : List (Division × Nat) :=
  if keyChange c.state.map e ≠ none ∧ limit ≠ none ∧ (e.division, e.key / 8) ∉ c.slots then
    c.slots ++ [(e.division, e.key / 8)] else c.slots

theorem composeEvent_slipped (f : Time) (limit : Option Nat) (slipped : blockOf c e.division e.key = some true) :
    composeEvent f limit c e = leaveEvent e true c := by
  have block : behind c e = some true := slipped
  unfold composeEvent
  rw [if_neg (by simp [block]), block]

theorem composeEvent_held (f : Time) (limit : Option Nat) (unslipped : blockOf c e.division e.key ≠ some true)
    (held : blockOf c e.division e.key = some false ∨ (e.kind = .DOWN ∧ (e.division, e.key) ∈ c.wentUp)) :
    composeEvent f limit c e = leaveEvent e false c := by
  have block : behind c e = blockOf c e.division e.key := rfl
  unfold composeEvent
  split
  · rfl
  next goes =>
    have early : blockOf c e.division e.key = some false :=
      held.resolve_right fun other => goes ⟨other.1, by simpa using other.2, block ▸ unslipped⟩
    rw [block, early]

theorem composeEvent_free (f : Time) (limit : Option Nat) (free : blockOf c e.division e.key = none)
    (fresh : ¬ (e.kind = .DOWN ∧ (e.division, e.key) ∈ c.wentUp)) :
    (keyChange c.state.map e ≠ none ∧ ¬ Roomy limit c.slots e → composeEvent f limit c e = leaveEvent e true c)
      ∧ (keyChange c.state.map e = none ∨ Roomy limit c.slots e →
          composeEvent f limit c e = takeEvent f e (slotsBehind limit c e) c) := by
  have block : behind c e = none := free
  have goes : ¬ (e.kind = .DOWN ∧ c.wentUp.contains (e.division, e.key) = true ∧ behind c e ≠ some true) :=
    fun all => fresh ⟨all.1, by simpa using all.2.1⟩
  unfold composeEvent slotsBehind
  rw [if_neg goes, block]
  dsimp only
  cases change : keyChange c.state.map e with
  | none => simp
  | some b =>
    simp only [Option.isNone_some, Bool.false_eq_true, if_false, List.contains_iff_mem]
    by_cases member : (e.division, e.key / 8) ∈ c.slots
    · simp [groupOf, member, Roomy]
    · cases limit with
      | none => simp [groupOf, member, Roomy]
      | some n =>
        by_cases room : c.slots.length < n
        · simp [groupOf, member, Roomy, room]
        · simp [groupOf, member, Roomy, room]

/-- What became of the due event `e` in a composition that stood at `c`: it was held back or slipped behind an
earlier event of its key, held back on a key that went up, slipped for want of a slot, or taken. -/
theorem composeEvent_fate (f : Time) (limit : Option Nat) (noted : Noted m past c) (below : e.key < 64) :
    ∃ x, Noted m (past ++ [(e, x)]) (composeEvent f limit c e)
      ∧ (Met past e.division e.key .slipped → x = .slipped)
      ∧ (¬ Met past e.division e.key .slipped → (Met past e.division e.key .held
          ∨ (e.kind = .DOWN ∧ (e.division, e.key) ∈ c.wentUp)) → x = .held)
      ∧ (¬ Met past e.division e.key .slipped → ¬ Met past e.division e.key .held →
          ¬ (e.kind = .DOWN ∧ (e.division, e.key) ∈ c.wentUp) →
          (keyChange c.state.map e ≠ none ∧ ¬ Roomy limit c.slots e → x = .slipped)
            ∧ (keyChange c.state.map e = none ∨ Roomy limit c.slots e → x = .taken))
      ∧ (x ≠ .taken → (composeEvent f limit c e).state = c.state ∧ (composeEvent f limit c e).slots = c.slots)
      ∧ (x = .taken → (composeEvent f limit c e).state = applyEvent f e c.state
          ∧ (composeEvent f limit c e).slots = slotsBehind limit c e) := by
  rw [← noted.slipped, ← noted.held]
  by_cases slipped : blockOf c e.division e.key = some true
  · rw [composeEvent_slipped f limit slipped]
    refine ⟨.slipped, noted.leave true (by simp [slipped]), fun _ => rfl, fun no => absurd slipped no,
      fun no => absurd slipped no, fun _ => ⟨rfl, rfl⟩, nofun⟩
  by_cases held : blockOf c e.division e.key = some false ∨ (e.kind = .DOWN ∧ (e.division, e.key) ∈ c.wentUp)
  · rw [composeEvent_held f limit slipped held]
    refine ⟨.held, noted.leave false slipped, fun yes => absurd yes slipped, fun _ _ => rfl,
      fun _ no notUp => absurd held (not_or.mpr ⟨no, notUp⟩), fun _ => ⟨rfl, rfl⟩, nofun⟩
  obtain ⟨unheld, fresh⟩ := not_or.mp held
  have free : blockOf c e.division e.key = none := by
    cases block : blockOf c e.division e.key with
    | none => rfl
    | some b => cases b <;> contradiction
  obtain ⟨full, takes⟩ := composeEvent_free f limit free fresh
  by_cases short : keyChange c.state.map e ≠ none ∧ ¬ Roomy limit c.slots e
  · rw [full short]
    refine ⟨.slipped, noted.leave true (by simp [free]), fun _ => rfl, fun _ other => absurd other held,
      fun _ _ _ => ⟨fun _ => rfl, fun room => ?_⟩, fun _ => ⟨rfl, rfl⟩, nofun⟩
    exact absurd room (not_or.mpr short)
  · have room : keyChange c.state.map e = none ∨ Roomy limit c.slots e := by
      by_contra no
      exact short (not_or.mp no)
    rw [takes room]
    refine ⟨.taken, noted.take f _ below fun down up => fresh ⟨down, up⟩, fun yes => absurd yes slipped,
      fun _ other => absurd other held, fun _ _ _ => ⟨fun full => absurd full short, fun _ => rfl⟩, nofun,
      fun _ => ⟨rfl, rfl⟩⟩

end

/-! ### All the due events -/

/-- The due events go through, their fates noted; the pairs of `GoThrough` stand at the composition's part and, where
change slots are limited, at its slots. -/
theorem goThrough_composeEvents (f : Time) (limit : Option Nat) (s : State) : ∀ (es : List KeyEvent) (c : Comp)
    (past : List (KeyEvent × Fate)) (slots : List (Division × Nat)),
    Noted s.map past c → (∀ e ∈ es, e.key < 64) → (limit ≠ none → slots = c.slots) →
    let t := es.foldl (composeEvent f limit) c
    ∃ marks slots', GoThrough f s limit past marks (c.state, slots) (t.state, slots')
      ∧ marks.map Prod.fst = es ∧ Noted s.map (past ++ marks) t ∧ (limit ≠ none → slots' = t.slots)
  | [], c, past, slots, noted, _, same => ⟨[], slots, rfl, rfl, by simpa using noted, same⟩
  | e :: rest, c, past, slots, noted, below, same => by
    have small := below e List.mem_cons_self
    obtain ⟨x, next, slips, holds, free, leaves, takes⟩ := composeEvent_fate f limit noted small
    have changes := changes_iff (s := c.state) f noted.canonical small
    have wentUp := noted.wentUp e.division e.key small
    have roomy : Roomy limit slots e ↔ Roomy limit c.slots e := by
      cases limit with
      | none => simp [Roomy]
      | some n => rw [same nofun]
    let slots' := if x = .taken then
      if keyDown (applyEvent f e c.state).map e.division e.key ≠ keyDown c.state.map e.division e.key
        ∧ (e.division, e.key / 8) ∉ slots then slots ++ [(e.division, e.key / 8)] else slots else slots
    obtain ⟨marks, final, through, events, last, ends⟩ := goThrough_composeEvents f limit s rest (composeEvent f limit c e)
      (past ++ [(e, x)]) slots' next (fun z member => below z (List.mem_cons_of_mem e member)) fun limited => by
        unfold slots'
        by_cases taken : x = .taken
        · rw [if_pos taken, (takes taken).2, same limited]
          unfold slotsBehind
          simp only [changes, ne_eq, limited, not_false_eq_true, true_and]
        · rw [if_neg taken, (leaves taken).2, same limited]
    refine ⟨(e, x) :: marks, final, ⟨slips, fun unslipped cause => ?_, fun unslipped unheld fresh => ?_, ?_⟩, ?_, ?_, ends⟩
    · exact holds unslipped (cause.imp_right fun other => ⟨other.1, wentUp.mpr other.2⟩)
    · obtain ⟨full, room⟩ := free unslipped unheld fun other => fresh ⟨other.1, wentUp.mp other.2⟩
      exact ⟨fun short => full ⟨changes.mp short.1, fun r => short.2 (roomy.mpr r)⟩,
        fun cause => room (cause.imp (fun unchanged => by_contra fun c => unchanged (changes.mpr c)) roomy.mp)⟩
    · have stands : (if x = .taken then (applyEvent f e c.state,
            if keyDown (applyEvent f e c.state).map e.division e.key ≠ keyDown c.state.map e.division e.key
              ∧ (e.division, e.key / 8) ∉ slots then slots ++ [(e.division, e.key / 8)] else slots)
          else (c.state, slots)) = ((composeEvent f limit c e).state, slots') := by
        unfold slots'
        by_cases taken : x = .taken
        · rw [if_pos taken, if_pos taken, (takes taken).1]
        · rw [if_neg taken, if_neg taken, (leaves taken).1]
      rw [stands]
      exact through
    · rw [List.map_cons, events]
    · rwa [List.append_assoc] at last

/-! ### The releases that a composition begins with (R144) -/

section
variable {m : SoundingMap} {s : State}

theorem noted_cipherReleases (f : Time) : ∀ (l : List (Division × Nat × KeyEntry)) (c : Comp),
    Noted m [] c → Down c.state l → Noted m [] (l.foldl (cipherRelease f) c)
  | [], _, noted, _ => noted
  | x :: rest, c, noted, down => by
    obtain ⟨below, entry, holders⟩ := down.1 x List.mem_cons_self
    have written : KeyWritten c.state.map (cipherRelease f c x).state.map x.1 x.2.1 false :=
      keyWritten_setKey _ noted.canonical below
    have before : keyDown c.state.map x.1 x.2.1 = true := by
      simpa [keyDown, entry] using holders
    have was := noted.risen x.1 x.2.1 below before
    refine noted_cipherReleases f rest _ ?_ (down.tail noted.canonical rfl)
    refine ⟨written.canonical, fun d k small isDown => ?_, fun d k small => ?_, noted.slipped, noted.held, noted.kept,
      noted.slips, noted.stops, noted.expression⟩
    · by_cases own : d = x.1 ∧ k = x.2.1
      · obtain ⟨rfl, rfl⟩ := own
        exact was
      · exact noted.risen d k small ((written.others d k small own).symm.trans isDown)
    · show (d, k) ∈ (x.1, x.2.1) :: c.wentUp ↔ _
      rw [List.mem_cons, Prod.mk_inj]
      by_cases own : d = x.1 ∧ k = x.2.1
      · obtain ⟨rfl, rfl⟩ := own
        exact iff_of_true (.inl ⟨rfl, rfl⟩) ⟨written.own, was⟩
      · rw [or_iff_right own, noted.wentUp d k small, written.others d k small own]

theorem noted_composeReleases (f : Time) (canonical : s.map.keys.wf noKey = true) (range : keysInRange s.map = true) :
    Noted s.map [] (composeReleases f s) := by
  refine noted_cipherReleases f _ _ ⟨canonical, fun d k _ isDown => .inl isDown, fun d k _ => ?_, fun d k => ?_,
    fun d k => ?_, rfl, rfl, rfl, rfl⟩ ⟨fun x member => downKeys_spec canonical range (List.mem_filter.mp member).1,
      (downKeys_distinct canonical range).filter _⟩
  · simp [emptyComp, TookDown]
  · simp [emptyComp, blockOf, Met]
  · simp [emptyComp, blockOf, Met]

end

end Sys2Proof.Proofs
end

section
/-! PROOFS. The parts of a frame's slots: the groups owed one, the Stop Queue's entries and the refresh (R138, R153,
R156, R158). -/

namespace Sys2Proof.Proofs

open Sys2Proof.Machine Sys2Proof.Laws Sys2Proof.Claims

/-! ### The groups owed a slot (R153) -/

/-- The place of a key group in the order by division and group. -/
def groupRank (x : Division × Nat) : Nat := 8 * divisionNumber x.1 + x.2

theorem groupRank_groupOf (d : Division) (k : Nat) : groupRank (groupOf d k) = keyId d k / 8 := by
  simp only [groupRank, groupOf, keyId]
  omega

theorem groupRank_inj {x y : Division × Nat} (smallX : x.2 < 8) (smallY : y.2 < 8) (same : groupRank x = groupRank y) : x = y := by
  unfold groupRank at same
  have divisions : x.1 = y.1 := divisionNumber_inj.mp (by omega)
  rw [divisions] at same
  exact Prod.ext divisions (by omega)

/-- Dropping the repetitions of an ordered list leaves it strictly ordered. -/
theorem rising_eraseDups {α : Type} [BEq α] [LawfulBEq α] (rank : α → Nat) : ∀ (l : List α),
    l.Pairwise (fun a b => rank a ≤ rank b) → (∀ a ∈ l, ∀ b ∈ l, rank a = rank b → a = b) →
    l.eraseDups.Pairwise (fun a b => rank a < rank b)
  | [], _, _ => by simp
  | a :: rest, order, inj => by
    obtain ⟨first, others⟩ := List.pairwise_cons.mp order
    rw [List.eraseDups_cons]
    refine List.pairwise_cons.mpr ⟨fun b member => ?_, rising_eraseDups rank _ (others.filter _) fun x inX y inY =>
      inj x (.tail _ (List.mem_filter.mp inX).1) y (.tail _ (List.mem_filter.mp inY).1)⟩
    obtain ⟨inRest, other⟩ := List.mem_filter.mp (List.mem_eraseDups.mp member)
    refine (first b inRest).lt_of_ne fun same => ?_
    rw [inj a List.mem_cons_self b (.tail _ inRest) same] at other
    simp at other
  termination_by l => l.length
  decreasing_by
    exact Nat.lt_succ_of_le (List.length_filter_le _ _)

theorem eq_of_rising {α : Type} (rank : α → Nat) {a b : List α} (risingA : a.Pairwise (fun x y => rank x < rank y))
    (risingB : b.Pairwise (fun x y => rank x < rank y)) (same : ∀ x, x ∈ a ↔ x ∈ b) : a = b := by
  have distinct {l : List α} (rising : l.Pairwise (fun x y => rank x < rank y)) : l.Nodup :=
    rising.imp fun less equal => (equal ▸ less).ne rfl
  exact ((List.perm_ext_iff_of_nodup (distinct risingA) (distinct risingB)).mpr same).eq_of_pairwise
    (fun x y _ _ less more => absurd less more.asymm) risingA risingB

theorem rising_of_wfCells {β : Type} [DecidableEq β] {d : β} : ∀ {l : List (Nat × β)}, wfCells d l = true →
    l.Pairwise (fun a b => a.1 < b.1)
  | [], _ => .nil
  | c :: rest, canonical => by
    obtain ⟨-, behind, others⟩ := wfCells_cons.mp canonical
    exact .cons behind (rising_of_wfCells others)

section
variable {f : Time} {m : SoundingMap} (canonical : m.keys.wf noKey = true) (range : keysInRange m = true)
include canonical range

theorem downKeys_rising : (downKeys m).Pairwise (fun x y => keyId x.1 x.2.1 < keyId y.1 y.2.1) := by
  have rising : m.keys.cells.Pairwise (fun a b => a.1 < b.1) := rising_of_wfCells canonical
  refine List.pairwise_map.mpr ((rising.filter _).imp_of_mem fun {a b} inA inB less => ?_)
  obtain ⟨lowA, highA⟩ := (keysInRange_iff m).mp range a (List.mem_filter.mp inA).1
  obtain ⟨lowB, highB⟩ := (keysInRange_iff m).mp range b (List.mem_filter.mp inB).1
  rwa [keyId_keyOfId lowA highA, keyId_keyOfId lowB highB]

theorem mem_cipherDue {d : Division} {k : Nat} (below : k < 64) : (∃ x ∈ cipherDue m f, x.1 = d ∧ x.2.1 = k)
    ↔ (keyDown m d k && !later (keyEntry m d k).deadline f) = true := by
  rw [Bool.and_eq_true, ← arrived_eq_not_later]
  constructor
  · rintro ⟨x, member, rfl, rfl⟩
    obtain ⟨inDown, late⟩ := List.mem_filter.mp member
    obtain ⟨-, entry, holders⟩ := downKeys_spec canonical range inDown
    exact ⟨by simpa [keyDown, entry] using holders, entry ▸ late⟩
  · rintro ⟨isDown, late⟩
    exact ⟨_, List.mem_filter.mpr ⟨mem_downKeys below isDown, late⟩, rfl, rfl⟩

theorem mem_groupsOf_cipherDue {x : Division × Nat} : x ∈ groupsOf (cipherDue m f) ↔ x.2 < 8 ∧
    ((List.range 8).any fun i => keyDown m x.1 (8 * x.2 + i) && !later (keyEntry m x.1 (8 * x.2 + i)).deadline f) = true := by
  unfold groupsOf
  rw [List.mem_eraseDups, List.mem_map, List.any_eq_true]
  constructor
  · rintro ⟨y, member, rfl⟩
    have below := (downKeys_spec canonical range (List.mem_filter.mp member).1).1
    refine ⟨by simp only [groupOf]; omega, y.2.1 % 8, List.mem_range.mpr (Nat.mod_lt _ (by decide)), ?_⟩
    have key : 8 * (groupOf y.1 y.2.1).2 + y.2.1 % 8 = y.2.1 := Nat.div_add_mod _ _
    rw [key]
    exact (mem_cipherDue canonical range below).mp ⟨y, member, rfl, rfl⟩
  · rintro ⟨small, i, inRange, due⟩
    have less := List.mem_range.mp inRange
    obtain ⟨y, member, division, key⟩ := (mem_cipherDue canonical range (by omega)).mpr due
    refine ⟨y, member, Prod.ext division ?_⟩
    show y.2.1 / 8 = x.2
    omega

theorem rising_groupsOf : (groupsOf (cipherDue m f)).Pairwise (fun x y => groupRank x < groupRank y) := by
  refine rising_eraseDups groupRank _ (List.pairwise_map.mpr ?_) fun x inX y inY => ?_
  · refine ((downKeys_rising canonical range).filter _).imp fun less => ?_
    rw [groupRank_groupOf, groupRank_groupOf]
    exact Nat.div_le_div_right less.le
  · exact groupRank_inj ((mem_groupsOf_cipherDue canonical range).mp (List.mem_eraseDups.mpr inX)).1
      ((mem_groupsOf_cipherDue canonical range).mp (List.mem_eraseDups.mpr inY)).1

end

/-- Every key group, by division and group. -/
def everyGroup : List (Division × Nat) := allDivisions.flatMap (fun d => (List.range 8).map (fun g => (d, g)))

theorem rising_everyGroup : everyGroup.Pairwise (fun x y => groupRank x < groupRank y) := by
  decide

theorem mem_everyGroup {x : Division × Nat} : x ∈ everyGroup ↔ x.2 < 8 := by
  obtain ⟨d, g⟩ := x
  simp [everyGroup, mem_allDivisions]

theorem owedGroups_eq (f : Time) {s : State} (canonical : s.map.keys.wf noKey = true) (range : keysInRange s.map = true) :
    owedGroups s.keyline.carry (groupsOf (cipherDue s.map f)) = owedAt f s := by
  refine congrArg (s.keyline.carry ++ ·) (eq_of_rising groupRank ((rising_groupsOf canonical range).filter _)
    (rising_everyGroup.filter _) fun x => ?_)
  rw [List.mem_filter, List.mem_filter, mem_groupsOf_cipherDue canonical range, ← everyGroup, mem_everyGroup,
    Bool.and_eq_true, and_assoc, and_comm (a := _ = true) (b := _ = true)]

/-! ### The Stop Queue (R138, R156) -/

theorem takeStops_fst (f : Time) : ∀ (room : Nat) (q : List StopEntry), (takeStops f room q).1 = stopsTaken f room q
  | room, [] => by simp [takeStops, stopsTaken]
  | room, e :: rest => by
    unfold takeStops
    rw [arrived_eq_not_later]
    unfold stopsTaken
    cases late : later e.notBefore f with
    | true => simpa [late, stopsTaken] using takeStops_fst f room rest
    | false =>
      cases room with
      | zero => simpa [late, stopsTaken] using takeStops_fst f 0 rest
      | succ n => simpa [late, stopsTaken] using takeStops_fst f n rest

theorem stopsTaken_sublist (f : Time) (room : Nat) (q : List StopEntry) : (stopsTaken f room q).Sublist q :=
  (List.take_sublist _ _).trans List.filter_sublist

theorem takeStops_snd (f : Time) : ∀ (room : Nat) (q : List StopEntry), q.Nodup →
    (takeStops f room q).2 = q.filter (fun e => !(stopsTaken f room q).contains e)
  | room, [], _ => by simp [takeStops]
  | room, e :: rest, distinct => by
    obtain ⟨fresh, others⟩ := List.nodup_cons.mp distinct
    rw [← takeStops_fst]
    unfold takeStops
    split
    · dsimp only
      rw [takeStops_snd f _ rest others, takeStops_fst, List.filter_cons_of_neg (by simp)]
      refine List.filter_congr fun x member => ?_
      have other : x ≠ e := fun same => fresh (same ▸ member)
      simp [other]
    · dsimp only
      rw [takeStops_snd f _ rest others, takeStops_fst, List.filter_cons_of_pos]
      have left : e ∉ stopsTaken f room rest := fun member => fresh ((stopsTaken_sublist f room rest).subset member)
      simpa using left

/-- A stop group written: its eight states are those of the value, the others stay. -/
theorem getLsbD_setGroup (b : BitVec 32) (g v : Nat) {n : Nat} (small : n < 32) :
    (setGroup b g v).getLsbD n = if n / 8 = g then v.testBit (n % 8) else b.getLsbD n := by
  have window : (255#32 <<< (8 * g)).getLsbD n = decide (n / 8 = g) := by
    have ones (i : Nat) : (255#32).getLsbD i = (decide (i < 32) && decide (i < 8)) := by
      rw [← Nat.testBit_two_pow_sub_one 8 i]
      exact BitVec.getLsbD_ofNat 32 255 i
    rw [BitVec.getLsbD_shiftLeft, ones, Bool.eq_iff_iff]
    simp
    omega
  have written : (BitVec.ofNat 32 (v % 256) <<< (8 * g)).getLsbD n = (decide (n / 8 = g) && v.testBit (n % 8)) := by
    rw [BitVec.getLsbD_shiftLeft, BitVec.getLsbD_ofNat, show (256 : Nat) = 2 ^ 8 from rfl, Nat.testBit_mod_two_pow]
    by_cases here : n / 8 = g
    · have place : n - 8 * g = n % 8 := by omega
      have low : n % 8 < 32 ∧ n % 8 < 8 ∧ ¬ n < 8 * g := by omega
      simp [place, low, here, small]
    · by_cases before : n < 8 * g
      · simp [here, before]
      · have high : ¬ n - 8 * g < 8 := by omega
        simp [here, high]
  unfold setGroup
  rw [BitVec.getLsbD_or, BitVec.getLsbD_and, BitVec.getLsbD_not, window, written, decide_eq_true small]
  split <;> simp [*]

section
variable (o : Organ) (m : SoundingMap) (e : StopEntry) (d : Division)

theorem applyStop_bit {n : Nat} (small : n < 32) (stop : n < (divRec o d).stopCount) :
    (divGet (applyStop o m e).stops d).getLsbD n
      = if e.target = .stopGroup d (n / 8) then e.value.testBit (n % 8) else (divGet m.stops d).getLsbD n := by
  unfold applyStop
  split
  next x g target =>
    dsimp only
    rw [divGet_divSet, target]
    by_cases own : d = x
    · subst own
      rw [if_pos rfl, getLsbD_stopMask _ _ small, decide_eq_true stop, Bool.true_and, getLsbD_setGroup _ _ _ small]
      simp only [Target.stopGroup.injEq, true_and, eq_comm (a := g)]
    · rw [if_neg own, if_neg (fun same => own (Target.stopGroup.inj same).1.symm)]
  next target => rw [if_neg (by rw [target]; nofun)]
  next target => rw [if_neg (by rw [target]; nofun)]

theorem applyStop_off {g n : Nat} (target : e.target = .stopGroup d g) (beyond : (divRec o d).stopCount ≤ n) :
    (divGet (applyStop o m e).stops d).getLsbD n = false := by
  unfold applyStop
  rw [target]
  dsimp only
  rw [divGet_divSet, if_pos rfl]
  by_cases small : n < 32
  · rw [getLsbD_stopMask _ _ small, decide_eq_false beyond.not_gt, Bool.false_and]
  · exact BitVec.getLsbD_of_ge _ _ (Nat.le_of_not_lt small)

theorem applyStop_other (other : ∀ g, e.target ≠ .stopGroup d g) : divGet (applyStop o m e).stops d = divGet m.stops d := by
  unfold applyStop
  split
  next x g target =>
    dsimp only
    rw [divGet_divSet, if_neg]
    exact fun own => other g (own ▸ target)
  next => rfl
  next => rfl

theorem applyStop_level : divGet (applyStop o m e).expression d
    = if e.target = .expression d then e.value else divGet m.expression d := by
  unfold applyStop
  split
  next target => rw [if_neg (by rw [target]; nofun)]
  next x target =>
    dsimp only
    rw [divGet_divSet, target]
    simp only [Target.expression.injEq, eq_comm]
  next target => rw [if_neg (by rw [target]; nofun)]

end

/-- Entries of distinct targets applied one after the other (R138). -/
theorem stopsApplied_foldl (o : Organ) : ∀ (taken : List StopEntry) (m : SoundingMap), (taken.map (·.target)).Nodup →
    StopsApplied o taken m (taken.foldl (applyStop o) m)
  | [], m, _ => fun d => by simp
  | e :: rest, m, distinct => fun d => by
    obtain ⟨fresh, others⟩ := List.nodup_cons.mp distinct
    obtain ⟨bits, off, stays, level⟩ := stopsApplied_foldl o rest (applyStop o m e) others d
    have entry {α : Type} (t : Target) (read : StopEntry → α) (held old : α)
        (first : held = if e.target = t then read e else old) :
        ((rest.find? (fun x => x.target == t)).map read).getD held
          = (((e :: rest).find? (fun x => x.target == t)).map read).getD old := by
      by_cases own : e.target = t
      · have none_ : rest.find? (fun x => x.target == t) = none :=
          List.find?_eq_none.mpr fun x member same =>
            fresh (List.mem_map.mpr ⟨x, member, (beq_iff_eq.mp same).trans own.symm⟩)
        rw [none_, List.find?_cons_of_pos (by simpa using own), first, if_pos own]
        rfl
      · rw [List.find?_cons_of_neg (by simpa using own), first, if_neg own]
    refine ⟨fun n small stop => ?_, fun ⟨x, member, g, target⟩ n beyond => ?_, fun none_ => ?_, ?_⟩
    · exact (bits n small stop).trans (entry _ _ _ _ (applyStop_bit o m e d small stop))
    · by_cases later_ : ∃ y ∈ rest, ∃ g, y.target = .stopGroup d g
      · exact off later_ n beyond
      · have first : x = e := by
          obtain rfl | inRest := List.mem_cons.mp member
          · rfl
          · exact absurd ⟨x, inRest, g, target⟩ later_
        rw [List.foldl_cons, stays fun y inRest k same => later_ ⟨y, inRest, k, same⟩]
        exact applyStop_off o m e d (first ▸ target) beyond
    · rw [List.foldl_cons, stays fun x member => none_ x (.tail _ member)]
      exact applyStop_other o m e d (none_ e List.mem_cons_self)
    · exact level.trans (entry _ _ _ _ (applyStop_level o m e d))

/-! ### The refresh (R158) -/

theorem refreshFrom_targets {rot : List Target} {n : Nat} (cursor : Nat) (fits : n ≤ rot.length ∨ rot = []) :
    (refreshFrom rot cursor n).1 = refreshTargets n cursor rot := by
  unfold refreshFrom refreshTargets
  rw [← List.rotate_eq_drop_append_take_mod]
  obtain short | rfl := fits
  · dsimp only
    induction n with
    | zero => rfl
    | succ n ih =>
      rw [List.range_succ, List.filterMap_append, ih (Nat.le_of_succ_le short), List.take_add_one, List.getElem?_rotate short,
        Nat.add_comm n cursor]
      cases place : rot[(cursor + n) % rot.length]? <;> simp [place]
  · simp

theorem refreshFrom_cursor (rot : List Target) (cursor n : Nat) : (refreshFrom rot cursor n).2 = cursorAfter n cursor rot := by
  unfold refreshFrom cursorAfter
  simp

/-- The refresh slots that end a frame, and the part with the cursor behind them. -/
theorem addRefresh_eq {s : State} {n : Nat} (fits : n ≤ (rotation s.organ).length ∨ rotation s.organ = []) :
    addRefresh n s = ({ s with keyline := { s.keyline with cursor := cursorAfter n s.keyline.cursor (rotation s.organ) } },
      (refreshTargets n s.keyline.cursor (rotation s.organ)).map (slotOf s true)) := by
  unfold addRefresh
  dsimp only
  rw [refreshFrom_cursor, refreshFrom_targets _ fits]
  rfl

end Sys2Proof.Proofs
end

section
/-! PROOFS. What the composition of a frame takes and sends (R152 to R160). -/

namespace Sys2Proof.Proofs

open Sys2Proof.Machine Sys2Proof.Laws Sys2Proof.Claims

section
variable {f : Time} {s : State}

/-! ### The events of a composition, and what it leaves in the schedule (R126, R154) -/

theorem dueEvents_eq (k : Schedule) (f : Time) : dueEvents k f = k.events.filter (fun e => e.firm && !later e.time f) := by
  simp only [dueEvents, arrived_eq_not_later]

theorem laterEvents_eq (k : Schedule) (f : Time) : laterEvents k f = k.events.filter (fun e => !(e.firm && !later e.time f)) := by
  simp only [laterEvents, arrived_eq_not_later]

/-- The composition behind its events, with change slots for the groups `slots` from its beginning. -/
def composed (f : Time) (limit : Option Nat) (slots : List (Division × Nat)) (s : State) : Comp :=
  (dueEvents s.keys f).foldl (composeEvent f limit) { composeReleases f s with slots := slots }

/-- The due events have gone through, and what the composition noted of them. -/
structure Went (f : Time) (limit : Option Nat) (slots : List (Division × Nat)) (s : State) (marks : List (KeyEvent × Fate))
    (slots' : List (Division × Nat)) (c : Comp) : Prop where
  through : GoThrough f s limit [] marks ((composeReleases f s).state, slots) (c.state, slots')
  left : LeftBehind f marks s.keys (keepEvents f c s.keys)
  slots : limit ≠ none → slots' = c.slots
  slipped : c.slipped = (marks.filter (fun p => p.2 == .slipped)).map Prod.fst
  stops : c.state.map.stops = s.map.stops
  expression : c.state.map.expression = s.map.expression
  alone : Composes s c.state

/-- The releases and the events of a composition leave all but the map, the mask, the flags and the settle watch. -/
theorem composes_composed (limit : Option Nat) (slots : List (Division × Nat)) (on : KeylineOn s) :
    Composes s (composed f limit slots s).state := by
  obtain ⟨released, -⟩ := composeReleases_spec f on
  exact released.trans (composeEvents_spec f limit (dueEvents s.keys f) { composeReleases f s with slots := slots }
    (released.on on) fun e member => released.keys ▸ (List.mem_filter.mp member).1).1

theorem went_composed (limit : Option Nat) (slots : List (Division × Nat)) (sound : CompositionSound s) (on : KeylineOn s) :
    ∃ marks slots', Went f limit slots s marks slots' (composed f limit slots s) := by
  obtain ⟨canonical, range, below, -⟩ := sound
  have noted := noted_composeReleases f canonical range
  obtain ⟨marks, slots', through, events, last, ends⟩ := goThrough_composeEvents f limit s (dueEvents s.keys f)
    { composeReleases f s with slots := slots } [] slots
    ⟨noted.canonical, noted.risen, noted.wentUp, noted.slipped, noted.held, noted.kept, noted.slips, noted.stops, noted.expression⟩
    (fun e member => below e (List.mem_filter.mp member).1) fun _ => rfl
  rw [List.nil_append] at last
  refine ⟨marks, slots', through, ⟨events.trans (dueEvents_eq _ _), rfl, ?_⟩, ends, last.slips, last.stops,
    last.expression, composes_composed limit slots on⟩
  show (orderSchedule (_ ++ laterEvents s.keys f)).Perm _
  rw [laterEvents_eq, show (composed f limit slots s).kept = _ from last.kept]
  exact orderSchedule_perm _

theorem Went.keys {limit : Option Nat} {slots slots' : List (Division × Nat)} {marks : List (KeyEvent × Fate)} {c : Comp}
    (went : Went f limit slots s marks slots' c) : c.state.keys = s.keys := went.alone.keys

theorem queueDistinct (sound : CompositionSound s) : s.keyline.stopQueue.Nodup := sound.2.2.2.of_map _

/-- The due entries of the Stop Queue taken, `room` of them at most (R138, R156). -/
theorem composeStops_eq (f : Time) (room : Nat) (distinct : s.keyline.stopQueue.Nodup) :
    let taken := stopsTaken f room s.keyline.stopQueue
    composeStops f room s = ({ s with map := taken.foldl (applyStop s.organ) s.map,
                                      keyline := { s.keyline with
                                        stopQueue := s.keyline.stopQueue.filter (fun e => !taken.contains e) } },
      taken.map (·.target)) := by
  unfold composeStops
  dsimp only
  rw [takeStops_snd f room _ distinct, takeStops_fst]

theorem stopsApplied_of_eq {o : Organ} {taken : List StopEntry} {m m' n : SoundingMap} (applied : StopsApplied o taken m m')
    (stops : n.stops = m.stops) (expression : n.expression = m.expression) : StopsApplied o taken n m' := by
  unfold StopsApplied
  rw [stops, expression]
  exact applied

theorem changeSlot_room : 1 ≤ (rotation s.organ).length ∨ rotation s.organ = [] := by
  cases rotation s.organ with
  | nil => exact .inr rfl
  | cons t rest => exact .inl (Nat.succ_le_succ (Nat.zero_le _))

theorem composeRunning_eq (f : Time) (s : State) (canonical : s.map.keys.wf noKey = true) (range : keysInRange s.map = true) :
    let owed := owedAt f s
    let c := composed f (some 15) (owed.take 15) s
    let reported := reportSlips f c.slipped { c.state with
      keys := keepEvents f c c.state.keys,
      keyline := { c.state.keyline with carry := (owed.drop 15).filter (fun g => !c.slots.contains g) } }
    let r := composeStops f (15 - c.slots.length) reported
    let ref := addRefresh 1 r.1
    composeRunning f s = (ref.1, slotsFor ref.1.organ ref.1.map false (c.slots.map (fun g => Target.keyGroup g.1 g.2))
      ++ slotsFor ref.1.organ ref.1.map false r.2 ++ ref.2) := by
  unfold composeRunning
  rw [owedGroups_eq f canonical range]
  rfl

end

/-- The slips of a composition reported: their count, and with one a raise of KEYLINE_SLIP for the first. -/
theorem reportSlips_spec (f : Time) (slipped : List KeyEvent) (t : State) :
    reportSlips f slipped t = { t with flags := (reportSlips f slipped t).flags,
                                       keyline := { t.keyline with slips := min 255 slipped.length } }
      ∧ (slipped = [] → (reportSlips f slipped t).flags = t.flags)
      ∧ ∀ e, slipped.head? = some e → (reportSlips f slipped t).flags
          = raiseFlags t.now (.keylineSlip f (min 255 slipped.length) e.division e.key e.time) t.flags := by
  cases slipped with
  | nil => exact ⟨rfl, fun _ => rfl, nofun⟩
  | cons e rest =>
    refine ⟨rfl, nofun, fun x first => ?_⟩
    cases first
    rfl

theorem runningComposition : RunningComposition := by
  intro f s sound state owed r rot
  have on : KeylineOn s := by simp [KeylineOn, state]
  obtain ⟨marks, slots', went⟩ := went_composed (f := f) (some 15) (owed.take 15) sound on
  have running : r = composeRunning f s := by
    unfold r compose
    rw [state]
  rw [composeRunning_eq f s sound.1 sound.2.1] at running
  dsimp only at running
  obtain ⟨c, isC⟩ : ∃ c, c = composed f (some 15) (owed.take 15) s := ⟨_, rfl⟩
  rw [← isC] at went
  rw [show owedAt f s = owed from rfl, ← isC] at running
  have slots : slots' = c.slots := went.slots nofun
  obtain ⟨reported, unslipped, firstSlip⟩ := reportSlips_spec f c.slipped { c.state with
      keys := keepEvents f c c.state.keys,
      keyline := { c.state.keyline with carry := (owed.drop 15).filter (fun g => !c.slots.contains g) } }
  have slips : c.slipped.length = marks.countP (fun m => m.2 == .slipped) := by
    rw [went.slipped, List.length_map, List.countP_eq_length_filter]
  have queue : c.state.keyline.stopQueue = s.keyline.stopQueue := went.alone.field (·.keyline.stopQueue) fun _ => rfl
  have cursor : c.state.keyline.cursor = s.keyline.cursor := went.alone.field (·.keyline.cursor) fun _ => rfl
  have now : c.state.now = s.now := went.alone.field (·.now) fun _ => rfl
  have organ : c.state.organ = s.organ := went.alone.organ
  rw [reported] at running
  generalize (reportSlips f c.slipped _).flags = flags at running unslipped firstSlip
  rw [composeStops_eq f _ (queue ▸ queueDistinct sound)] at running
  dsimp only at running
  rw [addRefresh_eq changeSlot_room] at running
  dsimp only at running
  rw [queue, cursor, went.keys, slips] at running
  refine ⟨marks, c.state, c.slots, slots ▸ went.through, ?_⟩
  rw [show rot = Machine.rotation c.state.organ from congrArg Machine.rotation organ.symm, ← organ, running]
  refine ⟨went.left, rfl, foldl_keeps SoundingMap.keys (applyStop_keys c.state.organ) _ _,
    stopsApplied_of_eq (stopsApplied_foldl c.state.organ _ c.state.map ((stopsTaken_sublist f _ _).map _ |>.nodup sound.2.2.2))
      went.stops.symm went.expression.symm, fun none_ => unslipped (List.eq_nil_of_length_eq_zero ?_), fun m first => ?_, ?_⟩
  · rw [slips]
    omega
  · have head : c.slipped.head? = some m.1 := by
      rw [went.slipped, List.head?_map, List.head?_filter, first]
      rfl
    rw [← now, ← slips]
    exact firstSlip m.1 head
  · unfold slotsFor
    rw [List.map_map, List.map_map]
    rfl

theorem faultComposition : FaultComposition := by
  intro f s sound state r rot n
  have on : KeylineOn s := by simp [KeylineOn, state]
  obtain ⟨marks, slots', went⟩ := went_composed (f := f) none (composeReleases f s).slots sound on
  obtain ⟨c, isC⟩ : ∃ c, c = composed f none (composeReleases f s).slots s := ⟨_, rfl⟩
  rw [← isC] at went
  have queue : c.state.keyline.stopQueue = s.keyline.stopQueue := went.alone.field (·.keyline.stopQueue) fun _ => rfl
  have cursor : c.state.keyline.cursor = s.keyline.cursor := went.alone.field (·.keyline.cursor) fun _ => rfl
  have organ : c.state.organ = s.organ := went.alone.organ
  have none_ : (composeReleases f s).slots = [] :=
    foldl_keeps (f := cipherRelease f) Comp.slots (fun _ _ => rfl) (cipherDue s.map f) (emptyComp s)
  have fault : r = addRefresh (min 16 (rotation c.state.organ).length) (composeStops f c.state.keyline.stopQueue.length
      { c.state with keys := keepEvents f c c.state.keys, keyline := { c.state.keyline with slips := 0 } }).1 := by
    unfold r compose
    rw [state, isC, show (composed f none (composeReleases f s).slots s).state.organ = _ from isC ▸ organ]
    rfl
  rw [composeStops_eq f _ (queue ▸ queueDistinct sound)] at fault
  dsimp only at fault
  replace fault := fault.trans (addRefresh_eq (.inl (Nat.min_le_right _ _)))
  dsimp only at fault
  rw [queue, cursor, went.keys] at fault
  refine ⟨marks, c.state, slots', none_ ▸ went.through, ?_⟩
  rw [show n = min 16 (rotation c.state.organ).length by rw [organ],
    show rot = Machine.rotation c.state.organ from congrArg Machine.rotation organ.symm, ← organ, fault]
  exact ⟨went.left, rfl, foldl_keeps SoundingMap.keys (applyStop_keys c.state.organ) _ _,
    stopsApplied_of_eq (stopsApplied_foldl c.state.organ _ c.state.map ((stopsTaken_sublist f _ _).map _ |>.nodup sound.2.2.2))
      went.stops.symm went.expression.symm, rfl⟩

theorem sweepComposition : SweepComposition := by
  intro f s state rot
  unfold compose
  rw [state]
  show composeSweep s = _
  unfold composeSweep
  dsimp only
  rw [addRefresh_eq changeSlot_room]
  rfl

theorem watchJudged : WatchJudged := by
  intro f e s t
  have kept : t.keyline = (judgeWatch e s).keyline ∧ t.flags = (judgeWatch e s).flags := by
    unfold t applyEvent
    dsimp only
    generalize judgeWatch e s = u
    cases e.kind with
    | DOWN => exact ⟨rfl, rfl⟩
    | UP =>
      dsimp only
      unfold takeUp
      dsimp only
      split <;> exact ⟨rfl, rfl⟩
    | RENEW =>
      dsimp only
      unfold takeRenew
      dsimp only
      split <;> exact ⟨rfl, rfl⟩
  rw [kept.1, kept.2]
  unfold judgeWatch
  constructor
  · intro w watch down sec
    rw [watch]
    dsimp only
    rw [if_pos ⟨down, sec⟩]
    cases later w.settle e.time <;> exact ⟨rfl, rfl⟩
  · intro other
    cases watch : s.keyline.watch with
    | none => exact ⟨rfl, rfl⟩
    | some w =>
      dsimp only
      rw [if_neg fun own => other w watch own.1 own.2]
      exact ⟨rfl, rfl⟩

/-- Settles O24: the due events through a composition with the notes of their fates, and the slots part by part. -/
theorem compositionTakesDueEvents : Obligations.CompositionTakesDueEvents :=
  ⟨runningComposition, faultComposition, sweepComposition, watchJudged⟩

end Sys2Proof.Proofs
end

section
/-! PROOFS. What a composition leaves alone, the number of its slots and their bytes (R152, R159, R163). -/

namespace Sys2Proof.Proofs

open Sys2Proof.Machine Sys2Proof.Laws Sys2Proof.Claims

section
variable {f : Time} {s : State}

/-! ### What a composition leaves alone -/

/-- The part but for what a composition writes. -/
def offFrame (s : State) : State :=
  { s with map := mapAfterReset, leak := ⟨[]⟩, flags := flagsAfterReset, keys := { s.keys with events := [] },
           keyline := { s.keyline with carry := [], slips := 0, stopQueue := [], cursor := 0, sweep := [], watch := none } }

theorem offFrame_composed (limit : Option Nat) (slots : List (Division × Nat)) (on : KeylineOn s) :
    offFrame (composed f limit slots s).state = offFrame s :=
  (composes_composed limit slots on).field offFrame fun _ => rfl

theorem offFrame_reportSlips (slipped : List KeyEvent) (t : State) : offFrame (reportSlips f slipped t) = offFrame t := by
  rw [(reportSlips_spec f slipped t).1]
  rfl

theorem offFrame_addRefresh (n : Nat) (t : State) : offFrame (addRefresh n t).1 = offFrame t := rfl

theorem offFrame_composeStops (room : Nat) (t : State) : offFrame (composeStops f room t).1 = offFrame t := rfl

/-- What a composition leaves put back in the schedule, the carry list and the slip count written. -/
theorem offFrame_left (c : Comp) (carry : List (Division × Nat)) (slips : Nat) :
    offFrame { c.state with keys := keepEvents f c c.state.keys,
                            keyline := { c.state.keyline with carry := carry, slips := slips } } = offFrame c.state := rfl

theorem offFrame_composeRunning (f : Time) (on : KeylineOn s) : offFrame (composeRunning f s).1 = offFrame s := by
  unfold composeRunning
  dsimp only
  rw [offFrame_addRefresh, offFrame_composeStops, offFrame_reportSlips]
  exact (offFrame_left _ _ _).trans (offFrame_composed (some 15) _ on)

theorem offFrame_composeFault (f : Time) (on : KeylineOn s) : offFrame (composeFault f s).1 = offFrame s := by
  unfold composeFault
  dsimp only
  rw [offFrame_addRefresh, offFrame_composeStops]
  exact (offFrame_left _ _ _).trans (offFrame_composed none (composeReleases f s).slots on)

theorem offFrame_compose (f : Time) (s : State) : offFrame (compose f s).1 = offFrame s := by
  unfold compose
  cases state : s.keyline.state with
  | OFF => rfl
  | SWEEP => rfl
  | RUNNING => exact offFrame_composeRunning f (by simp [KeylineOn, state])
  | FAULT => exact offFrame_composeFault f (by simp [KeylineOn, state])

/-- A field that a composition leaves alone. -/
theorem compose_field {α : Type} (g : State → α) (off : ∀ u, g (offFrame u) = g u) : g (compose f s).1 = g s := by
  rw [← off (compose f s).1, offFrame_compose, off]

/-! ### The number of slots (R152, R159, R160) -/

theorem length_slots_composeEvent (n : Nat) (c : Comp) (e : KeyEvent) (fits : c.slots.length ≤ n) :
    (composeEvent f (some n) c e).slots.length ≤ n := by
  unfold composeEvent
  split
  · exact fits
  · split
    · exact fits
    · split
      · exact fits
      · dsimp only
        split
        · exact fits
        · split
          next room => simpa [takeEvent] using room
          next => exact fits

theorem length_slots_composed (n : Nat) (slots : List (Division × Nat)) (fits : slots.length ≤ n) :
    (composed f (some n) slots s).slots.length ≤ n := by
  unfold composed
  generalize dueEvents s.keys f = es
  have goes : ∀ (c : Comp), c.slots.length ≤ n → (es.foldl (composeEvent f (some n)) c).slots.length ≤ n := by
    induction es with
    | nil => exact fun _ => id
    | cons e rest ih => exact fun c few => ih _ (length_slots_composeEvent n c e few)
  exact goes _ fits

theorem length_addRefresh_le (n : Nat) (t : State) : (addRefresh n t).2.length ≤ n := by
  unfold addRefresh slotsFor refreshFrom
  rw [List.length_map]
  exact (List.length_filterMap_le _ _).trans List.length_range.le

theorem length_composeStops_le (room : Nat) (t : State) : (composeStops f room t).2.length ≤ room := by
  unfold composeStops
  rw [List.length_map, takeStops_fst]
  exact List.length_take_le _ _

/-- A frame has sixteen slots at most. -/
theorem length_compose_le (f : Time) (s : State) : (compose f s).2.length ≤ 16 := by
  unfold compose
  cases state : s.keyline.state with
  | OFF => exact Nat.zero_le _
  | SWEEP =>
    have refresh := length_addRefresh_le 1 { s with keyline := { s.keyline with sweep := s.keyline.sweep.drop 15 } }
    show (List.map _ (s.keyline.sweep.take 15) ++ _).length ≤ 16
    rw [List.length_append, List.length_map, List.length_take]
    exact Nat.add_le_add (Nat.min_le_left _ _) refresh
  | RUNNING =>
    let owed := owedGroups s.keyline.carry (groupsOf (cipherDue s.map f))
    have slots := length_slots_composed (f := f) (s := s) 15 (owed.take 15) (List.length_take_le _ _)
    have stops (t : State) := length_composeStops_le (f := f) (15 - (composed f (some 15) (owed.take 15) s).slots.length) t
    have refresh (t : State) := length_addRefresh_le 1 t
    show (slotsFor _ _ false (List.map _ (composed f (some 15) (owed.take 15) s).slots) ++ slotsFor _ _ false (composeStops f
      (15 - (composed f (some 15) (owed.take 15) s).slots.length) _).2 ++ (addRefresh 1 _).2).length ≤ 16
    unfold slotsFor
    rw [List.length_append, List.length_append, List.length_map, List.length_map, List.length_map]
    refine (Nat.add_le_add (Nat.add_le_add_left (stops _) _) (refresh _)).trans ?_
    omega
  | FAULT => exact (length_addRefresh_le _ _).trans (Nat.min_le_left _ _)

end

/-! ### The bytes of a frame (R163) -/

/-- The first byte of a slot: its kind, the refresh mark and the division's number, in the fields of R163. -/
theorem slotHead_eq (kind : BitVec 2) (refresh : Bool) (d : Division) :
    BitVec.ofNat 8 (64 * kind.toNat + (if refresh = true then 32 else 0) + 4 * divisionNumber d)
      = kind ++ BitVec.ofBool refresh ++ BitVec.ofNat 3 (divisionNumber d) ++ 0#2 := by
  revert kind
  cases refresh <;> cases d <;> decide

theorem slotBytes_eq (x : FrameSlot) : slotBytes x = slotLayout x := by
  unfold slotBytes slotLayout
  cases x.target with
  | keyGroup d g =>
    dsimp only
    rw [← slotHead_eq]
    rfl
  | stopGroup d g =>
    dsimp only
    rw [← slotHead_eq]
    rfl
  | expression d =>
    dsimp only
    rw [← slotHead_eq]
    rfl

theorem frameBytes_eq (n : Nat) (slots : List FrameSlot) : frameBytes n slots = frameLayout n slots := by
  unfold frameBytes frameLayout
  rw [show slotBytes = slotLayout from funext slotBytes_eq]
  rfl

theorem length_slotLayout (x : FrameSlot) : (slotLayout x).length = 3 := by
  unfold slotLayout
  cases x.target <;> rfl

/-! ### The states that slots carry (R163) -/

/-- A number made of the bits that hold below `n`. -/
theorem testBit_bitsBelow (p : Nat → Bool) (n i : Nat) :
    let made := (List.range n).foldl (fun acc i => if p i then acc + 2 ^ i else acc) 0
    made < 2 ^ n ∧ made.testBit i = (decide (i < n) && p i) := by
  induction n with
  | zero => simp
  | succ n ih =>
    dsimp only at ih ⊢
    rw [List.range_succ, List.foldl_append]
    generalize (List.range n).foldl (fun acc i => if p i then acc + 2 ^ i else acc) 0 = made at ih
    obtain ⟨small, bit⟩ := ih
    have double : 2 ^ (n + 1) = 2 ^ n + 2 ^ n := by omega
    show (if p n then made + 2 ^ n else made) < _ ∧ (if p n then made + 2 ^ n else made).testBit i = _
    cases top : p n with
    | false =>
      refine ⟨by simp only [Bool.false_eq_true, if_false]; omega, ?_⟩
      simp only [Bool.false_eq_true, if_false, bit]
      obtain rfl | other := eq_or_ne i n
      · simp [top]
      · rw [decide_eq_decide.mpr (show i < n ↔ i < n + 1 by omega)]
    | true =>
      refine ⟨by simp only [if_true]; omega, ?_⟩
      rw [if_pos rfl, show made + 2 ^ n = 2 ^ n * 1 + made by omega, Nat.testBit_two_pow_mul_add 1 small, bit]
      obtain below | rfl | above := lt_trichotomy i n
      · simp [below, below.le]
      · simp [top]
      · rw [if_neg above.not_gt, decide_eq_false (by omega), Bool.false_and]
        exact Nat.testBit_lt_two_pow (Nat.one_lt_two_pow (by omega))

theorem testBit_groupKeys (o : Organ) (m : SoundingMap) (d : Division) (g : Nat) {i : Nat} (small : i < 8) :
    (groupKeys o m d g).testBit i = (decide (8 * g + i < (divRec o d).keyCount) && keyDown m d (8 * g + i)) :=
  (testBit_bitsBelow _ 8 i).2.trans (by rw [decide_eq_true small, Bool.true_and])

theorem slotStatesOfTheMap : SlotStatesOfTheMap := by
  intro o m d g i small
  refine ⟨testBit_groupKeys o m d g small, ?_, rfl⟩
  show (groupStates _ g).testBit i = _
  rw [testBit_groupStates _ _ small, getLsbD_masked]

end Sys2Proof.Proofs
end

section
/-! PROOFS. A frame start: the frame sent, and what the places it frees and the end of a hymn bring (R103, R117, R126,
R149, R163). -/

namespace Sys2Proof.Proofs

open Sys2Proof.Machine Sys2Proof.Laws Sys2Proof.Claims

/-! ### The Keyline through an event that the walk brings -/

section
variable {s t u : State}

/-- The Keyline stays, or but for the settle watch, which the return to IDLE ends (R157). -/
def KeylineStays (s t : State) : Prop := t.keyline = s.keyline ∨ t.keyline = { s.keyline with watch := none }

theorem KeylineStays.trans (first : KeylineStays s t) (second : KeylineStays t u) : KeylineStays s u := by
  unfold KeylineStays at *
  obtain same | ended := first
  · rwa [same] at second
  · rw [ended] at second
    exact .inr (second.elim id id)

theorem keylineStays_becomeIdle : KeylineStays s (becomeIdle s) := by
  obtain ⟨b, f, idle⟩ := becomeIdle_eq s
  exact .inr (congrArg (·.keyline) idle)

theorem keylineStays_idleIfDone : KeylineStays s (idleIfDone s) := by
  unfold idleIfDone
  split
  · exact keylineStays_becomeIdle
  · exact .inl rfl

theorem dropAmen_keyline : (dropAmen s).keyline = s.keyline := walks_placesFreed.keyline

theorem keylineStays_finishVerse : KeylineStays s (finishVerse s) := by
  unfold finishVerse endOfVerse
  dsimp only
  split
  · exact .inl rfl
  · split
    · exact .inl rfl
    · split
      · exact .inl rfl
      · split
        · rw [if_pos rfl, Option.getD_some]
          refine KeylineStays.trans ?_ keylineStays_idleIfDone
          exact .inl dropAmen_keyline
        · exact .inl rfl

theorem keylineStays_checkLost : KeylineStays s (checkLost s) := by
  unfold checkLost loseChoir
  dsimp only
  split
  · split
    · exact KeylineStays.trans (.inl rfl) keylineStays_finishVerse
    · exact .inl rfl
  · exact .inl rfl

theorem keylineStays_decideWindow (m : MatchWindow) : KeylineStays s (decideWindow m s).1 := by
  obtain ⟨b, f, decided⟩ := decidedBeforeLost_eq m s
  rw [decideWindow_eq]
  exact KeylineStays.trans (.inl (congrArg (·.keyline) decided)) keylineStays_checkLost

theorem keylineStays_progress : ∀ (n : Nat) (s : State), KeylineStays s (progress n s)
  | 0, s => .inl rfl
  | n + 1, s => by
    have looked : KeylineStays s (lookForWindow (admitSteps Config.cascadeBound s).2 (admitSteps Config.cascadeBound s).1).1 :=
      .inl ((onlySeeks_lookForWindow _ _).passes.keyline.trans (walks_admitSteps _ s).keyline)
    unfold progress
    dsimp only
    split
    next m _ =>
      refine KeylineStays.trans ?_ (keylineStays_progress n _)
      split
      · exact (looked.trans (keylineStays_decideWindow m)).trans (.inl walks_retime.keyline)
      · exact looked.trans (keylineStays_decideWindow m)
    · exact looked.trans (.inl rfl)

theorem keylineStays_settle : KeylineStays s (settle s) := keylineStays_progress _ s

end

/-! ### The part that a frame start composes in (R126, R149, R150) -/

section
variable {s : State} (dt : Nat)

theorem judgeEcho_eq (s : State) : ∃ state errors goods carry outcome boards flags, judgeEcho s = { s with
    keyline := { s.keyline with state := state, errors := errors, goods := goods, carry := carry, lastOutcome := outcome,
                                lastBoards := boards },
    flags := flags } := by
  cases awaited : s.keyline.awaited with
  | none =>
    have same : judgeEcho s = s := by
      unfold judgeEcho
      rw [awaited]
    exact ⟨_, _, _, _, _, _, _, same⟩
  | some n => exact ⟨_, _, _, _, _, _, _, judgeEcho_awaited awaited⟩

theorem readyToCompose_eq (dt : Nat) (s : State) : ∃ k flags, readyToCompose dt s = { elapse dt s with
      keyline := k, flags := flags, keys := firmPass (s.now + BitVec.ofNat 32 dt) s.params.firmLead s.keys }
    ∧ k.interval = s.keyline.pendingInterval.getD s.keyline.interval ∧ k.pendingInterval = none
    ∧ k.nextStart = some (timePlus (s.now + BitVec.ofNat 32 dt) k.interval) ∧ k.frameNumber = s.keyline.frameNumber := by
  obtain ⟨state, errors, goods, carry, outcome, boards, flags, judged⟩ := judgeEcho_eq { elapse dt s with
    keyline := { s.keyline with
      interval := s.keyline.pendingInterval.getD s.keyline.interval, pendingInterval := none,
      nextStart := some (timePlus (s.now + BitVec.ofNat 32 dt) (s.keyline.pendingInterval.getD s.keyline.interval)) } }
  unfold readyToCompose
  dsimp only
  rw [judged]
  exact ⟨_, _, rfl, rfl, rfl, rfl, rfl⟩

/-- What a composition at a frame start is made of. -/
def frameComposed (dt : Nat) (s : State) : Composed := compose (s.now + BitVec.ofNat 32 dt) (readyToCompose dt s)

/-- A field that neither the judgement, the firming pass nor the composition writes. -/
theorem frameComposed_field {α : Type} (g : State → α) (off : ∀ u, g (offFrame u) = g u)
    (ready : ∀ u k flags keys, g { u with keyline := k, flags := flags, keys := keys } = g u) :
    g (frameComposed dt s).1 = g (elapse dt s) := by
  obtain ⟨k, flags, made, -⟩ := readyToCompose_eq dt s
  rw [frameComposed, compose_field g off, made, ready]

theorem frameComposed_keyline (dt : Nat) (s : State) :
    let k := (frameComposed dt s).1.keyline
    k.interval = s.keyline.pendingInterval.getD s.keyline.interval ∧ k.pendingInterval = none
      ∧ k.nextStart = some (timePlus (s.now + BitVec.ofNat 32 dt) (s.keyline.pendingInterval.getD s.keyline.interval))
      ∧ k.frameNumber = s.keyline.frameNumber := by
  obtain ⟨k, flags, made, interval, pending, next, number⟩ := readyToCompose_eq dt s
  unfold frameComposed
  dsimp only
  rw [compose_field (·.keyline.interval) fun _ => rfl, compose_field (·.keyline.pendingInterval) fun _ => rfl,
    compose_field (·.keyline.nextStart) fun _ => rfl, compose_field (·.keyline.frameNumber) fun _ => rfl, made]
  exact ⟨interval, pending, interval ▸ next, number⟩

theorem frameComposed_boundary (dt : Nat) (s : State) :
    (frameComposed dt s).1.keys.boundary = timePlus (s.now + BitVec.ofNat 32 dt) s.params.firmLead := by
  obtain ⟨k, flags, made, -⟩ := readyToCompose_eq dt s
  rw [frameComposed, compose_field (·.keys.boundary) fun _ => rfl, made]
  rfl

/-- The frame of a frame start, sent (R149, R163). -/
theorem frameStages_eq (dt : Nat) (s : State) :
    frameStages (elapse dt s) = frameSent s.keyline.frameNumber (frameComposed dt s) := by
  obtain ⟨-, -, -, number⟩ := frameComposed_keyline dt s
  have now : (elapse dt s).now = s.now + BitVec.ofNat 32 dt := rfl
  obtain ⟨judged, isJudged⟩ : ∃ u, u = judgeEcho { elapse dt s with keyline := setNextStart (elapse dt s).now s.keyline } :=
    ⟨_, rfl⟩
  have ready : readyToCompose dt s = { judged with keys := firmPass (elapse dt s).now s.params.firmLead s.keys } := by
    rw [isJudged]
    rfl
  have kept : judged.params = s.params ∧ judged.keys = s.keys := by
    obtain ⟨_, _, _, _, _, _, _, made⟩ := judgeEcho_eq { elapse dt s with keyline := setNextStart (elapse dt s).now s.keyline }
    rw [isJudged, made]
    exact ⟨rfl, rfl⟩
  have sent : sendFrame (frameComposed dt s).2 (frameComposed dt s).1.keyline
      = (frameSent s.keyline.frameNumber (frameComposed dt s)).keyline := by
    unfold sendFrame
    rw [number, frameBytes_eq]
    rfl
  have stages : frameStages (elapse dt s) = { (frameComposed dt s).1 with
      keyline := sendFrame (frameComposed dt s).2 (frameComposed dt s).1.keyline } := by
    have composes : (compose (elapse dt s).now { judged with keys := firmPass (elapse dt s).now judged.params.firmLead judged.keys })
        = frameComposed dt s := by
      have firmed : readyToCompose dt s = { judged with keys := firmPass (elapse dt s).now judged.params.firmLead judged.keys } := by
        rw [ready, ← kept.1, ← kept.2]
      rw [← firmed]
      rfl
    rw [← composes, isJudged]
    rfl
  rw [stages, sent]
  rfl

/-! ### What the places it frees bring (R117) -/

/-- The waiting requests handed again, and the unplanned steps behind them (R117). -/
def requestsAgain (u : State) : State :=
  let r := handReleases u.player.releases u
  let s1 := { r.1 with player := { r.1.player with releases := r.2 } }
  if r.2.isEmpty then planSteps (Config.windowPlaces + 1) s1 else s1

theorem placesFreed_of_none (none_ : s.player.heldRelease = none) : placesFreed s = requestsAgain s := by
  unfold placesFreed
  rw [none_]
  rfl

theorem placesFreed_of_some {sec : Nat} (held : s.player.heldRelease = some sec) :
    placesFreed s = requestsAgain (releaseHeld sec s) := by
  unfold placesFreed
  rw [held]
  rfl

theorem requestsAgain_of_nothing (window : s.player.window = []) (requests : s.player.releases = []) : requestsAgain s = s := by
  have unplanned : firstUnplanned s.player = none := by
    unfold firstUnplanned
    rw [window]
    rfl
  have plans : planSteps (16 + 1) s = s := by
    unfold planSteps
    rw [unplanned]
  have same : ({ s with player := { s.player with releases := [] } } : State) = s := by
    rw [← requests]
  unfold requestsAgain
  rw [requests]
  exact (congrArg (planSteps (16 + 1)) same).trans plans

/-- With nothing ahead and nothing that waits for places, freed places bring nothing. -/
theorem settle_placesFreed_of_nothing (nothing : NothingAhead s.player) (requests : s.player.releases = [])
    (held : s.player.heldRelease = none ∨ (anyDown s.map = false ∧ s.keys.events = [])) : settle (placesFreed s) = s := by
  obtain ⟨window, ahead⟩ := nothing
  have freed : placesFreed s = s := by
    cases waits : s.player.heldRelease with
    | none => exact (placesFreed_of_none waits).trans (requestsAgain_of_nothing window requests)
    | some sec =>
      obtain ⟨silent, events⟩ := held.resolve_left (by rw [waits]; nofun)
      have released : releaseHeld sec s = s := by
        rw [releaseHeld_of_silent silent, inOrder, events, show orderSchedule [] = s.keys.events from events.symm]
      rw [placesFreed_of_some waits, released]
      exact requestsAgain_of_nothing window requests
  have fenced : ∀ r, s.player.readAhead = some r → fenceAdmits s.player.fence ⟨r.sec, r.pos⟩ = false := by
    rw [ahead]
    nofun
  have rests : FollowerRests s := .inr ⟨fenced, fun _ _ x member => by
    rw [window] at member
    cases member⟩
  rw [freed, settle_of_rests rests, admitSteps_of_fenced fenced]
  unfold leaveWindow
  rw [window, List.filter_nil, ← window]

/-! ### A frame start at its time (R103, R126, R149) -/

/-- The part with the frame sent and the freed places used, before the return to IDLE. -/
def frameSettled (dt : Nat) (s : State) : State :=
  let sent := frameSent s.keyline.frameNumber (frameComposed dt s)
  if sent.keys.events.length < s.keys.events.length then settle (placesFreed sent) else sent

theorem exec_frameStart (live : InService s) (arrives : frameDue (elapse dt s) = true) :
    exec (.frameStart dt) s = .next (idleIfDone (frameSettled dt s)) := by
  have started : exec (.frameStart dt) s = onService dt (fun t => if frameDue t then frameStart t else t) s := rfl
  rw [started, onService_live _ _ s live, if_pos arrives]
  unfold frameStart
  dsimp only
  rw [frameStages_eq]
  rfl

theorem frameSettled_still (dt : Nat) (s : State) :
    Still (frameSent s.keyline.frameNumber (frameComposed dt s)) (frameSettled dt s)
      ∧ KeylineStays (frameSent s.keyline.frameNumber (frameComposed dt s)) (frameSettled dt s)
      ∧ Rises (frameSent s.keyline.frameNumber (frameComposed dt s)) (frameSettled dt s) := by
  unfold frameSettled
  dsimp only
  split
  · exact ⟨(still_placesFreed _).trans (still_settle _),
      KeylineStays.trans (.inl walks_placesFreed.keyline) keylineStays_settle, rises_placesFreed.trans rises_settle⟩
  · exact ⟨.refl _, .inl rfl, .refl _⟩

theorem frameSettled_of_nothing
    (alone : (frameComposed dt s).1.keys.events.length = s.keys.events.length
      ∨ (NothingAhead s.player ∧ s.player.releases = [] ∧ (s.player.heldRelease = none
          ∨ (anyDown (frameComposed dt s).1.map = false ∧ (frameComposed dt s).1.keys.events = [])))) :
    frameSettled dt s = frameSent s.keyline.frameNumber (frameComposed dt s) := by
  unfold frameSettled
  dsimp only
  split
  next fewer =>
    obtain same | ⟨nothing, requests, held⟩ := alone
    · exact absurd fewer same.not_lt
    · have player : (frameComposed dt s).1.player = s.player := frameComposed_field dt (·.player) (fun _ => rfl) fun _ _ _ _ => rfl
      exact settle_placesFreed_of_nothing (s := frameSent _ _) (by exact player ▸ nothing) (by exact player ▸ requests)
        (by exact player ▸ held)
  next => rfl

end

theorem frameStartSendsTheComposition : FrameStartSendsTheComposition := by
  intro dt s live arrives r sent
  obtain ⟨still, keyline, -⟩ := frameSettled_still dt s
  have idle := still.trans (still_idleIfDone (frameSettled dt s))
  refine ⟨_, exec_frameStart dt live arrives, length_compose_le _ _, ?_, idle.map, idle.frame.leak,
    keyline.trans keylineStays_idleIfDone, fun alone rests => ?_⟩
  · obtain same | same := keyline.trans (keylineStays_idleIfDone (s := frameSettled dt s)) <;> rw [same] <;> rfl
  · have player : (frameComposed dt s).1.player = s.player := frameComposed_field dt (·.player) (fun _ => rfl) fun _ _ _ _ => rfl
    rw [frameSettled_of_nothing dt (alone.imp_right fun ⟨nothing, requests, held⟩ => ⟨nothing, requests, .inl held⟩)]
    obtain elsewhere | events | down := rests
    · refine if_neg fun done => ?_
      have ends : (s.player.state = .ENDING ∨ s.player.state = .STOPPING) := by
        have due_ : idleDue (frameSent s.keyline.frameNumber (frameComposed dt s)) = true := done
        simp only [idleDue, frameSent, player, Bool.and_eq_true, Bool.or_eq_true, beq_iff_eq] at due_
        exact due_.1.1
      exact ends.elim elsewhere.1 elsewhere.2
    · exact idleIfDone_of_events (s := sent) events
    · exact idleIfDone_of_down (s := sent) down

theorem lastFrameEndsTheHymn : LastFrameEndsTheHymn := by
  intro dt n sl s live arrives state nothing requests slot held canonical critical now r events silent
  let sent := frameSent s.keyline.frameNumber (frameComposed dt s)
  have player : sent.player = s.player := frameComposed_field dt (·.player) (fun _ => rfl) fun _ _ _ _ => rfl
  have store : sent.store = s.store := frameComposed_field dt (·.store) (fun _ => rfl) fun _ _ _ _ => rfl
  have follow : sent.follow = s.follow := frameComposed_field dt (·.follow) (fun _ => rfl) fun _ _ _ _ => rfl
  have listen : sent.listen = s.listen := frameComposed_field dt (·.listen) (fun _ => rfl) fun _ _ _ _ => rfl
  have params : sent.params = s.params := frameComposed_field dt (·.params) (fun _ => rfl) fun _ _ _ _ => rfl
  have time : sent.now = now := frameComposed_field dt (·.now) (fun _ => rfl) fun _ _ _ _ => rfl
  have ended : idleIfDone (frameSettled dt s) = inIdle n sl.header.number sent := by
    rw [frameSettled_of_nothing dt (.inr ⟨nothing, requests, .inr ⟨silent, events⟩⟩),
      idleIfDone_of_done (s := sent) (by rwa [player]) events silent]
    exact becomeIdle_exact (by rwa [player]) (by rwa [store]) (by rwa [params])
  obtain ⟨ready, others, rest⟩ := setSlotState_spec .READY held canonical
  have written : (inIdle n sl.header.number sent).store = setSlotState n .READY s.store := congrArg (setSlotState n .READY) store
  refine ⟨_, exec_frameStart dt live arrives, ?_⟩
  rw [ended]
  refine ⟨congrArg idlePlayer player, congrArg followOff follow, ?_, fun m other => ?_, ?_, ?_, ?_, rfl, rfl, rfl, rfl⟩
  · rw [written]
    exact ready
  · rw [written]
    exact others m other
  · rw [written, rest]
  · show raiseFlags sent.now (.hymn (if sent.player.state = .STOPPING then .stopped else .ended) n sl.header.number) sent.flags = _
    rw [time, player]
    rfl
  · show { sent.listen with queue := [], backlog := false } = _
    rw [listen]

/-- Settles O55: the frame is that of its composition, and what freed places bring leaves the Keyline and the map. -/
theorem frameStartSendsOneFrame : Obligations.FrameStartSendsOneFrame := by
  refine ⟨fun dt s live arrives => ?_, frameStartSendsTheComposition, lastFrameEndsTheHymn, slotStatesOfTheMap⟩
  let sent := frameSent s.keyline.frameNumber (frameComposed dt s)
  obtain ⟨still, keyline, rises⟩ := frameSettled_still dt s
  have idle := still.trans (still_idleIfDone (frameSettled dt s))
  have kept : Keeps (elapse dt s) (idleIfDone (frameSettled dt s)) := by
    have started := keeps_frameStart (s := elapse dt s)
    unfold frameStart at started
    dsimp only at started
    rw [frameStages_eq] at started
    exact started
  have boundary : (idleIfDone (frameSettled dt s)).keys.boundary = timePlus (s.now + BitVec.ofNat 32 dt) s.params.firmLead := by
    have time : sent.now = s.now + BitVec.ofNat 32 dt := frameComposed_field dt (·.now) (fun _ => rfl) fun _ _ _ _ => rfl
    have params : sent.params = s.params := frameComposed_field dt (·.params) (fun _ => rfl) fun _ _ _ _ => rfl
    have stays := (rises.trans rises_idleIfDone).boundary (by
      rw [show (frameSent s.keyline.frameNumber (frameComposed dt s)).now = _ from time,
        show (frameSent s.keyline.frameNumber (frameComposed dt s)).params = _ from params]
      exact frameComposed_boundary dt s)
    rw [stays, show (frameSent s.keyline.frameNumber (frameComposed dt s)).now = _ from time,
      show (frameSent s.keyline.frameNumber (frameComposed dt s)).params = _ from params]
  obtain ⟨interval, pending, next, number⟩ := frameComposed_keyline dt s
  refine ⟨_, exec_frameStart dt live arrives, ?_⟩
  have slots : ∃ n slots, n ≤ 16 ∧ slots.length = 3 * n ∧ sent.keyline.lastFrame
      = 0xA6#8 :: (u8 s.keyline.frameNumber ++ u8 n ++ slots) ++ checkBytes (u8 s.keyline.frameNumber ++ u8 n ++ slots) := by
    refine ⟨_, (frameComposed dt s).2.flatMap slotLayout, length_compose_le _ _, ?_, rfl⟩
    rw [List.length_flatMap, funext length_slotLayout, List.map_const', List.sum_replicate, smul_eq_mul, Nat.mul_comm]
    rfl
  have fields : ∀ k : Keyline, (k = sent.keyline ∨ k = { sent.keyline with watch := none }) →
      k.interval = s.keyline.pendingInterval.getD s.keyline.interval ∧ k.pendingInterval = none
        ∧ k.nextStart = some (timePlus (s.now + BitVec.ofNat 32 dt) (s.keyline.pendingInterval.getD s.keyline.interval))
        ∧ k.awaited = some s.keyline.frameNumber ∧ k.heldEcho = none
        ∧ k.frameNumber = (s.keyline.frameNumber + 1) % 256 ∧ k.lastFrame = sent.keyline.lastFrame := by
    rintro k (rfl | rfl) <;> exact ⟨interval, pending, next, rfl, rfl, rfl, rfl⟩
  obtain ⟨interval', pending', next', awaited, echo, number', frame⟩ := fields _ (keyline.trans keylineStays_idleIfDone)
  exact ⟨interval', pending', next', awaited, echo, number', frame ▸ slots, kept.params, kept.organ, kept.link, kept.pool, boundary⟩

end Sys2Proof.Proofs
end
